-- ==== Sys2Proof/Word.lean ====
section
/-! DEFINITION. The word types of the Clolys Z4 (R5, R118). -/

namespace Sys2Proof

/-- A byte of memory. -/
abbrev Byte := BitVec 8

/-- A scalar register, an address or a 64-bit field. -/
abbrev Word := BitVec 64

/-- A vector register or a 32-byte beat. -/
abbrev VWord := BitVec 256

end Sys2Proof
end

