-- ==== Sys2Proof/Syntax.lean ====
section
/-! DEFINITION. The instructions of the Clolys Z4: one constructor for each row of the opcode table. The operands of an
encoded instruction are the fields of its encoding, the lowest bits first, under the names of the table (R48, R49, R53,
R57 to R71). A row without an encoding is an event of the machine (spec/95): its operands name the unit concerned and
carry whatever comes from outside the module. -/

namespace Sys2Proof

/-- A rectangle of tiles of one die: die plane 2m + d, north-west corner, rows, columns (R25, R183). -/
structure Rect where
  die  : Nat
  row  : Nat
  col  : Nat
  rows : Nat
  cols : Nat
  deriving DecidableEq, Repr

/-- What a tenant is given (R356): partition, counters (R310), power fraction in 1/65,536 (R345), halt-hold quota in
flits (R339), and the recovery policy of R335 (true: ROLLBACK). -/
structure TenantCfg where
  parts    : List Rect
  counters : List Nat
  power    : Nat
  quota    : Nat
  rollback : Bool
  deriving DecidableEq, Repr

/-- A kernel file as the driver hands it over: 256-byte header, code image, initialised data (R168). -/
structure KernelFile where
  header : List (BitVec 8)
  image  : List (BitVec 8)
  data   : List (BitVec 8)
  deriving DecidableEq, Repr

/-- What one span frame brings (R307, R309, R313): a landing of a transfer, its end-to-end acknowledgement, a release notice with its
acknowledgement; or, from the peer's link layer, the acknowledgement of a good frame, the request to replay from a frame on, and the
reports that its receive side is halted and goes on (R308). -/
inductive SpanLoad where
  | landing (src dst : Nat) (xfer : BitVec 32) (idx total : Nat) (pid : BitVec 16) (target : BitVec 64) (cnt : Nat)
      (bytes : List (BitVec 8))
  | done (src dst : Nat) (xfer : BitVec 32)
  | refused (src dst : Nat) (xfer : BitVec 32) (cause : BitVec 8) (addr : BitVec 64)
  | notice (src dst : Nat) (xfer : BitVec 32)
  | noticed (src dst : Nat) (xfer : BitVec 32)
  | ack (seq : BitVec 16)
  | replay (seq : BitVec 16)
  | halted
  | resumed
  deriving DecidableEq, Repr

/-- A span frame (R307): sequence number, whether its CRC-32 checks, and its load (DESIGN CHOICE, log 42). -/
structure SpanFrame where
  seq  : BitVec 16
  good : Bool
  load : SpanLoad
  deriving DecidableEq, Repr

/-- Whom a Sumac client certificate names (R341). -/
inductive Client where
  | tenant (n : Nat)
  | operator
  deriving DecidableEq, Repr

/-- What READMEM and WRITEMEM address in a halted tile (R342). -/
inductive DebugSpace where
  | scratchpad
  | banks
  | queues
  | sems
  | sysregs (c : Nat)
  | ctxregs (c : Nat)
  deriving DecidableEq, Repr

/-- One step or unit of the boot order of R350 that does not succeed on the path it takes. `lost` says that power was
lost in it, so that its record still reads OUTCOME 0 (R351). -/
structure BootFail where
  step : Nat
  unit : Nat
  lost : Bool
  deriving DecidableEq, Repr

/-- The instructions (DESIGN CHOICE, log 12). -/
inductive Instr where
  /-- ADD (R79). -/
  | add (d : Fin 32) (a : Fin 32) (b : Fin 32)
  /-- SUB (R79). -/
  | sub (d : Fin 32) (a : Fin 32) (b : Fin 32)
  /-- MUL (R79). -/
  | mul (d : Fin 32) (a : Fin 32) (b : Fin 32)
  /-- MULH (R79). -/
  | mulh (d : Fin 32) (a : Fin 32) (b : Fin 32)
  /-- MULHU (R79). -/
  | mulhu (d : Fin 32) (a : Fin 32) (b : Fin 32)
  /-- DIV (R80). -/
  | div (d : Fin 32) (a : Fin 32) (b : Fin 32)
  /-- DIVU (R80). -/
  | divu (d : Fin 32) (a : Fin 32) (b : Fin 32)
  /-- REM (R80). -/
  | rem (d : Fin 32) (a : Fin 32) (b : Fin 32)
  /-- REMU (R80). -/
  | remu (d : Fin 32) (a : Fin 32) (b : Fin 32)
  /-- AND (R79). -/
  | and (d : Fin 32) (a : Fin 32) (b : Fin 32)
  /-- OR (R79). -/
  | or (d : Fin 32) (a : Fin 32) (b : Fin 32)
  /-- XOR (R79). -/
  | xor (d : Fin 32) (a : Fin 32) (b : Fin 32)
  /-- SHL (R79). -/
  | shl (d : Fin 32) (a : Fin 32) (b : Fin 32)
  /-- SHR (R79). -/
  | shr (d : Fin 32) (a : Fin 32) (b : Fin 32)
  /-- SHA (R79). -/
  | sha (d : Fin 32) (a : Fin 32) (b : Fin 32)
  /-- MIN (R79). -/
  | min (d : Fin 32) (a : Fin 32) (b : Fin 32)
  /-- MAX (R79). -/
  | max (d : Fin 32) (a : Fin 32) (b : Fin 32)
  /-- MINU (R79). -/
  | minu (d : Fin 32) (a : Fin 32) (b : Fin 32)
  /-- MAXU (R79). -/
  | maxu (d : Fin 32) (a : Fin 32) (b : Fin 32)
  /-- SLT (R79). -/
  | slt (d : Fin 32) (a : Fin 32) (b : Fin 32)
  /-- SLTU (R79). -/
  | sltu (d : Fin 32) (a : Fin 32) (b : Fin 32)
  /-- SEQ (R79). -/
  | seq (d : Fin 32) (a : Fin 32) (b : Fin 32)
  /-- CLZ (R79). -/
  | clz (d : Fin 32) (a : Fin 32)
  /-- CTZ (R79). -/
  | ctz (d : Fin 32) (a : Fin 32)
  /-- POPC (R79). -/
  | popc (d : Fin 32) (a : Fin 32)
  /-- MOV (R79). -/
  | mov (d : Fin 32) (a : Fin 32)
  /-- SEL (R79). -/
  | sel (d : Fin 32) (a : Fin 32) (b : Fin 32) (p : Fin 8)
  /-- TILEID (R84). -/
  | tileid (d : Fin 32)
  /-- GADDR (R85). -/
  | gaddr (d : Fin 32) (a : Fin 32) (b : Fin 32)
  /-- WID_F (R86). -/
  | widF (d : Fin 32) (a : Fin 32) (f : Fin 8)
  /-- ADDI (R81). -/
  | addi (d : Fin 32) (a : Fin 32) (i : BitVec 13)
  /-- ANDI (R81). -/
  | andi (d : Fin 32) (a : Fin 32) (i : BitVec 13)
  /-- ORI (R81). -/
  | ori (d : Fin 32) (a : Fin 32) (i : BitVec 13)
  /-- XORI (R81). -/
  | xori (d : Fin 32) (a : Fin 32) (i : BitVec 13)
  /-- SLTI (R81). -/
  | slti (d : Fin 32) (a : Fin 32) (i : BitVec 13)
  /-- LI (R81). -/
  | li (d : Fin 32) (i : BitVec 13)
  /-- LIH (R81). -/
  | lih (d : Fin 32) (a : Fin 32) (i : BitVec 13)
  /-- SHLI (R82). -/
  | shli (d : Fin 32) (a : Fin 32) (s : Fin 64)
  /-- SHRI (R82). -/
  | shri (d : Fin 32) (a : Fin 32) (s : Fin 64)
  /-- SHAI (R82). -/
  | shai (d : Fin 32) (a : Fin 32) (s : Fin 64)
  /-- BEXT (R83). -/
  | bext (d : Fin 32) (a : Fin 32) (p : Fin 64) (l : Fin 64)
  /-- BINS (R83). -/
  | bins (d : Fin 32) (a : Fin 32) (p : Fin 64) (l : Fin 64)
  /-- JALR (R89). -/
  | jalr (d : Fin 32) (a : Fin 32) (i : BitVec 13)
  /-- LOOP (R92). -/
  | loop (d : Fin 32) (a : Fin 32) (t : BitVec 8)
  /-- LOOPI (R92). -/
  | loopi (d : Fin 32) (n : Fin 32) (c : BitVec 13)
  /-- PSET (R87). -/
  | pset (d : Fin 32) (a : Fin 32)
  /-- PAND (R87). -/
  | pand (d : Fin 32) (a : Fin 32) (b : Fin 32)
  /-- POR (R87). -/
  | por (d : Fin 32) (a : Fin 32) (b : Fin 32)
  /-- PXOR (R87). -/
  | pxor (d : Fin 32) (a : Fin 32) (b : Fin 32)
  /-- PNOT (R87). -/
  | pnot (d : Fin 32) (a : Fin 32)
  /-- LD_POSTINC (R96). -/
  | ldPostinc (d : Fin 32) (a : Fin 32) (k : Fin 8) (i : BitVec 8)
  /-- LD_I8 (R95). -/
  | ldI8 (d : Fin 32) (a : Fin 32) (i : BitVec 13)
  /-- LD_N8 (R95). -/
  | ldN8 (d : Fin 32) (a : Fin 32) (i : BitVec 13)
  /-- LD_I16 (R95). -/
  | ldI16 (d : Fin 32) (a : Fin 32) (i : BitVec 13)
  /-- LD_N16 (R95). -/
  | ldN16 (d : Fin 32) (a : Fin 32) (i : BitVec 13)
  /-- LD_I32 (R95). -/
  | ldI32 (d : Fin 32) (a : Fin 32) (i : BitVec 13)
  /-- LD_N32 (R95). -/
  | ldN32 (d : Fin 32) (a : Fin 32) (i : BitVec 13)
  /-- LD_I64 (R95). -/
  | ldI64 (d : Fin 32) (a : Fin 32) (i : BitVec 13)
  /-- ST_8 (R95). -/
  | st8 (d : Fin 32) (a : Fin 32) (i : BitVec 13)
  /-- ST_16 (R95). -/
  | st16 (d : Fin 32) (a : Fin 32) (i : BitVec 13)
  /-- ST_32 (R95). -/
  | st32 (d : Fin 32) (a : Fin 32) (i : BitVec 13)
  /-- ST_64 (R95). -/
  | st64 (d : Fin 32) (a : Fin 32) (i : BitVec 13)
  /-- LV (R95). -/
  | lv (d : Fin 32) (a : Fin 32) (i : BitVec 13)
  /-- SV (R95). -/
  | sv (d : Fin 32) (a : Fin 32) (i : BitVec 13)
  /-- ST_POSTINC (R96). -/
  | stPostinc (d : Fin 32) (a : Fin 32) (k : Fin 32) (i : BitVec 8)
  /-- LVS (R97). -/
  | lvs (d : Fin 32) (a : Fin 32) (b : Fin 32) (w : Fin 4)
  /-- LVG (R97). -/
  | lvg (d : Fin 32) (a : Fin 32) (b : Fin 32) (w : Fin 4)
  /-- SVX (R97). -/
  | svx (d : Fin 32) (a : Fin 32) (b : Fin 32) (w : Fin 4)
  /-- BEQ (R88). -/
  | beq (a : Fin 32) (b : Fin 32) (i : BitVec 13)
  /-- BNE (R88). -/
  | bne (a : Fin 32) (b : Fin 32) (i : BitVec 13)
  /-- BLT (R88). -/
  | blt (a : Fin 32) (b : Fin 32) (i : BitVec 13)
  /-- BGE (R88). -/
  | bge (a : Fin 32) (b : Fin 32) (i : BitVec 13)
  /-- BLTU (R88). -/
  | bltu (a : Fin 32) (b : Fin 32) (i : BitVec 13)
  /-- BGEU (R88). -/
  | bgeu (a : Fin 32) (b : Fin 32) (i : BitVec 13)
  /-- BP (R88). -/
  | bp (a : Fin 32) (i : BitVec 13)
  /-- BNP (R88). -/
  | bnp (a : Fin 32) (i : BitVec 13)
  /-- J (R89). -/
  | j (i : BitVec 23)
  /-- JAL (R89). -/
  | jal (i : BitVec 23)
  /-- LDF_32 (R187). -/
  | ldf32 (d : Fin 32) (a : Fin 32) (i : BitVec 13)
  /-- LDF_64 (R187). -/
  | ldf64 (d : Fin 32) (a : Fin 32) (i : BitVec 13)
  /-- STF_32 (R187). -/
  | stf32 (d : Fin 32) (a : Fin 32) (i : BitVec 13)
  /-- STF_64 (R187). -/
  | stf64 (d : Fin 32) (a : Fin 32) (i : BitVec 13)
  /-- LVF (R187). -/
  | lvf (d : Fin 32) (a : Fin 32) (i : BitVec 13)
  /-- SVF (R187). -/
  | svf (d : Fin 32) (a : Fin 32) (i : BitVec 13)
  /-- AADD (R188). -/
  | aadd (d : Fin 32) (a : Fin 32) (b : Fin 32) (w : Fin 2) (s : Fin 4)
  /-- AAND (R188). -/
  | aand (d : Fin 32) (a : Fin 32) (b : Fin 32) (w : Fin 2) (s : Fin 4)
  /-- AOR (R188). -/
  | aor (d : Fin 32) (a : Fin 32) (b : Fin 32) (w : Fin 2) (s : Fin 4)
  /-- AXOR (R188). -/
  | axor (d : Fin 32) (a : Fin 32) (b : Fin 32) (w : Fin 2) (s : Fin 4)
  /-- AMIN (R188). -/
  | amin (d : Fin 32) (a : Fin 32) (b : Fin 32) (w : Fin 2) (s : Fin 4)
  /-- AMAX (R188). -/
  | amax (d : Fin 32) (a : Fin 32) (b : Fin 32) (w : Fin 2) (s : Fin 4)
  /-- AMINU (R188). -/
  | aminu (d : Fin 32) (a : Fin 32) (b : Fin 32) (w : Fin 2) (s : Fin 4)
  /-- AMAXU (R188). -/
  | amaxu (d : Fin 32) (a : Fin 32) (b : Fin 32) (w : Fin 2) (s : Fin 4)
  /-- ASWAP (R188). -/
  | aswap (d : Fin 32) (a : Fin 32) (b : Fin 32) (w : Fin 2) (s : Fin 4)
  /-- ACAS (R188). -/
  | acas (d : Fin 32) (a : Fin 32) (b : Fin 32) (w : Fin 2) (s : Fin 4)
  /-- XADDF (R189). -/
  | xaddf (a : Fin 32) (b : Fin 32) (t : Fin 2)
  /-- XRD (R189). -/
  | xrd (d : Fin 32) (a : Fin 32) (t : Fin 2)
  /-- XCLR (R189). -/
  | xclr (a : Fin 32)
  /-- CPY (R191). -/
  | cpy (d : Fin 32) (a : Fin 32) (b : Fin 32) (v : Fin 4)
  /-- CPYPOP (R193). -/
  | cpypop (d : Fin 32)
  /-- FOLD (R194). -/
  | fold (d : Fin 32) (a : Fin 32) (b : Fin 32)
  /-- FOLDRD (R195). -/
  | foldrd (d : Fin 32) (k : Fin 32)
  /-- VADD (R122). -/
  | vadd (r : Fin 4) (d : Fin 32) (a : Fin 32) (b : Fin 32) (t : Fin 16)
  /-- VSUB (R122). -/
  | vsub (r : Fin 4) (d : Fin 32) (a : Fin 32) (b : Fin 32) (t : Fin 16)
  /-- VMUL (R122). -/
  | vmul (r : Fin 4) (d : Fin 32) (a : Fin 32) (b : Fin 32) (t : Fin 16)
  /-- VFMA (R122). -/
  | vfma (r : Fin 4) (d : Fin 32) (a : Fin 32) (b : Fin 32) (t : Fin 16)
  /-- VMIN (R122). -/
  | vmin (r : Fin 4) (d : Fin 32) (a : Fin 32) (b : Fin 32) (t : Fin 16)
  /-- VMAX (R122). -/
  | vmax (r : Fin 4) (d : Fin 32) (a : Fin 32) (b : Fin 32) (t : Fin 16)
  /-- VCMPEQ (R125). -/
  | vcmpeq (r : Fin 4) (d : Fin 32) (a : Fin 32) (b : Fin 32) (t : Fin 16)
  /-- VCMPLT (R125). -/
  | vcmplt (r : Fin 4) (d : Fin 32) (a : Fin 32) (b : Fin 32) (t : Fin 16)
  /-- VCMPLE (R125). -/
  | vcmple (r : Fin 4) (d : Fin 32) (a : Fin 32) (b : Fin 32) (t : Fin 16)
  /-- VRED_ADD (R128). -/
  | vredAdd (r : Fin 4) (d : Fin 32) (a : Fin 32) (t : Fin 16)
  /-- VRED_MAX (R128). -/
  | vredMax (r : Fin 4) (d : Fin 32) (a : Fin 32) (t : Fin 16)
  /-- VRED_MIN (R128). -/
  | vredMin (r : Fin 4) (d : Fin 32) (a : Fin 32) (t : Fin 16)
  /-- VCVT (R129). -/
  | vcvt (r : Fin 4) (d : Fin 32) (a : Fin 32) (s : Fin 16) (t : Fin 16)
  /-- VDOT (R133). -/
  | vdot (r : Fin 4) (d : Fin 32) (a : Fin 32) (b : Fin 32) (t : Fin 16)
  /-- VSCALE (R134). -/
  | vscale (r : Fin 4) (d : Fin 32) (a : Fin 32) (b : Fin 32) (t : Fin 16)
  /-- VPACK (R130). -/
  | vpack (r : Fin 4) (d : Fin 32) (a : Fin 32) (b : Fin 32) (t : Fin 16)
  /-- VABS (R123). -/
  | vabs (d : Fin 32) (a : Fin 32) (t : Fin 16)
  /-- VNEG (R123). -/
  | vneg (d : Fin 32) (a : Fin 32) (t : Fin 16)
  /-- VAND (R124). -/
  | vand (d : Fin 32) (a : Fin 32) (b : Fin 32)
  /-- VOR (R124). -/
  | vor (d : Fin 32) (a : Fin 32) (b : Fin 32)
  /-- VXOR (R124). -/
  | vxor (d : Fin 32) (a : Fin 32) (b : Fin 32)
  /-- VSHL (R124). -/
  | vshl (d : Fin 32) (a : Fin 32) (b : Fin 32) (t : Fin 16)
  /-- VSHR (R124). -/
  | vshr (d : Fin 32) (a : Fin 32) (b : Fin 32) (t : Fin 16)
  /-- VSHA (R124). -/
  | vsha (d : Fin 32) (a : Fin 32) (b : Fin 32) (t : Fin 16)
  /-- VSEL (R126). -/
  | vsel (d : Fin 32) (a : Fin 32) (b : Fin 32) (p : Fin 8)
  /-- VBCAST (R127). -/
  | vbcast (d : Fin 32) (a : Fin 32) (t : Fin 16)
  /-- VEXT (R127). -/
  | vext (d : Fin 32) (a : Fin 32) (n : Fin 32) (t : Fin 16)
  /-- VPERM (R127). -/
  | vperm (d : Fin 32) (a : Fin 32) (b : Fin 32) (t : Fin 16)
  /-- VSHUF (R127). -/
  | vshuf (d : Fin 32) (a : Fin 32) (b : Fin 32) (t : Fin 16)
  /-- VRCP (R136). -/
  | vrcp (d : Fin 32) (a : Fin 32) (t : Fin 16)
  /-- VRSQ (R136). -/
  | vrsq (d : Fin 32) (a : Fin 32) (t : Fin 16)
  /-- VEXP2 (R136). -/
  | vexp2 (d : Fin 32) (a : Fin 32) (t : Fin 16)
  /-- VMAXEXP (R135). -/
  | vmaxexp (d : Fin 32) (a : Fin 32) (t : Fin 16)
  /-- VUNPK (R132). -/
  | vunpk (d : Fin 32) (a : Fin 32) (h : Fin 32) (t : Fin 16)
  /-- MXOPEN (R222). -/
  | mxopen (p : Fin 4)
  /-- MXCFG (R236). -/
  | mxcfg (d : Fin 32) (p : Fin 4)
  /-- MXPUSH (R239). -/
  | mxpush (a : Fin 32) (p : Fin 4)
  /-- MXPUSHM (R239). -/
  | mxpushm (a : Fin 32) (n : Fin 32) (p : Fin 4)
  /-- MXSCL (R241). -/
  | mxscl (a : Fin 32) (p : Fin 4)
  /-- MXCLOSE (R242). -/
  | mxclose (p : Fin 4)
  /-- MXSTAT (R243). -/
  | mxstat (d : Fin 32) (p : Fin 4)
  /-- MSETM (R237). -/
  | msetm (a : Fin 32)
  /-- SKLD (R238). -/
  | skld (d : Fin 32) (a : Fin 32)
  /-- ACCZ (R245). -/
  | accz (d : Fin 32)
  /-- ACCRD (R245). -/
  | accrd (v : Fin 32) (k : Fin 32) (r : Fin 32)
  /-- ACCWR (R245). -/
  | accwr (k : Fin 32) (v : Fin 32) (r : Fin 32)
  /-- ACCCVT (R246). -/
  | acccvt (v : Fin 32) (k : Fin 32) (r : Fin 32) (t : Fin 16)
  /-- SEMSET (R199). -/
  | semset (d : Fin 32) (a : Fin 32)
  /-- SEMADD (R199). -/
  | semadd (d : Fin 32) (n : Fin 32)
  /-- SEMWAIT (R199). -/
  | semwait (d : Fin 32) (n : Fin 32)
  /-- PHREG (R207). -/
  | phreg (d : Fin 32) (a : Fin 32) (m : Fin 32)
  /-- PHDROP (R208). -/
  | phdrop (a : Fin 32)
  /-- PHSIG (R209). -/
  | phsig (d : Fin 32) (a : Fin 32)
  /-- PHWAIT (R209). -/
  | phwait (d : Fin 32) (a : Fin 32) (b : Fin 32)
  /-- PHNEXT (R209). -/
  | phnext (d : Fin 32) (a : Fin 32)
  /-- PHASER_REQUEST (R206). -/
  | phaserRequest (m : Nat)
  /-- BAR (R205). -/
  | bar (d : Fin 32)
  /-- BARA (R205). -/
  | bara (d : Fin 32) (a : Fin 32)
  /-- BARW (R205). -/
  | barw (d : Fin 32) (a : Fin 32) (b : Fin 32)
  /-- RATLINE_RELEASE (R203). -/
  | ratlineRelease (l n m : Nat)
  /-- VST (R212). -/
  | vst (d : Fin 32) (a : Fin 32) (b : Fin 32)
  /-- VLD (R212). -/
  | vld (d : Fin 32) (a : Fin 32) (b : Fin 32)
  /-- VRECL (R212). -/
  | vrecl (a : Fin 32) (b : Fin 32)
  /-- VLD_RESEND (R213). -/
  | vldResend (t c : Nat)
  /-- FENCE (R214). -/
  | fence (d : Fin 32)
  /-- SYSR (R149). -/
  | sysr (d : Fin 32) (m : Fin 32) (n : Fin 32)
  /-- SYSW (R149). -/
  | sysw (d : Fin 32) (m : Fin 32) (n : Fin 32)
  /-- TRAP (R150). -/
  | trap (a : Fin 32) (b : Fin 32)
  /-- BRK (R150). -/
  | brk
  /-- WFI (R150). -/
  | wfi
  /-- WFI_WAKE (R150). -/
  | wfiWake (t c : Nat)
  /-- RETIRE_WORD (R180). -/
  | retireWord
  /-- RETIRE_S (R181). -/
  | retireS (a : Fin 32)
  /-- KARG (R182). -/
  | karg (d : Fin 32) (n : Fin 32)
  /-- PFENCE_T (R327). -/
  | pfenceT
  /-- PFENCE_G (R327). -/
  | pfenceG
  /-- PSTAT (R328). -/
  | pstat (d : Fin 32)
  /-- PGATE (R329). -/
  | pgate (a : Fin 32) (m : Fin 32)
  /-- TSEND (R313). -/
  | tsend (d : Fin 32) (a : Fin 32) (b : Fin 32)
  /-- CNTRD (R314). -/
  | cntrd (d : Fin 32) (a : Fin 32)
  /-- CNTSET (R314). -/
  | cntset (a : Fin 32) (b : Fin 32)
  /-- SEND (R160). -/
  | send (d : Fin 32) (a : Fin 32) (b : Fin 32) (n : Fin 32)
  /-- SENDM (R160). -/
  | sendm (d : Fin 32) (a : Fin 32) (b : Fin 32) (n : Fin 32)
  /-- MSGID (R162). -/
  | msgid (d : Fin 32)
  /-- QPUSH (R163). -/
  | qpush (d : Fin 32) (p : Fin 32) (q : Fin 32)
  /-- QPOP (R163). -/
  | qpop (d : Fin 32) (p : Fin 32) (q : Fin 32)
  /-- QPEEK (R163). -/
  | qpeek (d : Fin 32) (p : Fin 32) (q : Fin 32)
  /-- QCNT (R163). -/
  | qcnt (d : Fin 32) (q : Fin 32)
  /-- QPUSHW (R164). -/
  | qpushw (d : Fin 32) (q : Fin 32)
  /-- QPOPW (R164). -/
  | qpopw (d : Fin 32) (q : Fin 32)
  /-- QWAIT_EXPIRY (R164). -/
  | qwaitExpiry (t c : Nat)
  /-- RPUSH (R166). -/
  | rpush (d : Fin 32) (p : Fin 32) (b : Fin 32)
  /-- RPOP (R166). -/
  | rpop (d : Fin 32) (p : Fin 32) (b : Fin 32)
  /-- CHBLK (R167). -/
  | chblk (d : Fin 32) (a : Fin 32)
  /-- CHUNB (R167). -/
  | chunb (d : Fin 32) (a : Fin 32)
  /-- CHMASK (R167). -/
  | chmask (a : Fin 32) (k : Fin 32)
  /-- CHANNEL_CONTROL_ARRIVAL (R167). -/
  | channelControlArrival (t : Nat)
  /-- SEAL (R261). -/
  | seal (a : Fin 32) (b : Fin 32)
  /-- UNSEAL (R261). -/
  | unseal (a : Fin 32) (b : Fin 32)
  /-- SEAL_REQUEST_ARRIVAL (R261). -/
  | sealRequestArrival (k : Nat)
  /-- LGD (R263). -/
  | lgd (d : Fin 32) (a : Fin 32)
  /-- SGD (R263). -/
  | sgd (a : Fin 32) (b : Fin 32)
  /-- LGV (R263). -/
  | lgv (d : Fin 32) (a : Fin 32)
  /-- SGV (R263). -/
  | sgv (d : Fin 32) (a : Fin 32)
  /-- PUSHT (R264). -/
  | pusht (d : Fin 32) (a : Fin 32) (n : Fin 32)
  /-- PUSH_BEAT_ARRIVAL (R264). -/
  | pushBeatArrival (t : Nat)
  /-- TLBI_H (R265). -/
  | tlbiH (a : Fin 32) (b : Fin 32)
  /-- ILL_W (R54). -/
  | illW
  /-- ILL (R54). -/
  | ill
  /-- NOP (R91). -/
  | nop
  /-- YIELD (R91). -/
  | yield
  /-- RETIRE (R180). -/
  | retire
  /-- C_ALU (R53). -/
  | cAlu (d : Fin 32) (a : Fin 32) (o : Fin 8)
  /-- C_ADDI (R53). -/
  | cAddi (d : Fin 32) (i : BitVec 8)
  /-- C_LI (R53). -/
  | cLi (d : Fin 32) (i : BitVec 8)
  /-- C_LD (R53). -/
  | cLd (d : Fin 8) (a : Fin 8) (o : Fin 4) (f : BitVec 5)
  /-- C_B (R53). -/
  | cB (i : BitVec 13)
  /-- PFX (R55). -/
  | pfx (p : Fin 8) (s : Fin 2)
  /-- MESSAGE_ARRIVAL (R152). -/
  | messageArrival (t : Nat)
  /-- ACTIVATION_START (R35). -/
  | activationStart (t : Nat)
  /-- PRIORITY_AGEING (R36). -/
  | priorityAgeing (t : Nat)
  /-- OUTBOX_INJECT (R277). -/
  | outboxInject (t : Nat)
  /-- WATCHDOG_EXPIRY (R144). -/
  | watchdogExpiry (t c : Nat)
  /-- TRAP_SEQUENCE_COMPLETE (R138). -/
  | trapSequenceComplete (t c : Nat)
  /-- REMOTE_RECORD_ARRIVAL (R228). -/
  | remoteRecordArrival (t : Nat)
  /-- FAR_REQUEST_SERVICE (R301). -/
  | farRequestService (t : Nat)
  /-- CA_OPERATION (R368). -/
  | caOperation (t : Nat)
  /-- FAR_RESPONSE_ARRIVAL (R186). -/
  | farResponseArrival (t : Nat)
  /-- COMPLETION_ROUND (R43). -/
  | completionRound
  /-- LIVE_MIGRATION (R42). -/
  | liveMigration (t u : Nat)
  /-- QUIESCE_POINT (R145). -/
  | quiescePoint (t c : Nat)
  /-- VFIFO_LANDING (R158). -/
  | vfifoLanding (t : Nat)
  /-- VFIFO_CREDIT_RETURN (R158). -/
  | vfifoCreditReturn (t : Nat)
  /-- K_STEP_CONSUME (R217). -/
  | kStepConsume (e : Nat)
  /-- DELIVERY_SEND (R228). -/
  | deliverySend (e : Nat)
  /-- DELIVERY_APPLY (R226). -/
  | deliveryApply (t : Nat)
  /-- DELIVERY_ACK (R220). -/
  | deliveryAck (e : Nat)
  /-- COPY_COMMAND_START (R303). -/
  | copyCommandStart (t : Nat)
  /-- COPY_COMPLETION (R191). -/
  | copyCompletion (t : Nat)
  /-- FOLD_PERFORM (R194). -/
  | foldPerform (t : Nat)
  /-- LAUNCH_DOORBELL (R171). -/
  | launchDoorbell (n q tail : Nat) (ds : List (List (BitVec 8)))
  /-- KERNEL_REGISTER (R168). -/
  | kernelRegister (n : Nat) (file : KernelFile)
  /-- LAUNCH_PLACE (R173). -/
  | launchPlace (n q : Nat)
  /-- LAUNCH_LOAD_COMPLETE (R175). -/
  | launchLoadComplete (l : Nat)
  /-- LAUNCH_ABORT (R173). -/
  | launchAbort (l : Nat)
  /-- STATION_REQUEST (R371). -/
  | stationRequest (k : Nat)
  /-- TABLE_WALK_COMPLETE (R258). -/
  | tableWalkComplete (k : Nat)
  /-- HBM_ACCESS_COMPLETE (R371). -/
  | hbmAccessComplete (k : Nat)
  /-- ROUTER_ARBITRATION (R296). -/
  | routerArbitration (t : Nat)
  /-- HALT_HOLD_DELIVERY (R369). -/
  | haltHoldDelivery (t : Nat)
  /-- SPAN_FRAME_RECEIVE (R307). -/
  | spanFrameReceive (p : Nat) (f : SpanFrame)
  /-- SPAN_LANE_FAIL (R307). -/
  | spanLaneFail (p lane : Nat)
  /-- SPAN_ENABLE (R308). -/
  | spanEnable (p : Nat)
  /-- SPAN_TRAINING_DONE (R308). -/
  | spanTrainingDone (p : Nat) (lanes : BitVec 8)
  /-- SPAN_TRAINING_TIMEOUT (R308). -/
  | spanTrainingTimeout (p : Nat)
  /-- SPAN_PEER_HALT (R308). -/
  | spanPeerHalt (p : Nat)
  /-- SPAN_PEER_RESUME (R308). -/
  | spanPeerResume (p : Nat)
  /-- SPAN_PEER_LOST (R308). -/
  | spanPeerLost (p : Nat)
  /-- SPAN_DISABLE (R308). -/
  | spanDisable (p : Nat)
  /-- TRANSFER_RESEND (R309). -/
  | transferResend (x : Nat)
  /-- TRANSFER_ACK (R309). -/
  | transferAck (x : Nat)
  /-- RELEASE_NOTICE (R309). -/
  | releaseNotice (dev x : Nat)
  /-- LANDING_COUNT (R310). -/
  | landingCount (i : Nat)
  /-- COUNTER_ENGINE_CYCLE (R311). -/
  | counterEngineCycle
  /-- BRIDGE_DEGRADE (R306). -/
  | bridgeDegrade (b : Nat)
  /-- BRIDGE_DOWN (R306). -/
  | bridgeDown (b : Nat)
  /-- TRICKLE (R318). -/
  | trickle (t : Nat)
  /-- COMMIT (R319). -/
  | commit (t : Nat)
  /-- COMMIT_COMPLETE (R319). -/
  | commitComplete (t : Nat)
  /-- AUTO_COMMIT_INTERVAL (R321). -/
  | autoCommitInterval (t : Nat)
  /-- PERSIST_REQUEST (R327). -/
  | persistRequest (t : Nat)
  /-- POWER_LOSS (R323). -/
  | powerLoss (t : Nat)
  /-- RESUME (R322). -/
  | resume (t : Nat)
  /-- GATE_REQUEST_ACCEPT (R330). -/
  | gateRequestAccept (t : Nat)
  /-- GATE_OFF (R325). -/
  | gateOff (t : Nat)
  /-- GATE_ON (R325). -/
  | gateOn (t : Nat)
  /-- GATE_QUIESCED (R325). -/
  | gateQuiesced (t : Nat)
  /-- SLEEP_WAKE (R325). -/
  | sleepWake (t : Nat)
  /-- TILE_HALT (R146). -/
  | tileHalt (t : Nat)
  /-- ECC_ROLLBACK (R335). -/
  | eccRollback (t : Nat)
  /-- HEALTH_MIGRATION (R340). -/
  | healthMigration (t u : Nat)
  /-- SUMAC_SESSION (R341). -/
  | sumacSession (who : Client) (authentic : Bool)
  /-- SUMAC_SESSION_TIMEOUT (R341). -/
  | sumacSessionTimeout (i : Nat)
  /-- LIST (R342). -/
  | list (i : Nat)
  /-- SETGRP (R342): `ts` names the launch and its tiles. -/
  | setgrp (i : Nat) (ts : Nat × List Nat) (groups : BitVec 8) (dbg : Bool)
  /-- STOP (R342). -/
  | stop (i n : Nat) (groups : BitVec 8)
  /-- SUMAC_RESUME (R342). -/
  | sumacResume (i n : Nat) (groups : BitVec 8) (own : Option Nat)
  /-- READCTX (R342). -/
  | readctx (i t c : Nat)
  /-- READMEM (R342). -/
  | readmem (i t : Nat) (sp : DebugSpace) (addr len : Nat)
  /-- WRITEMEM (R342). -/
  | writemem (i t : Nat) (sp : DebugSpace) (addr : Nat) (bytes : List (BitVec 8))
  /-- READREC (R342). -/
  | readrec (i : Nat)
  /-- READGLOBAL (R342). -/
  | readglobal (i : Nat) (pid : BitVec 16) (addr len : Nat)
  /-- EVENTS (R342). -/
  | events (i : Nat)
  /-- INTERVAL_BOUNDARY (R345). -/
  | intervalBoundary (otherWatts : Nat) (peaks : List (Nat × Nat))
  /-- THROTTLE_WINDOW (R346). -/
  | throttleWindow (cl e : Nat)
  /-- FRAME_BOUNDARY (R347). -/
  | frameBoundary (t : Nat)
  /-- POWER_TOKEN (R349): the Sumac session in which it comes (R348), and its bytes. -/
  | powerToken (token : Nat × List (BitVec 8))
  /-- TOKEN_EXPIRY (R349). -/
  | tokenExpiry
  /-- MODULE_RESET (R350). -/
  | moduleReset (fails : List BootFail)
  /-- GET_MEASUREMENTS (R352). -/
  | getMeasurements
  /-- PID_BIND_WRITE (R253). -/
  | pidBindWrite (n q : Nat) (pid : BitVec 16)
  /-- TENANT_CREATE (R356). -/
  | tenantCreate (n : Nat) (cfg : TenantCfg)
  /-- TENANT_CHANGE (R356). -/
  | tenantChange (n : Nat) (cfg : TenantCfg)
  /-- TENANT_DELETE (R356). -/
  | tenantDelete (n : Nat)
  /-- HOST_REGISTER_WRITE (R353). -/
  | hostRegisterWrite (n off : Nat) (val : BitVec 64)
  /-- PAGE_TABLE_WRITE (R259). -/
  | pageTableWrite (pa : Nat) (val : BitVec 64)
  /-- KERNEL_UNREGISTER (R176). -/
  | kernelUnregister (h : BitVec 32)
  /-- POWER_RETURN_TIMEOUT (R340). -/
  | powerReturnTimeout (t : Nat)
  /-- SECOND_TIER_PORT_LOST (R358). -/
  | secondTierPortLost (p : Nat)
  /-- SECOND_TIER_ACCESS_COMPLETE (R260). -/
  | secondTierAccessComplete (k : Nat)
  /-- SPAN_ENGINE_DEBUG_STOP (R308). -/
  | spanEngineDebugStop
  /-- SPAN_ENGINE_DEBUG_RESUME (R308). -/
  | spanEngineDebugResume
  /-- JOURNAL_CLEAR (R351). -/
  | journalClear
  /-- IMAGE_INSTALL (R351). -/
  | imageInstall (kind slot ver : Nat) (good : Bool)
  deriving DecidableEq, Repr

end Sys2Proof
end

