-- ==== Sys2Proof/WellFormed.lean ====
section
/-! DEFINITION. Which instructions the encoding admits: the limits of R51, the destination rule of R52, the literal
ranges, the types each vector instruction lists, and the encodings that a version of the ISA lacks (R72). -/

namespace Sys2Proof

/-! Type codes of R61. -/

def tI8 : Fin 16 := 0
def tI16 : Fin 16 := 1
def tI32 : Fin 16 := 2
def tI64 : Fin 16 := 3
def tN8 : Fin 16 := 4
def tN16 : Fin 16 := 5
def tN32 : Fin 16 := 6
def tN64 : Fin 16 := 7
def tBF : Fin 16 := 8
def tF32 : Fin 16 := 9
def tDP : Fin 16 := 10
def tBSI8 : Fin 16 := 11
def tBSDP : Fin 16 := 12

/-- The eight integer types. -/
def isInt (t : Fin 16) : Bool := t.val ≤ 7

/-- The signed integer types. -/
def isSigned (t : Fin 16) : Bool := t.val ≤ 3

/-- The floating types .bf and .f32. -/
def isFloat (t : Fin 16) : Bool := t == tBF || t == tF32

/-- The types of R118. -/
def hasLanes (t : Fin 16) : Bool := t.val ≤ 10

/-- Lane width in bits (R118). -/
def laneBits (t : Fin 16) : Nat :=
  if t == tI8 || t == tN8 || t == tDP then 8
  else if t == tI16 || t == tN16 || t == tBF then 16
  else if t == tI64 || t == tN64 then 64
  else 32

/-- A field that names p0 to p7 (R51). -/
def isP (x : Fin 32) : Bool := x.val ≤ 7

/-- Typed arithmetic (R62, R122): integers under major 0x30 only, .f32 and .bf under every mode. -/
def arithType (r : Fin 4) (t : Fin 16) : Bool := (isInt t && r == 0) || isFloat t

/-- The pairs of R129: source s, destination t. -/
def cvtType (r : Fin 4) (s t : Fin 16) : Bool :=
  (t == tF32 && (s == tI32 || s == tN32)) || ((t == tI32 || t == tN32) && s == tF32) ||
  (t == tBF && (s == tI16 || s == tN16)) || ((t == tI16 || t == tN16) && s == tBF) ||
  (r == 0 && ((t == tDP && (s == tI8 || s == tN8 || s == tDP)) || ((t == tI8 || t == tN8) && s == tDP)))

/-- Queues that a context can push into (R155). -/
def pushable (q : Fin 32) : Bool := q.val ≤ 3 || q.val == 6

/-- The assigned system register numbers (R147). -/
def sysAssigned (n : Nat) : Bool := n ≤ 0x0B || (0x10 ≤ n && n ≤ 0x13)

/-- Well-formed: the instruction raises no ILLEGAL by its own fields (DEDUCED, log 15). -/
def Instr.wf : Instr → Bool
  | .add d _ _ => d != 0
  | .sub d _ _ => d != 0
  | .mul d _ _ => d != 0
  | .mulh d _ _ => d != 0
  | .mulhu d _ _ => d != 0
  | .div d _ _ => d != 0
  | .divu d _ _ => d != 0
  | .rem d _ _ => d != 0
  | .remu d _ _ => d != 0
  | .and d _ _ => d != 0
  | .or d _ _ => d != 0
  | .xor d _ _ => d != 0
  | .shl d _ _ => d != 0
  | .shr d _ _ => d != 0
  | .sha d _ _ => d != 0
  | .min d _ _ => d != 0
  | .max d _ _ => d != 0
  | .minu d _ _ => d != 0
  | .maxu d _ _ => d != 0
  | .slt d _ _ => d != 0
  | .sltu d _ _ => d != 0
  | .seq d _ _ => d != 0
  | .clz d _ => d != 0
  | .ctz d _ => d != 0
  | .popc d _ => d != 0
  | .mov d _ => d != 0
  | .sel d _ _ p => d != 0 && p != 0
  | .tileid d => d != 0
  | .gaddr d _ _ => d != 0
  | .widF d _ f => d != 0 && f.val ≤ 5
  | .addi d _ _ => d != 0
  | .andi d _ _ => d != 0
  | .ori d _ _ => d != 0
  | .xori d _ _ => d != 0
  | .slti d _ _ => d != 0
  | .li d _ => d != 0
  | .lih d _ _ => d != 0
  | .shli d _ _ => d != 0
  | .shri d _ _ => d != 0
  | .shai d _ _ => d != 0
  | .bext d _ p l => d != 0 && p.val + (l.val + 1) ≤ 64
  | .bins d _ p l => d != 0 && p.val + (l.val + 1) ≤ 64
  | .jalr _ _ _ => true
  | .loop _ _ _ => true
  | .loopi _ _ _ => true
  | .pset d _ => isP d && d != 0
  | .pand d a b => isP d && d != 0 && isP a && isP b
  | .por d a b => isP d && d != 0 && isP a && isP b
  | .pxor d a b => isP d && d != 0 && isP a && isP b
  | .pnot d a => isP d && d != 0 && isP a
  | .ldPostinc d a k _ => k == 7 || d != a
  | .ldI8 d _ _ => d != 0
  | .ldN8 d _ _ => d != 0
  | .ldI16 d _ _ => d != 0
  | .ldN16 d _ _ => d != 0
  | .ldI32 d _ _ => d != 0
  | .ldN32 d _ _ => d != 0
  | .ldI64 d _ _ => d != 0
  | .st8 _ _ _ => true
  | .st16 _ _ _ => true
  | .st32 _ _ _ => true
  | .st64 _ _ _ => true
  | .lv _ _ _ => true
  | .sv _ _ _ => true
  | .stPostinc _ _ k _ => k.val ≤ 4
  | .lvs _ _ _ _ => true
  | .lvg _ _ _ _ => true
  | .svx _ _ _ _ => true
  | .beq _ _ _ => true
  | .bne _ _ _ => true
  | .blt _ _ _ => true
  | .bge _ _ _ => true
  | .bltu _ _ _ => true
  | .bgeu _ _ _ => true
  | .bp a _ => isP a
  | .bnp a _ => isP a
  | .j _ => true
  | .jal _ => true
  | .ldf32 d _ _ => d != 0
  | .ldf64 d _ _ => d != 0
  | .stf32 _ _ _ => true
  | .stf64 _ _ _ => true
  | .lvf _ _ _ => true
  | .svf _ _ _ => true
  | .aadd _ _ _ _ s => s != 3
  | .aand _ _ _ _ s => s != 3
  | .aor _ _ _ _ s => s != 3
  | .axor _ _ _ _ s => s != 3
  | .amin _ _ _ _ s => s != 3
  | .amax _ _ _ _ s => s != 3
  | .aminu _ _ _ _ s => s != 3
  | .amaxu _ _ _ _ s => s != 3
  | .aswap _ _ _ _ s => s != 3
  | .acas _ _ _ _ s => s != 3
  | .xaddf _ _ _ => true
  | .xrd d _ _ => d != 0
  | .xclr _ => true
  | .cpy _ _ _ _ => true
  | .cpypop _ => true
  | .fold _ _ _ => true
  | .foldrd d k => d != 0 && k.val ≤ 1
  | .vadd r _ _ _ t => arithType r t
  | .vsub r _ _ _ t => arithType r t
  | .vmul r _ _ _ t => arithType r t
  | .vfma r _ _ _ t => arithType r t
  | .vmin r _ _ _ t => arithType r t
  | .vmax r _ _ _ t => arithType r t
  | .vcmpeq r d _ _ t => isP d && d != 0 && arithType r t
  | .vcmplt r d _ _ t => isP d && d != 0 && arithType r t
  | .vcmple r d _ _ t => isP d && d != 0 && arithType r t
  | .vredAdd r _ _ t => arithType r t
  | .vredMax r _ _ t => arithType r t
  | .vredMin r _ _ t => arithType r t
  | .vcvt r _ _ s t => cvtType r s t
  | .vdot r _ _ _ t => t == tBF || (r == 0 && (t == tI8 || t == tN8 || t == tI16 || t == tDP))
  | .vscale _ _ _ _ t => isFloat t
  | .vpack r _ _ _ t => t == tBF || t == tDP || (r == 0 && (t == tI8 || t == tN8 || t == tI16 || t == tN16 || t == tI32 || t == tN32))
  | .vabs _ _ t => t.val ≤ 3 || isFloat t
  | .vneg _ _ t => t.val ≤ 3 || isFloat t
  | .vand _ _ _ => true
  | .vor _ _ _ => true
  | .vxor _ _ _ => true
  | .vshl _ _ _ t => isInt t
  | .vshr _ _ _ t => isInt t
  | .vsha _ _ _ t => isInt t
  | .vsel _ _ _ p => p != 0
  | .vbcast _ _ t => hasLanes t
  | .vext d _ n t => d != 0 && hasLanes t && n.val < 256 / laneBits t
  | .vperm _ _ _ t => hasLanes t
  | .vshuf _ _ _ t => hasLanes t
  | .vrcp _ _ t => isFloat t
  | .vrsq _ _ t => isFloat t
  | .vexp2 _ _ t => isFloat t
  | .vmaxexp _ _ t => isFloat t
  | .vunpk _ _ h t => h.val ≤ 1 && (t == tI16 || t == tI32 || t == tI64 || t == tN16 || t == tN32 || t == tN64 || isFloat t)
  | .mxopen _ => true
  | .mxcfg _ _ => true
  | .mxpush _ _ => true
  | .mxpushm _ _ _ => true
  | .mxscl _ _ => true
  | .mxclose _ => true
  | .mxstat d _ => d != 0
  | .msetm _ => true
  | .skld d _ => d.val ≤ 3
  | .accz _ => true
  | .accrd v _ _ => v != 31
  | .accwr _ v _ => v != 31
  | .acccvt _ _ _ t => t == tBF || t == tI16 || t == tN16 || t == tI8 || t == tN8 || t == tDP
  | .semset d _ => d.val ≤ 15
  | .semadd d n => d.val ≤ 15 && n != 0
  | .semwait d n => d.val ≤ 15 && n != 0
  | .phreg _ _ m => m.val ≤ 2
  | .phdrop _ => true
  | .phsig _ _ => true
  | .phwait d _ _ => isP d
  | .phnext d _ => d != 0
  | .phaserRequest _ => true
  | .bar d => d.val ≤ 3
  | .bara _ a => a.val ≤ 3
  | .barw d a _ => isP d && a.val ≤ 3
  | .ratlineRelease _ _ _ => true
  | .vst _ _ _ => true
  | .vld d _ _ => d != 0
  | .vrecl _ _ => true
  | .vldResend _ _ => true
  | .fence d => d.val ≤ 5
  | .sysr d m n => d != 0 && sysAssigned (m.val * 32 + n.val)
  | .sysw _ m n => sysAssigned (m.val * 32 + n.val)
  | .trap _ _ => true
  | .brk => true
  | .wfi => true
  | .wfiWake _ _ => true
  | .retireWord => true
  | .retireS _ => true
  | .karg d n => d != 0 && n.val ≤ 15
  | .pfenceT => true
  | .pfenceG => true
  | .pstat d => d != 0
  | .pgate _ m => m.val ≤ 2
  | .tsend _ _ _ => true
  | .cntrd d _ => d != 0
  | .cntset _ _ => true
  | .send _ _ _ _ => true
  | .sendm _ _ _ _ => true
  | .msgid d => d != 0
  | .qpush _ p q => isP p && pushable q
  | .qpop _ p q => isP p && q.val ≤ 7
  | .qpeek _ p q => isP p && q.val ≤ 7
  | .qcnt d q => d != 0 && q.val ≤ 7
  | .qpushw _ q => pushable q
  | .qpopw _ q => q.val ≤ 7
  | .qwaitExpiry _ _ => true
  | .rpush _ p _ => isP p
  | .rpop _ p _ => isP p
  | .chblk _ _ => true
  | .chunb _ _ => true
  | .chmask _ k => k.val ≤ 1
  | .channelControlArrival _ => true
  | .seal _ _ => true
  | .unseal _ _ => true
  | .sealRequestArrival _ => true
  | .lgd d _ => d != 0
  | .sgd _ _ => true
  | .lgv _ _ => true
  | .sgv _ _ => true
  | .pusht _ _ _ => true
  | .pushBeatArrival _ => true
  | .tlbiH _ _ => true
  | .illW => true
  | .ill => true
  | .nop => true
  | .yield => true
  | .retire => true
  | .cAlu d _ _ => d != 0
  | .cAddi d _ => d != 0
  | .cLi d _ => d != 0
  | .cLd _ _ _ _ => true
  | .cB _ => true
  | .pfx p _ => p != 0
  | .messageArrival _ => true
  | .activationStart _ => true
  | .priorityAgeing _ => true
  | .outboxInject _ => true
  | .watchdogExpiry _ _ => true
  | .trapSequenceComplete _ _ => true
  | .remoteRecordArrival _ => true
  | .farRequestService _ => true
  | .caOperation _ => true
  | .farResponseArrival _ => true
  | .completionRound => true
  | .liveMigration _ _ => true
  | .quiescePoint _ _ => true
  | .vfifoLanding _ => true
  | .vfifoCreditReturn _ => true
  | .kStepConsume _ => true
  | .deliverySend _ => true
  | .deliveryApply _ => true
  | .deliveryAck _ => true
  | .copyCommandStart _ => true
  | .copyCompletion _ => true
  | .foldPerform _ => true
  | .launchDoorbell _ _ _ _ => true
  | .kernelRegister _ _ => true
  | .launchPlace _ _ => true
  | .launchLoadComplete _ => true
  | .launchAbort _ => true
  | .stationRequest _ => true
  | .tableWalkComplete _ => true
  | .hbmAccessComplete _ => true
  | .routerArbitration _ => true
  | .haltHoldDelivery _ => true
  | .spanFrameReceive _ _ => true
  | .spanLaneFail _ _ => true
  | .spanEnable _ => true
  | .spanTrainingDone _ _ => true
  | .spanTrainingTimeout _ => true
  | .spanPeerHalt _ => true
  | .spanPeerResume _ => true
  | .spanPeerLost _ => true
  | .spanDisable _ => true
  | .transferResend _ => true
  | .transferAck _ => true
  | .releaseNotice _ _ => true
  | .landingCount _ => true
  | .counterEngineCycle => true
  | .bridgeDegrade _ => true
  | .bridgeDown _ => true
  | .trickle _ => true
  | .commit _ => true
  | .commitComplete _ => true
  | .autoCommitInterval _ => true
  | .persistRequest _ => true
  | .powerLoss _ => true
  | .resume _ => true
  | .gateRequestAccept _ => true
  | .gateOff _ => true
  | .gateOn _ => true
  | .gateQuiesced _ => true
  | .sleepWake _ => true
  | .tileHalt _ => true
  | .eccRollback _ => true
  | .healthMigration _ _ => true
  | .sumacSession _ _ => true
  | .sumacSessionTimeout _ => true
  | .list _ => true
  | .setgrp _ _ _ _ => true
  | .stop _ _ _ => true
  | .sumacResume _ _ _ _ => true
  | .readctx _ _ _ => true
  | .readmem _ _ _ _ _ => true
  | .writemem _ _ _ _ _ => true
  | .readrec _ => true
  | .readglobal _ _ _ _ => true
  | .events _ => true
  | .intervalBoundary _ _ => true
  | .throttleWindow _ _ => true
  | .frameBoundary _ => true
  | .powerToken _ => true
  | .tokenExpiry => true
  | .moduleReset _ => true
  | .getMeasurements => true
  | .pidBindWrite _ _ _ => true
  | .tenantCreate _ _ => true
  | .tenantChange _ _ => true
  | .tenantDelete _ => true
  | .hostRegisterWrite _ _ _ => true
  | .pageTableWrite _ _ => true
  | .kernelUnregister _ => true
  | .powerReturnTimeout _ => true
  | .secondTierPortLost _ => true
  | .secondTierAccessComplete _ => true
  | .spanEngineDebugStop => true
  | .spanEngineDebugResume => true
  | .journalClear => true
  | .imageInstall _ _ _ _ => true

/-- The first encoding version that holds the instruction (R72). -/
def Instr.since : Instr → Nat
  | .add _ _ _ => 1
  | .sub _ _ _ => 1
  | .mul _ _ _ => 1
  | .mulh _ _ _ => 1
  | .mulhu _ _ _ => 1
  | .div _ _ _ => 1
  | .divu _ _ _ => 1
  | .rem _ _ _ => 1
  | .remu _ _ _ => 1
  | .and _ _ _ => 1
  | .or _ _ _ => 1
  | .xor _ _ _ => 1
  | .shl _ _ _ => 1
  | .shr _ _ _ => 1
  | .sha _ _ _ => 1
  | .min _ _ _ => 1
  | .max _ _ _ => 1
  | .minu _ _ _ => 1
  | .maxu _ _ _ => 1
  | .slt _ _ _ => 1
  | .sltu _ _ _ => 1
  | .seq _ _ _ => 1
  | .clz _ _ => 1
  | .ctz _ _ => 1
  | .popc _ _ => 1
  | .mov _ _ => 1
  | .sel _ _ _ _ => 1
  | .tileid _ => 1
  | .gaddr _ _ _ => 1
  | .widF _ _ _ => 1
  | .addi _ _ _ => 1
  | .andi _ _ _ => 1
  | .ori _ _ _ => 1
  | .xori _ _ _ => 1
  | .slti _ _ _ => 1
  | .li _ _ => 1
  | .lih _ _ _ => 1
  | .shli _ _ _ => 1
  | .shri _ _ _ => 1
  | .shai _ _ _ => 1
  | .bext _ _ _ _ => 1
  | .bins _ _ _ _ => 1
  | .jalr _ _ _ => 1
  | .loop _ _ _ => 1
  | .loopi _ _ _ => 1
  | .pset _ _ => 1
  | .pand _ _ _ => 1
  | .por _ _ _ => 1
  | .pxor _ _ _ => 1
  | .pnot _ _ => 1
  | .ldPostinc _ _ _ _ => 1
  | .ldI8 _ _ _ => 1
  | .ldN8 _ _ _ => 1
  | .ldI16 _ _ _ => 1
  | .ldN16 _ _ _ => 1
  | .ldI32 _ _ _ => 1
  | .ldN32 _ _ _ => 1
  | .ldI64 _ _ _ => 1
  | .st8 _ _ _ => 1
  | .st16 _ _ _ => 1
  | .st32 _ _ _ => 1
  | .st64 _ _ _ => 1
  | .lv _ _ _ => 1
  | .sv _ _ _ => 1
  | .stPostinc _ _ _ _ => 1
  | .lvs _ _ _ _ => 1
  | .lvg _ _ _ _ => 1
  | .svx _ _ _ _ => 1
  | .beq _ _ _ => 1
  | .bne _ _ _ => 1
  | .blt _ _ _ => 1
  | .bge _ _ _ => 1
  | .bltu _ _ _ => 1
  | .bgeu _ _ _ => 1
  | .bp _ _ => 1
  | .bnp _ _ => 1
  | .j _ => 1
  | .jal _ => 1
  | .ldf32 _ _ _ => 1
  | .ldf64 _ _ _ => 1
  | .stf32 _ _ _ => 1
  | .stf64 _ _ _ => 1
  | .lvf _ _ _ => 1
  | .svf _ _ _ => 1
  | .aadd _ _ _ _ _ => 1
  | .aand _ _ _ _ _ => 1
  | .aor _ _ _ _ _ => 1
  | .axor _ _ _ _ _ => 1
  | .amin _ _ _ _ _ => 1
  | .amax _ _ _ _ _ => 1
  | .aminu _ _ _ _ _ => 1
  | .amaxu _ _ _ _ _ => 1
  | .aswap _ _ _ _ _ => 1
  | .acas _ _ _ _ _ => 1
  | .xaddf _ _ _ => 1
  | .xrd _ _ _ => 1
  | .xclr _ => 1
  | .cpy _ _ _ _ => 1
  | .cpypop _ => 1
  | .fold _ _ _ => 1
  | .foldrd _ _ => 1
  | .vadd _ _ _ _ _ => 1
  | .vsub _ _ _ _ _ => 1
  | .vmul _ _ _ _ _ => 1
  | .vfma _ _ _ _ _ => 1
  | .vmin _ _ _ _ _ => 1
  | .vmax _ _ _ _ _ => 1
  | .vcmpeq _ _ _ _ _ => 1
  | .vcmplt _ _ _ _ _ => 1
  | .vcmple _ _ _ _ _ => 1
  | .vredAdd _ _ _ _ => 1
  | .vredMax _ _ _ _ => 1
  | .vredMin _ _ _ _ => 1
  | .vcvt _ _ _ _ _ => 1
  | .vdot _ _ _ _ _ => 1
  | .vscale _ _ _ _ _ => 1
  | .vpack _ _ _ _ _ => 1
  | .vabs _ _ _ => 1
  | .vneg _ _ _ => 1
  | .vand _ _ _ => 1
  | .vor _ _ _ => 1
  | .vxor _ _ _ => 1
  | .vshl _ _ _ _ => 1
  | .vshr _ _ _ _ => 1
  | .vsha _ _ _ _ => 1
  | .vsel _ _ _ _ => 1
  | .vbcast _ _ _ => 1
  | .vext _ _ _ _ => 1
  | .vperm _ _ _ _ => 1
  | .vshuf _ _ _ _ => 1
  | .vrcp _ _ _ => 2
  | .vrsq _ _ _ => 2
  | .vexp2 _ _ _ => 2
  | .vmaxexp _ _ _ => 3
  | .vunpk _ _ _ _ => 3
  | .mxopen _ => 1
  | .mxcfg _ _ => 1
  | .mxpush _ _ => 1
  | .mxpushm _ _ _ => 1
  | .mxscl _ _ => 1
  | .mxclose _ => 1
  | .mxstat _ _ => 1
  | .msetm _ => 1
  | .skld _ _ => 1
  | .accz _ => 1
  | .accrd _ _ _ => 1
  | .accwr _ _ _ => 1
  | .acccvt _ _ _ _ => 1
  | .semset _ _ => 1
  | .semadd _ _ => 1
  | .semwait _ _ => 1
  | .phreg _ _ _ => 1
  | .phdrop _ => 1
  | .phsig _ _ => 1
  | .phwait _ _ _ => 1
  | .phnext _ _ => 1
  | .phaserRequest _ => 1
  | .bar _ => 1
  | .bara _ _ => 1
  | .barw _ _ _ => 1
  | .ratlineRelease _ _ _ => 1
  | .vst _ _ _ => 2
  | .vld _ _ _ => 2
  | .vrecl _ _ => 2
  | .vldResend _ _ => 1
  | .fence _ => 1
  | .sysr _ _ _ => 1
  | .sysw _ _ _ => 1
  | .trap _ _ => 1
  | .brk => 1
  | .wfi => 1
  | .wfiWake _ _ => 1
  | .retireWord => 1
  | .retireS _ => 2
  | .karg _ _ => 1
  | .pfenceT => 1
  | .pfenceG => 2
  | .pstat _ => 1
  | .pgate _ _ => 2
  | .tsend _ _ _ => 1
  | .cntrd _ _ => 1
  | .cntset _ _ => 1
  | .send _ _ _ _ => 1
  | .sendm _ _ _ _ => 1
  | .msgid _ => 1
  | .qpush _ _ _ => 1
  | .qpop _ _ _ => 1
  | .qpeek _ _ _ => 1
  | .qcnt _ _ => 1
  | .qpushw _ _ => 1
  | .qpopw _ _ => 1
  | .qwaitExpiry _ _ => 1
  | .rpush _ _ _ => 1
  | .rpop _ _ _ => 1
  | .chblk _ _ => 1
  | .chunb _ _ => 1
  | .chmask _ _ => 1
  | .channelControlArrival _ => 1
  | .seal _ _ => 1
  | .unseal _ _ => 1
  | .sealRequestArrival _ => 1
  | .lgd _ _ => 1
  | .sgd _ _ => 1
  | .lgv _ _ => 1
  | .sgv _ _ => 1
  | .pusht _ _ _ => 1
  | .pushBeatArrival _ => 1
  | .tlbiH _ _ => 1
  | .illW => 1
  | .ill => 1
  | .nop => 1
  | .yield => 1
  | .retire => 1
  | .cAlu _ _ _ => 1
  | .cAddi _ _ => 1
  | .cLi _ _ => 1
  | .cLd _ _ _ _ => 1
  | .cB _ => 1
  | .pfx _ _ => 2
  | .messageArrival _ => 1
  | .activationStart _ => 1
  | .priorityAgeing _ => 1
  | .outboxInject _ => 1
  | .watchdogExpiry _ _ => 1
  | .trapSequenceComplete _ _ => 1
  | .remoteRecordArrival _ => 1
  | .farRequestService _ => 1
  | .caOperation _ => 1
  | .farResponseArrival _ => 1
  | .completionRound => 1
  | .liveMigration _ _ => 1
  | .quiescePoint _ _ => 1
  | .vfifoLanding _ => 1
  | .vfifoCreditReturn _ => 1
  | .kStepConsume _ => 1
  | .deliverySend _ => 1
  | .deliveryApply _ => 1
  | .deliveryAck _ => 1
  | .copyCommandStart _ => 1
  | .copyCompletion _ => 1
  | .foldPerform _ => 1
  | .launchDoorbell _ _ _ _ => 1
  | .kernelRegister _ _ => 1
  | .launchPlace _ _ => 1
  | .launchLoadComplete _ => 1
  | .launchAbort _ => 1
  | .stationRequest _ => 1
  | .tableWalkComplete _ => 1
  | .hbmAccessComplete _ => 1
  | .routerArbitration _ => 1
  | .haltHoldDelivery _ => 1
  | .spanFrameReceive _ _ => 1
  | .spanLaneFail _ _ => 1
  | .spanEnable _ => 1
  | .spanTrainingDone _ _ => 1
  | .spanTrainingTimeout _ => 1
  | .spanPeerHalt _ => 1
  | .spanPeerResume _ => 1
  | .spanPeerLost _ => 1
  | .spanDisable _ => 1
  | .transferResend _ => 1
  | .transferAck _ => 1
  | .releaseNotice _ _ => 1
  | .landingCount _ => 1
  | .counterEngineCycle => 1
  | .bridgeDegrade _ => 1
  | .bridgeDown _ => 1
  | .trickle _ => 1
  | .commit _ => 1
  | .commitComplete _ => 1
  | .autoCommitInterval _ => 1
  | .persistRequest _ => 1
  | .powerLoss _ => 1
  | .resume _ => 1
  | .gateRequestAccept _ => 1
  | .gateOff _ => 1
  | .gateOn _ => 1
  | .gateQuiesced _ => 1
  | .sleepWake _ => 1
  | .tileHalt _ => 1
  | .eccRollback _ => 1
  | .healthMigration _ _ => 1
  | .sumacSession _ _ => 1
  | .sumacSessionTimeout _ => 1
  | .list _ => 1
  | .setgrp _ _ _ _ => 1
  | .stop _ _ _ => 1
  | .sumacResume _ _ _ _ => 1
  | .readctx _ _ _ => 1
  | .readmem _ _ _ _ _ => 1
  | .writemem _ _ _ _ _ => 1
  | .readrec _ => 1
  | .readglobal _ _ _ _ => 1
  | .events _ => 1
  | .intervalBoundary _ _ => 1
  | .throttleWindow _ _ => 1
  | .frameBoundary _ => 1
  | .powerToken _ => 1
  | .tokenExpiry => 1
  | .moduleReset _ => 1
  | .getMeasurements => 1
  | .pidBindWrite _ _ _ => 1
  | .tenantCreate _ _ => 1
  | .tenantChange _ _ => 1
  | .tenantDelete _ => 1
  | .hostRegisterWrite _ _ _ => 1
  | .pageTableWrite _ _ => 1
  | .kernelUnregister _ => 1
  | .powerReturnTimeout _ => 1
  | .secondTierPortLost _ => 1
  | .secondTierAccessComplete _ => 1
  | .spanEngineDebugStop => 1
  | .spanEngineDebugResume => 1
  | .journalClear => 1
  | .imageInstall _ _ _ _ => 1

/-- The halyard extension (R263, R264): tile decoders hold none of it. -/
def Instr.halyard : Instr → Bool
  | .add _ _ _ => false
  | .sub _ _ _ => false
  | .mul _ _ _ => false
  | .mulh _ _ _ => false
  | .mulhu _ _ _ => false
  | .div _ _ _ => false
  | .divu _ _ _ => false
  | .rem _ _ _ => false
  | .remu _ _ _ => false
  | .and _ _ _ => false
  | .or _ _ _ => false
  | .xor _ _ _ => false
  | .shl _ _ _ => false
  | .shr _ _ _ => false
  | .sha _ _ _ => false
  | .min _ _ _ => false
  | .max _ _ _ => false
  | .minu _ _ _ => false
  | .maxu _ _ _ => false
  | .slt _ _ _ => false
  | .sltu _ _ _ => false
  | .seq _ _ _ => false
  | .clz _ _ => false
  | .ctz _ _ => false
  | .popc _ _ => false
  | .mov _ _ => false
  | .sel _ _ _ _ => false
  | .tileid _ => false
  | .gaddr _ _ _ => false
  | .widF _ _ _ => false
  | .addi _ _ _ => false
  | .andi _ _ _ => false
  | .ori _ _ _ => false
  | .xori _ _ _ => false
  | .slti _ _ _ => false
  | .li _ _ => false
  | .lih _ _ _ => false
  | .shli _ _ _ => false
  | .shri _ _ _ => false
  | .shai _ _ _ => false
  | .bext _ _ _ _ => false
  | .bins _ _ _ _ => false
  | .jalr _ _ _ => false
  | .loop _ _ _ => false
  | .loopi _ _ _ => false
  | .pset _ _ => false
  | .pand _ _ _ => false
  | .por _ _ _ => false
  | .pxor _ _ _ => false
  | .pnot _ _ => false
  | .ldPostinc _ _ _ _ => false
  | .ldI8 _ _ _ => false
  | .ldN8 _ _ _ => false
  | .ldI16 _ _ _ => false
  | .ldN16 _ _ _ => false
  | .ldI32 _ _ _ => false
  | .ldN32 _ _ _ => false
  | .ldI64 _ _ _ => false
  | .st8 _ _ _ => false
  | .st16 _ _ _ => false
  | .st32 _ _ _ => false
  | .st64 _ _ _ => false
  | .lv _ _ _ => false
  | .sv _ _ _ => false
  | .stPostinc _ _ _ _ => false
  | .lvs _ _ _ _ => false
  | .lvg _ _ _ _ => false
  | .svx _ _ _ _ => false
  | .beq _ _ _ => false
  | .bne _ _ _ => false
  | .blt _ _ _ => false
  | .bge _ _ _ => false
  | .bltu _ _ _ => false
  | .bgeu _ _ _ => false
  | .bp _ _ => false
  | .bnp _ _ => false
  | .j _ => false
  | .jal _ => false
  | .ldf32 _ _ _ => false
  | .ldf64 _ _ _ => false
  | .stf32 _ _ _ => false
  | .stf64 _ _ _ => false
  | .lvf _ _ _ => false
  | .svf _ _ _ => false
  | .aadd _ _ _ _ _ => false
  | .aand _ _ _ _ _ => false
  | .aor _ _ _ _ _ => false
  | .axor _ _ _ _ _ => false
  | .amin _ _ _ _ _ => false
  | .amax _ _ _ _ _ => false
  | .aminu _ _ _ _ _ => false
  | .amaxu _ _ _ _ _ => false
  | .aswap _ _ _ _ _ => false
  | .acas _ _ _ _ _ => false
  | .xaddf _ _ _ => false
  | .xrd _ _ _ => false
  | .xclr _ => false
  | .cpy _ _ _ _ => false
  | .cpypop _ => false
  | .fold _ _ _ => false
  | .foldrd _ _ => false
  | .vadd _ _ _ _ _ => false
  | .vsub _ _ _ _ _ => false
  | .vmul _ _ _ _ _ => false
  | .vfma _ _ _ _ _ => false
  | .vmin _ _ _ _ _ => false
  | .vmax _ _ _ _ _ => false
  | .vcmpeq _ _ _ _ _ => false
  | .vcmplt _ _ _ _ _ => false
  | .vcmple _ _ _ _ _ => false
  | .vredAdd _ _ _ _ => false
  | .vredMax _ _ _ _ => false
  | .vredMin _ _ _ _ => false
  | .vcvt _ _ _ _ _ => false
  | .vdot _ _ _ _ _ => false
  | .vscale _ _ _ _ _ => false
  | .vpack _ _ _ _ _ => false
  | .vabs _ _ _ => false
  | .vneg _ _ _ => false
  | .vand _ _ _ => false
  | .vor _ _ _ => false
  | .vxor _ _ _ => false
  | .vshl _ _ _ _ => false
  | .vshr _ _ _ _ => false
  | .vsha _ _ _ _ => false
  | .vsel _ _ _ _ => false
  | .vbcast _ _ _ => false
  | .vext _ _ _ _ => false
  | .vperm _ _ _ _ => false
  | .vshuf _ _ _ _ => false
  | .vrcp _ _ _ => false
  | .vrsq _ _ _ => false
  | .vexp2 _ _ _ => false
  | .vmaxexp _ _ _ => false
  | .vunpk _ _ _ _ => false
  | .mxopen _ => false
  | .mxcfg _ _ => false
  | .mxpush _ _ => false
  | .mxpushm _ _ _ => false
  | .mxscl _ _ => false
  | .mxclose _ => false
  | .mxstat _ _ => false
  | .msetm _ => false
  | .skld _ _ => false
  | .accz _ => false
  | .accrd _ _ _ => false
  | .accwr _ _ _ => false
  | .acccvt _ _ _ _ => false
  | .semset _ _ => false
  | .semadd _ _ => false
  | .semwait _ _ => false
  | .phreg _ _ _ => false
  | .phdrop _ => false
  | .phsig _ _ => false
  | .phwait _ _ _ => false
  | .phnext _ _ => false
  | .phaserRequest _ => false
  | .bar _ => false
  | .bara _ _ => false
  | .barw _ _ _ => false
  | .ratlineRelease _ _ _ => false
  | .vst _ _ _ => false
  | .vld _ _ _ => false
  | .vrecl _ _ => false
  | .vldResend _ _ => false
  | .fence _ => false
  | .sysr _ _ _ => false
  | .sysw _ _ _ => false
  | .trap _ _ => false
  | .brk => false
  | .wfi => false
  | .wfiWake _ _ => false
  | .retireWord => false
  | .retireS _ => false
  | .karg _ _ => false
  | .pfenceT => false
  | .pfenceG => false
  | .pstat _ => false
  | .pgate _ _ => false
  | .tsend _ _ _ => false
  | .cntrd _ _ => false
  | .cntset _ _ => false
  | .send _ _ _ _ => false
  | .sendm _ _ _ _ => false
  | .msgid _ => false
  | .qpush _ _ _ => false
  | .qpop _ _ _ => false
  | .qpeek _ _ _ => false
  | .qcnt _ _ => false
  | .qpushw _ _ => false
  | .qpopw _ _ => false
  | .qwaitExpiry _ _ => false
  | .rpush _ _ _ => false
  | .rpop _ _ _ => false
  | .chblk _ _ => false
  | .chunb _ _ => false
  | .chmask _ _ => false
  | .channelControlArrival _ => false
  | .seal _ _ => false
  | .unseal _ _ => false
  | .sealRequestArrival _ => false
  | .lgd _ _ => true
  | .sgd _ _ => true
  | .lgv _ _ => true
  | .sgv _ _ => true
  | .pusht _ _ _ => true
  | .pushBeatArrival _ => false
  | .tlbiH _ _ => false
  | .illW => false
  | .ill => false
  | .nop => false
  | .yield => false
  | .retire => false
  | .cAlu _ _ _ => false
  | .cAddi _ _ => false
  | .cLi _ _ => false
  | .cLd _ _ _ _ => false
  | .cB _ => false
  | .pfx _ _ => false
  | .messageArrival _ => false
  | .activationStart _ => false
  | .priorityAgeing _ => false
  | .outboxInject _ => false
  | .watchdogExpiry _ _ => false
  | .trapSequenceComplete _ _ => false
  | .remoteRecordArrival _ => false
  | .farRequestService _ => false
  | .caOperation _ => false
  | .farResponseArrival _ => false
  | .completionRound => false
  | .liveMigration _ _ => false
  | .quiescePoint _ _ => false
  | .vfifoLanding _ => false
  | .vfifoCreditReturn _ => false
  | .kStepConsume _ => false
  | .deliverySend _ => false
  | .deliveryApply _ => false
  | .deliveryAck _ => false
  | .copyCommandStart _ => false
  | .copyCompletion _ => false
  | .foldPerform _ => false
  | .launchDoorbell _ _ _ _ => false
  | .kernelRegister _ _ => false
  | .launchPlace _ _ => false
  | .launchLoadComplete _ => false
  | .launchAbort _ => false
  | .stationRequest _ => false
  | .tableWalkComplete _ => false
  | .hbmAccessComplete _ => false
  | .routerArbitration _ => false
  | .haltHoldDelivery _ => false
  | .spanFrameReceive _ _ => false
  | .spanLaneFail _ _ => false
  | .spanEnable _ => false
  | .spanTrainingDone _ _ => false
  | .spanTrainingTimeout _ => false
  | .spanPeerHalt _ => false
  | .spanPeerResume _ => false
  | .spanPeerLost _ => false
  | .spanDisable _ => false
  | .transferResend _ => false
  | .transferAck _ => false
  | .releaseNotice _ _ => false
  | .landingCount _ => false
  | .counterEngineCycle => false
  | .bridgeDegrade _ => false
  | .bridgeDown _ => false
  | .trickle _ => false
  | .commit _ => false
  | .commitComplete _ => false
  | .autoCommitInterval _ => false
  | .persistRequest _ => false
  | .powerLoss _ => false
  | .resume _ => false
  | .gateRequestAccept _ => false
  | .gateOff _ => false
  | .gateOn _ => false
  | .gateQuiesced _ => false
  | .sleepWake _ => false
  | .tileHalt _ => false
  | .eccRollback _ => false
  | .healthMigration _ _ => false
  | .sumacSession _ _ => false
  | .sumacSessionTimeout _ => false
  | .list _ => false
  | .setgrp _ _ _ _ => false
  | .stop _ _ _ => false
  | .sumacResume _ _ _ _ => false
  | .readctx _ _ _ => false
  | .readmem _ _ _ _ _ => false
  | .writemem _ _ _ _ _ => false
  | .readrec _ => false
  | .readglobal _ _ _ _ => false
  | .events _ => false
  | .intervalBoundary _ _ => false
  | .throttleWindow _ _ => false
  | .frameBoundary _ => false
  | .powerToken _ => false
  | .tokenExpiry => false
  | .moduleReset _ => false
  | .getMeasurements => false
  | .pidBindWrite _ _ _ => false
  | .tenantCreate _ _ => false
  | .tenantChange _ _ => false
  | .tenantDelete _ => false
  | .hostRegisterWrite _ _ _ => false
  | .pageTableWrite _ _ => false
  | .kernelUnregister _ => false
  | .powerReturnTimeout _ => false
  | .secondTierPortLost _ => false
  | .secondTierAccessComplete _ => false
  | .spanEngineDebugStop => false
  | .spanEngineDebugResume => false
  | .journalClear => false
  | .imageInstall _ _ _ _ => false

/-- Bytes of the encoding: 2 for the compact classes, 4 for the others, 0 for an event (R47). -/
def Instr.size : Instr → Nat
  | .add _ _ _ => 4
  | .sub _ _ _ => 4
  | .mul _ _ _ => 4
  | .mulh _ _ _ => 4
  | .mulhu _ _ _ => 4
  | .div _ _ _ => 4
  | .divu _ _ _ => 4
  | .rem _ _ _ => 4
  | .remu _ _ _ => 4
  | .and _ _ _ => 4
  | .or _ _ _ => 4
  | .xor _ _ _ => 4
  | .shl _ _ _ => 4
  | .shr _ _ _ => 4
  | .sha _ _ _ => 4
  | .min _ _ _ => 4
  | .max _ _ _ => 4
  | .minu _ _ _ => 4
  | .maxu _ _ _ => 4
  | .slt _ _ _ => 4
  | .sltu _ _ _ => 4
  | .seq _ _ _ => 4
  | .clz _ _ => 4
  | .ctz _ _ => 4
  | .popc _ _ => 4
  | .mov _ _ => 4
  | .sel _ _ _ _ => 4
  | .tileid _ => 4
  | .gaddr _ _ _ => 4
  | .widF _ _ _ => 4
  | .addi _ _ _ => 4
  | .andi _ _ _ => 4
  | .ori _ _ _ => 4
  | .xori _ _ _ => 4
  | .slti _ _ _ => 4
  | .li _ _ => 4
  | .lih _ _ _ => 4
  | .shli _ _ _ => 4
  | .shri _ _ _ => 4
  | .shai _ _ _ => 4
  | .bext _ _ _ _ => 4
  | .bins _ _ _ _ => 4
  | .jalr _ _ _ => 4
  | .loop _ _ _ => 4
  | .loopi _ _ _ => 4
  | .pset _ _ => 4
  | .pand _ _ _ => 4
  | .por _ _ _ => 4
  | .pxor _ _ _ => 4
  | .pnot _ _ => 4
  | .ldPostinc _ _ _ _ => 4
  | .ldI8 _ _ _ => 4
  | .ldN8 _ _ _ => 4
  | .ldI16 _ _ _ => 4
  | .ldN16 _ _ _ => 4
  | .ldI32 _ _ _ => 4
  | .ldN32 _ _ _ => 4
  | .ldI64 _ _ _ => 4
  | .st8 _ _ _ => 4
  | .st16 _ _ _ => 4
  | .st32 _ _ _ => 4
  | .st64 _ _ _ => 4
  | .lv _ _ _ => 4
  | .sv _ _ _ => 4
  | .stPostinc _ _ _ _ => 4
  | .lvs _ _ _ _ => 4
  | .lvg _ _ _ _ => 4
  | .svx _ _ _ _ => 4
  | .beq _ _ _ => 4
  | .bne _ _ _ => 4
  | .blt _ _ _ => 4
  | .bge _ _ _ => 4
  | .bltu _ _ _ => 4
  | .bgeu _ _ _ => 4
  | .bp _ _ => 4
  | .bnp _ _ => 4
  | .j _ => 4
  | .jal _ => 4
  | .ldf32 _ _ _ => 4
  | .ldf64 _ _ _ => 4
  | .stf32 _ _ _ => 4
  | .stf64 _ _ _ => 4
  | .lvf _ _ _ => 4
  | .svf _ _ _ => 4
  | .aadd _ _ _ _ _ => 4
  | .aand _ _ _ _ _ => 4
  | .aor _ _ _ _ _ => 4
  | .axor _ _ _ _ _ => 4
  | .amin _ _ _ _ _ => 4
  | .amax _ _ _ _ _ => 4
  | .aminu _ _ _ _ _ => 4
  | .amaxu _ _ _ _ _ => 4
  | .aswap _ _ _ _ _ => 4
  | .acas _ _ _ _ _ => 4
  | .xaddf _ _ _ => 4
  | .xrd _ _ _ => 4
  | .xclr _ => 4
  | .cpy _ _ _ _ => 4
  | .cpypop _ => 4
  | .fold _ _ _ => 4
  | .foldrd _ _ => 4
  | .vadd _ _ _ _ _ => 4
  | .vsub _ _ _ _ _ => 4
  | .vmul _ _ _ _ _ => 4
  | .vfma _ _ _ _ _ => 4
  | .vmin _ _ _ _ _ => 4
  | .vmax _ _ _ _ _ => 4
  | .vcmpeq _ _ _ _ _ => 4
  | .vcmplt _ _ _ _ _ => 4
  | .vcmple _ _ _ _ _ => 4
  | .vredAdd _ _ _ _ => 4
  | .vredMax _ _ _ _ => 4
  | .vredMin _ _ _ _ => 4
  | .vcvt _ _ _ _ _ => 4
  | .vdot _ _ _ _ _ => 4
  | .vscale _ _ _ _ _ => 4
  | .vpack _ _ _ _ _ => 4
  | .vabs _ _ _ => 4
  | .vneg _ _ _ => 4
  | .vand _ _ _ => 4
  | .vor _ _ _ => 4
  | .vxor _ _ _ => 4
  | .vshl _ _ _ _ => 4
  | .vshr _ _ _ _ => 4
  | .vsha _ _ _ _ => 4
  | .vsel _ _ _ _ => 4
  | .vbcast _ _ _ => 4
  | .vext _ _ _ _ => 4
  | .vperm _ _ _ _ => 4
  | .vshuf _ _ _ _ => 4
  | .vrcp _ _ _ => 4
  | .vrsq _ _ _ => 4
  | .vexp2 _ _ _ => 4
  | .vmaxexp _ _ _ => 4
  | .vunpk _ _ _ _ => 4
  | .mxopen _ => 4
  | .mxcfg _ _ => 4
  | .mxpush _ _ => 4
  | .mxpushm _ _ _ => 4
  | .mxscl _ _ => 4
  | .mxclose _ => 4
  | .mxstat _ _ => 4
  | .msetm _ => 4
  | .skld _ _ => 4
  | .accz _ => 4
  | .accrd _ _ _ => 4
  | .accwr _ _ _ => 4
  | .acccvt _ _ _ _ => 4
  | .semset _ _ => 4
  | .semadd _ _ => 4
  | .semwait _ _ => 4
  | .phreg _ _ _ => 4
  | .phdrop _ => 4
  | .phsig _ _ => 4
  | .phwait _ _ _ => 4
  | .phnext _ _ => 4
  | .phaserRequest _ => 0
  | .bar _ => 4
  | .bara _ _ => 4
  | .barw _ _ _ => 4
  | .ratlineRelease _ _ _ => 0
  | .vst _ _ _ => 4
  | .vld _ _ _ => 4
  | .vrecl _ _ => 4
  | .vldResend _ _ => 0
  | .fence _ => 4
  | .sysr _ _ _ => 4
  | .sysw _ _ _ => 4
  | .trap _ _ => 4
  | .brk => 4
  | .wfi => 4
  | .wfiWake _ _ => 0
  | .retireWord => 4
  | .retireS _ => 4
  | .karg _ _ => 4
  | .pfenceT => 4
  | .pfenceG => 4
  | .pstat _ => 4
  | .pgate _ _ => 4
  | .tsend _ _ _ => 4
  | .cntrd _ _ => 4
  | .cntset _ _ => 4
  | .send _ _ _ _ => 4
  | .sendm _ _ _ _ => 4
  | .msgid _ => 4
  | .qpush _ _ _ => 4
  | .qpop _ _ _ => 4
  | .qpeek _ _ _ => 4
  | .qcnt _ _ => 4
  | .qpushw _ _ => 4
  | .qpopw _ _ => 4
  | .qwaitExpiry _ _ => 0
  | .rpush _ _ _ => 4
  | .rpop _ _ _ => 4
  | .chblk _ _ => 4
  | .chunb _ _ => 4
  | .chmask _ _ => 4
  | .channelControlArrival _ => 0
  | .seal _ _ => 4
  | .unseal _ _ => 4
  | .sealRequestArrival _ => 0
  | .lgd _ _ => 4
  | .sgd _ _ => 4
  | .lgv _ _ => 4
  | .sgv _ _ => 4
  | .pusht _ _ _ => 4
  | .pushBeatArrival _ => 0
  | .tlbiH _ _ => 4
  | .illW => 4
  | .ill => 2
  | .nop => 2
  | .yield => 2
  | .retire => 2
  | .cAlu _ _ _ => 2
  | .cAddi _ _ => 2
  | .cLi _ _ => 2
  | .cLd _ _ _ _ => 2
  | .cB _ => 2
  | .pfx _ _ => 2
  | .messageArrival _ => 0
  | .activationStart _ => 0
  | .priorityAgeing _ => 0
  | .outboxInject _ => 0
  | .watchdogExpiry _ _ => 0
  | .trapSequenceComplete _ _ => 0
  | .remoteRecordArrival _ => 0
  | .farRequestService _ => 0
  | .caOperation _ => 0
  | .farResponseArrival _ => 0
  | .completionRound => 0
  | .liveMigration _ _ => 0
  | .quiescePoint _ _ => 0
  | .vfifoLanding _ => 0
  | .vfifoCreditReturn _ => 0
  | .kStepConsume _ => 0
  | .deliverySend _ => 0
  | .deliveryApply _ => 0
  | .deliveryAck _ => 0
  | .copyCommandStart _ => 0
  | .copyCompletion _ => 0
  | .foldPerform _ => 0
  | .launchDoorbell _ _ _ _ => 0
  | .kernelRegister _ _ => 0
  | .launchPlace _ _ => 0
  | .launchLoadComplete _ => 0
  | .launchAbort _ => 0
  | .stationRequest _ => 0
  | .tableWalkComplete _ => 0
  | .hbmAccessComplete _ => 0
  | .routerArbitration _ => 0
  | .haltHoldDelivery _ => 0
  | .spanFrameReceive _ _ => 0
  | .spanLaneFail _ _ => 0
  | .spanEnable _ => 0
  | .spanTrainingDone _ _ => 0
  | .spanTrainingTimeout _ => 0
  | .spanPeerHalt _ => 0
  | .spanPeerResume _ => 0
  | .spanPeerLost _ => 0
  | .spanDisable _ => 0
  | .transferResend _ => 0
  | .transferAck _ => 0
  | .releaseNotice _ _ => 0
  | .landingCount _ => 0
  | .counterEngineCycle => 0
  | .bridgeDegrade _ => 0
  | .bridgeDown _ => 0
  | .trickle _ => 0
  | .commit _ => 0
  | .commitComplete _ => 0
  | .autoCommitInterval _ => 0
  | .persistRequest _ => 0
  | .powerLoss _ => 0
  | .resume _ => 0
  | .gateRequestAccept _ => 0
  | .gateOff _ => 0
  | .gateOn _ => 0
  | .gateQuiesced _ => 0
  | .sleepWake _ => 0
  | .tileHalt _ => 0
  | .eccRollback _ => 0
  | .healthMigration _ _ => 0
  | .sumacSession _ _ => 0
  | .sumacSessionTimeout _ => 0
  | .list _ => 0
  | .setgrp _ _ _ _ => 0
  | .stop _ _ _ => 0
  | .sumacResume _ _ _ _ => 0
  | .readctx _ _ _ => 0
  | .readmem _ _ _ _ _ => 0
  | .writemem _ _ _ _ _ => 0
  | .readrec _ => 0
  | .readglobal _ _ _ _ => 0
  | .events _ => 0
  | .intervalBoundary _ _ => 0
  | .throttleWindow _ _ => 0
  | .frameBoundary _ => 0
  | .powerToken _ => 0
  | .tokenExpiry => 0
  | .moduleReset _ => 0
  | .getMeasurements => 0
  | .pidBindWrite _ _ _ => 0
  | .tenantCreate _ _ => 0
  | .tenantChange _ _ => 0
  | .tenantDelete _ => 0
  | .hostRegisterWrite _ _ _ => 0
  | .pageTableWrite _ _ => 0
  | .kernelUnregister _ => 0
  | .powerReturnTimeout _ => 0
  | .secondTierPortLost _ => 0
  | .secondTierAccessComplete _ => 0
  | .spanEngineDebugStop => 0
  | .spanEngineDebugResume => 0
  | .journalClear => 0
  | .imageInstall _ _ _ _ => 0

end Sys2Proof
end

