-- ==== Sys2Proof/Decode.lean ====
section
/-! DEFINITION. The decoder and the encoder, both from the encoding tables of R47 to R72. The decoder is total: a word that
is no instruction, or whose fields the rules of R51 and R52 refuse, gives none. -/

namespace Sys2Proof

/-- Field of n bits from bit lo (R2). -/
def fld (w lo n : Nat) : Nat := w / 2 ^ lo % 2 ^ n

def fin1 (w lo : Nat) : Fin 2 := ⟨w / 2 ^ lo % 2, by omega⟩
def fin2 (w lo : Nat) : Fin 4 := ⟨w / 2 ^ lo % 4, by omega⟩
def fin3 (w lo : Nat) : Fin 8 := ⟨w / 2 ^ lo % 8, by omega⟩
def fin4 (w lo : Nat) : Fin 16 := ⟨w / 2 ^ lo % 16, by omega⟩
def fin5 (w lo : Nat) : Fin 32 := ⟨w / 2 ^ lo % 32, by omega⟩
def fin6 (w lo : Nat) : Fin 64 := ⟨w / 2 ^ lo % 64, by omega⟩

/-- Decoding of the ALU functions (R58). -/
def decAlu (w : Nat) : Option Instr :=
  if fld w 24 8 = 0x0 then some (.add (fin5 w 9) (fin5 w 14) (fin5 w 19))
  else if fld w 24 8 = 0x1 then some (.sub (fin5 w 9) (fin5 w 14) (fin5 w 19))
  else if fld w 24 8 = 0x2 then some (.mul (fin5 w 9) (fin5 w 14) (fin5 w 19))
  else if fld w 24 8 = 0x3 then some (.mulh (fin5 w 9) (fin5 w 14) (fin5 w 19))
  else if fld w 24 8 = 0x4 then some (.mulhu (fin5 w 9) (fin5 w 14) (fin5 w 19))
  else if fld w 24 8 = 0x5 then some (.div (fin5 w 9) (fin5 w 14) (fin5 w 19))
  else if fld w 24 8 = 0x6 then some (.divu (fin5 w 9) (fin5 w 14) (fin5 w 19))
  else if fld w 24 8 = 0x7 then some (.rem (fin5 w 9) (fin5 w 14) (fin5 w 19))
  else if fld w 24 8 = 0x8 then some (.remu (fin5 w 9) (fin5 w 14) (fin5 w 19))
  else if fld w 24 8 = 0x10 then some (.and (fin5 w 9) (fin5 w 14) (fin5 w 19))
  else if fld w 24 8 = 0x11 then some (.or (fin5 w 9) (fin5 w 14) (fin5 w 19))
  else if fld w 24 8 = 0x12 then some (.xor (fin5 w 9) (fin5 w 14) (fin5 w 19))
  else if fld w 24 8 = 0x18 then some (.shl (fin5 w 9) (fin5 w 14) (fin5 w 19))
  else if fld w 24 8 = 0x19 then some (.shr (fin5 w 9) (fin5 w 14) (fin5 w 19))
  else if fld w 24 8 = 0x1a then some (.sha (fin5 w 9) (fin5 w 14) (fin5 w 19))
  else if fld w 24 8 = 0x20 then some (.min (fin5 w 9) (fin5 w 14) (fin5 w 19))
  else if fld w 24 8 = 0x21 then some (.max (fin5 w 9) (fin5 w 14) (fin5 w 19))
  else if fld w 24 8 = 0x22 then some (.minu (fin5 w 9) (fin5 w 14) (fin5 w 19))
  else if fld w 24 8 = 0x23 then some (.maxu (fin5 w 9) (fin5 w 14) (fin5 w 19))
  else if fld w 24 8 = 0x28 then some (.slt (fin5 w 9) (fin5 w 14) (fin5 w 19))
  else if fld w 24 8 = 0x29 then some (.sltu (fin5 w 9) (fin5 w 14) (fin5 w 19))
  else if fld w 24 8 = 0x2a then some (.seq (fin5 w 9) (fin5 w 14) (fin5 w 19))
  else if fld w 19 13 = 0x600 then some (.clz (fin5 w 9) (fin5 w 14))
  else if fld w 19 13 = 0x620 then some (.ctz (fin5 w 9) (fin5 w 14))
  else if fld w 19 13 = 0x640 then some (.popc (fin5 w 9) (fin5 w 14))
  else if fld w 19 13 = 0x660 then some (.mov (fin5 w 9) (fin5 w 14))
  else if fld w 27 5 = 0x7 then some (.sel (fin5 w 9) (fin5 w 14) (fin5 w 19) (fin3 w 24))
  else if fld w 14 18 = 0x10000 then some (.tileid (fin5 w 9))
  else if fld w 24 8 = 0x41 then some (.gaddr (fin5 w 9) (fin5 w 14) (fin5 w 19))
  else if fld w 19 5 = 0x0 ∧ fld w 27 5 = 0x9 then some (.widF (fin5 w 9) (fin5 w 14) (fin3 w 24))
  else none

/-- Decoding of the immediate shifts (R57). -/
def decShiftImm (w : Nat) : Option Instr :=
  if fld w 25 7 = 0x0 then some (.shli (fin5 w 9) (fin5 w 14) (fin6 w 19))
  else if fld w 25 7 = 0x1 then some (.shri (fin5 w 9) (fin5 w 14) (fin6 w 19))
  else if fld w 25 7 = 0x2 then some (.shai (fin5 w 9) (fin5 w 14) (fin6 w 19))
  else none

/-- Decoding of the predicate functions (R59). -/
def decPred (w : Nat) : Option Instr :=
  if fld w 19 13 = 0x0 then some (.pset (fin5 w 9) (fin5 w 14))
  else if fld w 24 8 = 0x1 then some (.pand (fin5 w 9) (fin5 w 14) (fin5 w 19))
  else if fld w 24 8 = 0x2 then some (.por (fin5 w 9) (fin5 w 14) (fin5 w 19))
  else if fld w 24 8 = 0x3 then some (.pxor (fin5 w 9) (fin5 w 14) (fin5 w 19))
  else if fld w 19 13 = 0x80 then some (.pnot (fin5 w 9) (fin5 w 14))
  else none

/-- Decoding of LVS, LVG and SVX (R60). -/
def decGather (w : Nat) : Option Instr :=
  if fld w 26 6 = 0x0 then some (.lvs (fin5 w 9) (fin5 w 14) (fin5 w 19) (fin2 w 24))
  else if fld w 26 6 = 0x4 then some (.lvg (fin5 w 9) (fin5 w 14) (fin5 w 19) (fin2 w 24))
  else if fld w 26 6 = 0x8 then some (.svx (fin5 w 9) (fin5 w 14) (fin5 w 19) (fin2 w 24))
  else none

/-- Decoding of BP and BNP (R88). -/
def decBranchP (w : Nat) : Option Instr :=
  if fld w 14 5 = 0x0 then some (.bp (fin5 w 9) (.ofNat 13 (w / 2 ^ 19)))
  else if fld w 14 5 = 0x1 then some (.bnp (fin5 w 9) (.ofNat 13 (w / 2 ^ 19)))
  else none

/-- Decoding of the atomics (R66). -/
def decAtomic (w : Nat) : Option Instr :=
  if fld w 24 4 = 0x0 ∧ fld w 29 1 = 0x0 then some (.aadd (fin5 w 9) (fin5 w 14) (fin5 w 19) (fin1 w 28) (fin2 w 30))
  else if fld w 24 4 = 0x1 ∧ fld w 29 1 = 0x0 then some (.aand (fin5 w 9) (fin5 w 14) (fin5 w 19) (fin1 w 28) (fin2 w 30))
  else if fld w 24 4 = 0x2 ∧ fld w 29 1 = 0x0 then some (.aor (fin5 w 9) (fin5 w 14) (fin5 w 19) (fin1 w 28) (fin2 w 30))
  else if fld w 24 4 = 0x3 ∧ fld w 29 1 = 0x0 then some (.axor (fin5 w 9) (fin5 w 14) (fin5 w 19) (fin1 w 28) (fin2 w 30))
  else if fld w 24 4 = 0x4 ∧ fld w 29 1 = 0x0 then some (.amin (fin5 w 9) (fin5 w 14) (fin5 w 19) (fin1 w 28) (fin2 w 30))
  else if fld w 24 4 = 0x5 ∧ fld w 29 1 = 0x0 then some (.amax (fin5 w 9) (fin5 w 14) (fin5 w 19) (fin1 w 28) (fin2 w 30))
  else if fld w 24 4 = 0x6 ∧ fld w 29 1 = 0x0 then some (.aminu (fin5 w 9) (fin5 w 14) (fin5 w 19) (fin1 w 28) (fin2 w 30))
  else if fld w 24 4 = 0x7 ∧ fld w 29 1 = 0x0 then some (.amaxu (fin5 w 9) (fin5 w 14) (fin5 w 19) (fin1 w 28) (fin2 w 30))
  else if fld w 24 4 = 0x8 ∧ fld w 29 1 = 0x0 then some (.aswap (fin5 w 9) (fin5 w 14) (fin5 w 19) (fin1 w 28) (fin2 w 30))
  else if fld w 24 4 = 0x9 ∧ fld w 29 1 = 0x0 then some (.acas (fin5 w 9) (fin5 w 14) (fin5 w 19) (fin1 w 28) (fin2 w 30))
  else none

/-- Decoding of the exact-sum, copy and fold functions (R67). -/
def decGroup (w : Nat) : Option Instr :=
  if fld w 9 5 = 0x0 ∧ fld w 25 7 = 0x8 then some (.xaddf (fin5 w 14) (fin5 w 19) (fin1 w 24))
  else if fld w 19 5 = 0x0 ∧ fld w 25 7 = 0x9 then some (.xrd (fin5 w 9) (fin5 w 14) (fin1 w 24))
  else if fld w 9 5 = 0x0 ∧ fld w 19 13 = 0x280 then some (.xclr (fin5 w 14))
  else if fld w 26 6 = 0x8 then some (.cpy (fin5 w 9) (fin5 w 14) (fin5 w 19) (fin2 w 24))
  else if fld w 14 18 = 0x9000 then some (.cpypop (fin5 w 9))
  else if fld w 24 8 = 0x28 then some (.fold (fin5 w 9) (fin5 w 14) (fin5 w 19))
  else if fld w 19 13 = 0x520 then some (.foldrd (fin5 w 9) (fin5 w 14))
  else none

/-- Decoding of the typed arithmetic of majors 0x30 to 0x33 (R62). -/
def decVec (w : Nat) : Option Instr :=
  if fld w 28 4 = 0x0 then some (.vadd (fin2 w 3) (fin5 w 9) (fin5 w 14) (fin5 w 19) (fin4 w 24))
  else if fld w 28 4 = 0x1 then some (.vsub (fin2 w 3) (fin5 w 9) (fin5 w 14) (fin5 w 19) (fin4 w 24))
  else if fld w 28 4 = 0x2 then some (.vmul (fin2 w 3) (fin5 w 9) (fin5 w 14) (fin5 w 19) (fin4 w 24))
  else if fld w 28 4 = 0x3 then some (.vfma (fin2 w 3) (fin5 w 9) (fin5 w 14) (fin5 w 19) (fin4 w 24))
  else if fld w 28 4 = 0x4 then some (.vmin (fin2 w 3) (fin5 w 9) (fin5 w 14) (fin5 w 19) (fin4 w 24))
  else if fld w 28 4 = 0x5 then some (.vmax (fin2 w 3) (fin5 w 9) (fin5 w 14) (fin5 w 19) (fin4 w 24))
  else if fld w 28 4 = 0x6 then some (.vcmpeq (fin2 w 3) (fin5 w 9) (fin5 w 14) (fin5 w 19) (fin4 w 24))
  else if fld w 28 4 = 0x7 then some (.vcmplt (fin2 w 3) (fin5 w 9) (fin5 w 14) (fin5 w 19) (fin4 w 24))
  else if fld w 28 4 = 0x8 then some (.vcmple (fin2 w 3) (fin5 w 9) (fin5 w 14) (fin5 w 19) (fin4 w 24))
  else if fld w 19 5 = 0x0 ∧ fld w 28 4 = 0x9 then some (.vredAdd (fin2 w 3) (fin5 w 9) (fin5 w 14) (fin4 w 24))
  else if fld w 19 5 = 0x0 ∧ fld w 28 4 = 0xa then some (.vredMax (fin2 w 3) (fin5 w 9) (fin5 w 14) (fin4 w 24))
  else if fld w 19 5 = 0x0 ∧ fld w 28 4 = 0xb then some (.vredMin (fin2 w 3) (fin5 w 9) (fin5 w 14) (fin4 w 24))
  else if fld w 23 1 = 0x0 ∧ fld w 28 4 = 0xc then some (.vcvt (fin2 w 3) (fin5 w 9) (fin5 w 14) (fin4 w 19) (fin4 w 24))
  else if fld w 28 4 = 0xd then some (.vdot (fin2 w 3) (fin5 w 9) (fin5 w 14) (fin5 w 19) (fin4 w 24))
  else if fld w 28 4 = 0xe then some (.vscale (fin2 w 3) (fin5 w 9) (fin5 w 14) (fin5 w 19) (fin4 w 24))
  else if fld w 28 4 = 0xf then some (.vpack (fin2 w 3) (fin5 w 9) (fin5 w 14) (fin5 w 19) (fin4 w 24))
  else none

/-- Decoding of vector logic, shift, select and move (R63). -/
def decVLogic (w : Nat) : Option Instr :=
  if fld w 19 5 = 0x0 ∧ fld w 28 4 = 0x0 then some (.vabs (fin5 w 9) (fin5 w 14) (fin4 w 24))
  else if fld w 19 5 = 0x0 ∧ fld w 28 4 = 0x1 then some (.vneg (fin5 w 9) (fin5 w 14) (fin4 w 24))
  else if fld w 24 8 = 0x20 then some (.vand (fin5 w 9) (fin5 w 14) (fin5 w 19))
  else if fld w 24 8 = 0x30 then some (.vor (fin5 w 9) (fin5 w 14) (fin5 w 19))
  else if fld w 24 8 = 0x40 then some (.vxor (fin5 w 9) (fin5 w 14) (fin5 w 19))
  else if fld w 28 4 = 0x5 then some (.vshl (fin5 w 9) (fin5 w 14) (fin5 w 19) (fin4 w 24))
  else if fld w 28 4 = 0x6 then some (.vshr (fin5 w 9) (fin5 w 14) (fin5 w 19) (fin4 w 24))
  else if fld w 28 4 = 0x7 then some (.vsha (fin5 w 9) (fin5 w 14) (fin5 w 19) (fin4 w 24))
  else if fld w 27 5 = 0x10 then some (.vsel (fin5 w 9) (fin5 w 14) (fin5 w 19) (fin3 w 24))
  else if fld w 19 5 = 0x0 ∧ fld w 28 4 = 0x9 then some (.vbcast (fin5 w 9) (fin5 w 14) (fin4 w 24))
  else if fld w 28 4 = 0xa then some (.vext (fin5 w 9) (fin5 w 14) (fin5 w 19) (fin4 w 24))
  else if fld w 28 4 = 0xb then some (.vperm (fin5 w 9) (fin5 w 14) (fin5 w 19) (fin4 w 24))
  else if fld w 28 4 = 0xc then some (.vshuf (fin5 w 9) (fin5 w 14) (fin5 w 19) (fin4 w 24))
  else none

/-- Decoding of the vector functions (R64). -/
def decVFun (w : Nat) : Option Instr :=
  if fld w 19 5 = 0x0 ∧ fld w 28 4 = 0x0 then some (.vrcp (fin5 w 9) (fin5 w 14) (fin4 w 24))
  else if fld w 19 5 = 0x0 ∧ fld w 28 4 = 0x1 then some (.vrsq (fin5 w 9) (fin5 w 14) (fin4 w 24))
  else if fld w 19 5 = 0x0 ∧ fld w 28 4 = 0x2 then some (.vexp2 (fin5 w 9) (fin5 w 14) (fin4 w 24))
  else if fld w 19 5 = 0x0 ∧ fld w 28 4 = 0x3 then some (.vmaxexp (fin5 w 9) (fin5 w 14) (fin4 w 24))
  else if fld w 28 4 = 0x4 then some (.vunpk (fin5 w 9) (fin5 w 14) (fin5 w 19) (fin4 w 24))
  else none

/-- Decoding of the matrix major (R65). -/
def decMatrix (w : Nat) : Option Instr :=
  if fld w 9 15 = 0x0 ∧ fld w 26 6 = 0x0 then some (.mxopen (fin2 w 24))
  else if fld w 14 10 = 0x0 ∧ fld w 26 6 = 0x4 then some (.mxcfg (fin5 w 9) (fin2 w 24))
  else if fld w 9 5 = 0x0 ∧ fld w 19 5 = 0x0 ∧ fld w 26 6 = 0x8 then some (.mxpush (fin5 w 14) (fin2 w 24))
  else if fld w 9 5 = 0x0 ∧ fld w 26 6 = 0xc then some (.mxpushm (fin5 w 14) (fin5 w 19) (fin2 w 24))
  else if fld w 9 5 = 0x0 ∧ fld w 19 5 = 0x0 ∧ fld w 26 6 = 0x10 then some (.mxscl (fin5 w 14) (fin2 w 24))
  else if fld w 9 15 = 0x0 ∧ fld w 26 6 = 0x14 then some (.mxclose (fin2 w 24))
  else if fld w 14 10 = 0x0 ∧ fld w 26 6 = 0x18 then some (.mxstat (fin5 w 9) (fin2 w 24))
  else if fld w 9 5 = 0x0 ∧ fld w 19 13 = 0xe00 then some (.msetm (fin5 w 14))
  else if fld w 19 13 = 0x1000 then some (.skld (fin5 w 9) (fin5 w 14))
  else if fld w 14 18 = 0x24000 then some (.accz (fin5 w 9))
  else if fld w 24 8 = 0xa0 then some (.accrd (fin5 w 9) (fin5 w 14) (fin5 w 19))
  else if fld w 24 8 = 0xb0 then some (.accwr (fin5 w 9) (fin5 w 14) (fin5 w 19))
  else if fld w 28 4 = 0xc then some (.acccvt (fin5 w 9) (fin5 w 14) (fin5 w 19) (fin4 w 24))
  else none

/-- Decoding of the SYNC major (R68). -/
def decSync (w : Nat) : Option Instr :=
  if fld w 19 13 = 0x0 then some (.semset (fin5 w 9) (fin5 w 14))
  else if fld w 19 13 = 0x20 then some (.semadd (fin5 w 9) (fin5 w 14))
  else if fld w 19 13 = 0x40 then some (.semwait (fin5 w 9) (fin5 w 14))
  else if fld w 24 8 = 0x8 then some (.phreg (fin5 w 9) (fin5 w 14) (fin5 w 19))
  else if fld w 9 5 = 0x0 ∧ fld w 19 13 = 0x120 then some (.phdrop (fin5 w 14))
  else if fld w 19 13 = 0x140 then some (.phsig (fin5 w 9) (fin5 w 14))
  else if fld w 24 8 = 0xb then some (.phwait (fin5 w 9) (fin5 w 14) (fin5 w 19))
  else if fld w 19 13 = 0x180 then some (.phnext (fin5 w 9) (fin5 w 14))
  else if fld w 14 18 = 0x4000 then some (.bar (fin5 w 9))
  else if fld w 19 13 = 0x220 then some (.bara (fin5 w 9) (fin5 w 14))
  else if fld w 24 8 = 0x12 then some (.barw (fin5 w 9) (fin5 w 14) (fin5 w 19))
  else if fld w 24 8 = 0x18 then some (.vst (fin5 w 9) (fin5 w 14) (fin5 w 19))
  else if fld w 24 8 = 0x19 then some (.vld (fin5 w 9) (fin5 w 14) (fin5 w 19))
  else if fld w 9 5 = 0x0 ∧ fld w 24 8 = 0x1a then some (.vrecl (fin5 w 14) (fin5 w 19))
  else if fld w 14 18 = 0x8000 then some (.fence (fin5 w 9))
  else none

/-- Decoding of the SYS major (R69). -/
def decSys (w : Nat) : Option Instr :=
  if fld w 24 8 = 0x0 then some (.sysr (fin5 w 9) (fin5 w 14) (fin5 w 19))
  else if fld w 24 8 = 0x1 then some (.sysw (fin5 w 9) (fin5 w 14) (fin5 w 19))
  else if fld w 9 5 = 0x0 ∧ fld w 24 8 = 0x2 then some (.trap (fin5 w 14) (fin5 w 19))
  else if fld w 9 23 = 0x18000 then some (.brk)
  else if fld w 9 23 = 0x20000 then some (.wfi)
  else if fld w 9 23 = 0x40000 then some (.retireWord)
  else if fld w 9 5 = 0x0 ∧ fld w 19 13 = 0x120 then some (.retireS (fin5 w 14))
  else if fld w 19 13 = 0x140 then some (.karg (fin5 w 9) (fin5 w 14))
  else if fld w 9 23 = 0x80000 then some (.pfenceT)
  else if fld w 9 23 = 0x88000 then some (.pfenceG)
  else if fld w 14 18 = 0x4800 then some (.pstat (fin5 w 9))
  else if fld w 9 5 = 0x0 ∧ fld w 24 8 = 0x13 then some (.pgate (fin5 w 14) (fin5 w 19))
  else if fld w 24 8 = 0x18 then some (.tsend (fin5 w 9) (fin5 w 14) (fin5 w 19))
  else if fld w 19 13 = 0x320 then some (.cntrd (fin5 w 9) (fin5 w 14))
  else if fld w 9 5 = 0x0 ∧ fld w 24 8 = 0x1a then some (.cntset (fin5 w 14) (fin5 w 19))
  else none

/-- Decoding of the QUEUE major (R70). -/
def decQueue (w : Nat) : Option Instr :=
  if fld w 29 3 = 0x0 then some (.send (fin5 w 9) (fin5 w 14) (fin5 w 19) (fin5 w 24))
  else if fld w 29 3 = 0x1 then some (.sendm (fin5 w 9) (fin5 w 14) (fin5 w 19) (fin5 w 24))
  else if fld w 14 18 = 0x10000 then some (.msgid (fin5 w 9))
  else if fld w 24 8 = 0x41 then some (.qpush (fin5 w 9) (fin5 w 14) (fin5 w 19))
  else if fld w 24 8 = 0x42 then some (.qpop (fin5 w 9) (fin5 w 14) (fin5 w 19))
  else if fld w 24 8 = 0x43 then some (.qpeek (fin5 w 9) (fin5 w 14) (fin5 w 19))
  else if fld w 14 5 = 0x0 ∧ fld w 24 8 = 0x44 then some (.qcnt (fin5 w 9) (fin5 w 19))
  else if fld w 14 5 = 0x0 ∧ fld w 24 8 = 0x45 then some (.qpushw (fin5 w 9) (fin5 w 19))
  else if fld w 14 5 = 0x0 ∧ fld w 24 8 = 0x46 then some (.qpopw (fin5 w 9) (fin5 w 19))
  else if fld w 24 8 = 0x47 then some (.rpush (fin5 w 9) (fin5 w 14) (fin5 w 19))
  else if fld w 24 8 = 0x48 then some (.rpop (fin5 w 9) (fin5 w 14) (fin5 w 19))
  else if fld w 19 13 = 0x920 then some (.chblk (fin5 w 9) (fin5 w 14))
  else if fld w 19 13 = 0x940 then some (.chunb (fin5 w 9) (fin5 w 14))
  else if fld w 9 5 = 0x0 ∧ fld w 24 8 = 0x4b then some (.chmask (fin5 w 14) (fin5 w 19))
  else none

/-- Decoding of the PAGE major (R71). -/
def decPage (w : Nat) : Option Instr :=
  if fld w 9 5 = 0x0 ∧ fld w 24 8 = 0x0 then some (.seal (fin5 w 14) (fin5 w 19))
  else if fld w 9 5 = 0x0 ∧ fld w 24 8 = 0x1 then some (.unseal (fin5 w 14) (fin5 w 19))
  else if fld w 19 13 = 0x100 then some (.lgd (fin5 w 9) (fin5 w 14))
  else if fld w 9 5 = 0x0 ∧ fld w 24 8 = 0x9 then some (.sgd (fin5 w 14) (fin5 w 19))
  else if fld w 19 13 = 0x140 then some (.lgv (fin5 w 9) (fin5 w 14))
  else if fld w 19 13 = 0x160 then some (.sgv (fin5 w 9) (fin5 w 14))
  else if fld w 24 8 = 0xc then some (.pusht (fin5 w 9) (fin5 w 14) (fin5 w 19))
  else if fld w 9 5 = 0x0 ∧ fld w 24 8 = 0x10 then some (.tlbiH (fin5 w 14) (fin5 w 19))
  else none

/-- A 32-bit word by its major opcode (R56). Majors 0x3B to 0x3F are reserved; ILL.W is the one word of major 0x3F that
has a name (R54). -/
def decodeWide (w : Nat) : Option Instr :=
  match w / 8 % 64 with
  | 0x00 => decAlu w
  | 0x01 => some (.addi (fin5 w 9) (fin5 w 14) (.ofNat 13 (w / 2 ^ 19)))
  | 0x02 => some (.andi (fin5 w 9) (fin5 w 14) (.ofNat 13 (w / 2 ^ 19)))
  | 0x03 => some (.ori (fin5 w 9) (fin5 w 14) (.ofNat 13 (w / 2 ^ 19)))
  | 0x04 => some (.xori (fin5 w 9) (fin5 w 14) (.ofNat 13 (w / 2 ^ 19)))
  | 0x05 => some (.slti (fin5 w 9) (fin5 w 14) (.ofNat 13 (w / 2 ^ 19)))
  | 0x06 => if fld w 14 5 = 0x0 then some (.li (fin5 w 9) (.ofNat 13 (w / 2 ^ 19))) else none
  | 0x07 => some (.lih (fin5 w 9) (fin5 w 14) (.ofNat 13 (w / 2 ^ 19)))
  | 0x08 => decShiftImm w
  | 0x09 => if fld w 31 1 = 0x0 then some (.bext (fin5 w 9) (fin5 w 14) (fin6 w 19) (fin6 w 25)) else none
  | 0x0a => if fld w 31 1 = 0x0 then some (.bins (fin5 w 9) (fin5 w 14) (fin6 w 19) (fin6 w 25)) else none
  | 0x0b => some (.jalr (fin5 w 9) (fin5 w 14) (.ofNat 13 (w / 2 ^ 19)))
  | 0x0c => if fld w 27 5 = 0x0 then some (.loop (fin5 w 9) (fin5 w 14) (.ofNat 8 (w / 2 ^ 19))) else none
  | 0x0d => some (.loopi (fin5 w 9) (fin5 w 14) (.ofNat 13 (w / 2 ^ 19)))
  | 0x0e => decPred w
  | 0x0f => if fld w 22 2 = 0x0 then some (.ldPostinc (fin5 w 9) (fin5 w 14) (fin3 w 19) (.ofNat 8 (w / 2 ^ 24))) else none
  | 0x10 => some (.ldI8 (fin5 w 9) (fin5 w 14) (.ofNat 13 (w / 2 ^ 19)))
  | 0x11 => some (.ldN8 (fin5 w 9) (fin5 w 14) (.ofNat 13 (w / 2 ^ 19)))
  | 0x12 => some (.ldI16 (fin5 w 9) (fin5 w 14) (.ofNat 13 (w / 2 ^ 19)))
  | 0x13 => some (.ldN16 (fin5 w 9) (fin5 w 14) (.ofNat 13 (w / 2 ^ 19)))
  | 0x14 => some (.ldI32 (fin5 w 9) (fin5 w 14) (.ofNat 13 (w / 2 ^ 19)))
  | 0x15 => some (.ldN32 (fin5 w 9) (fin5 w 14) (.ofNat 13 (w / 2 ^ 19)))
  | 0x16 => some (.ldI64 (fin5 w 9) (fin5 w 14) (.ofNat 13 (w / 2 ^ 19)))
  | 0x17 => some (.st8 (fin5 w 9) (fin5 w 14) (.ofNat 13 (w / 2 ^ 19)))
  | 0x18 => some (.st16 (fin5 w 9) (fin5 w 14) (.ofNat 13 (w / 2 ^ 19)))
  | 0x19 => some (.st32 (fin5 w 9) (fin5 w 14) (.ofNat 13 (w / 2 ^ 19)))
  | 0x1a => some (.st64 (fin5 w 9) (fin5 w 14) (.ofNat 13 (w / 2 ^ 19)))
  | 0x1b => some (.lv (fin5 w 9) (fin5 w 14) (.ofNat 13 (w / 2 ^ 19)))
  | 0x1c => some (.sv (fin5 w 9) (fin5 w 14) (.ofNat 13 (w / 2 ^ 19)))
  | 0x1d => some (.stPostinc (fin5 w 9) (fin5 w 14) (fin5 w 19) (.ofNat 8 (w / 2 ^ 24)))
  | 0x1e => decGather w
  | 0x1f => some (.beq (fin5 w 9) (fin5 w 14) (.ofNat 13 (w / 2 ^ 19)))
  | 0x20 => some (.bne (fin5 w 9) (fin5 w 14) (.ofNat 13 (w / 2 ^ 19)))
  | 0x21 => some (.blt (fin5 w 9) (fin5 w 14) (.ofNat 13 (w / 2 ^ 19)))
  | 0x22 => some (.bge (fin5 w 9) (fin5 w 14) (.ofNat 13 (w / 2 ^ 19)))
  | 0x23 => some (.bltu (fin5 w 9) (fin5 w 14) (.ofNat 13 (w / 2 ^ 19)))
  | 0x24 => some (.bgeu (fin5 w 9) (fin5 w 14) (.ofNat 13 (w / 2 ^ 19)))
  | 0x25 => decBranchP w
  | 0x26 => some (.j (.ofNat 23 (w / 2 ^ 9)))
  | 0x27 => some (.jal (.ofNat 23 (w / 2 ^ 9)))
  | 0x28 => some (.ldf32 (fin5 w 9) (fin5 w 14) (.ofNat 13 (w / 2 ^ 19)))
  | 0x29 => some (.ldf64 (fin5 w 9) (fin5 w 14) (.ofNat 13 (w / 2 ^ 19)))
  | 0x2a => some (.stf32 (fin5 w 9) (fin5 w 14) (.ofNat 13 (w / 2 ^ 19)))
  | 0x2b => some (.stf64 (fin5 w 9) (fin5 w 14) (.ofNat 13 (w / 2 ^ 19)))
  | 0x2c => some (.lvf (fin5 w 9) (fin5 w 14) (.ofNat 13 (w / 2 ^ 19)))
  | 0x2d => some (.svf (fin5 w 9) (fin5 w 14) (.ofNat 13 (w / 2 ^ 19)))
  | 0x2e => decAtomic w
  | 0x2f => decGroup w
  | 0x30 => decVec w
  | 0x31 => decVec w
  | 0x32 => decVec w
  | 0x33 => decVec w
  | 0x34 => decVLogic w
  | 0x35 => decVFun w
  | 0x36 => decMatrix w
  | 0x37 => decSync w
  | 0x38 => decSys w
  | 0x39 => decQueue w
  | 0x3a => decPage w
  | _ => if w = 0xFFFFFFFF then some .illW else none

/-- A halfword whose bits 2:0 are not 111, by its compact class (R53). -/
def decodeCompact (w : Nat) : Option Instr :=
  match w % 8 with
  | 0 => if w / 8 = 0 then some .ill else if w / 8 = 1 then some .nop else if w / 8 = 2 then some .yield
    else if w / 8 = 3 then some .retire else none
  | 1 => some (.cAlu (fin5 w 3) (fin5 w 8) (fin3 w 13))
  | 2 => some (.cAddi (fin5 w 3) (.ofNat 8 (w / 2 ^ 8)))
  | 3 => some (.cLi (fin5 w 3) (.ofNat 8 (w / 2 ^ 8)))
  | 4 => some (.cLd (fin3 w 3) (fin3 w 6) (fin2 w 9) (.ofNat 5 (w / 2 ^ 11)))
  | 5 => some (.cB (.ofNat 13 (w / 2 ^ 3)))
  | 6 => if fld w 7 9 = 0 then some (.pfx (fin3 w 3) (fin1 w 6)) else none
  | _ => none

/-- The instruction that starts with halfword lo and is followed by halfword hi (R47), where the opcode table holds it. Whether
its fields are admitted (R51, R52) is checked where it executes (DESIGN CHOICE, log 16). -/
def decodeHalves (lo hi : Nat) : Option Instr :=
  if lo % 8 = 7 then decodeWide (lo + hi * 65536) else decodeCompact lo

/-- The instruction at the head of a little-endian byte stream and the bytes behind it (R2, R47). -/
def decode (bs : List (BitVec 8)) : Option (Instr × List (BitVec 8)) :=
  match bs with
  | b0 :: b1 :: rest =>
    let lo := b0.toNat + b1.toNat * 256
    if lo % 8 = 7 then
      match rest with
      | b2 :: b3 :: rest' => (decodeHalves lo (b2.toNat + b3.toNat * 256)).map (·, rest')
      | _ => none
    else (decodeHalves lo 0).map (·, rest)
  | _ => none

/-- The bytes of an n-byte little-endian value. -/
def leBytes : Nat → Nat → List (BitVec 8)
  | 0, _ => []
  | n + 1, w => BitVec.ofNat 8 w :: leBytes n (w / 256)

/-- The host's view: the instruction read from the bytes of w, the word's bits above nbits being zero. -/
def decodeTableWord (nbits w : Nat) : Option Instr :=
  (decode (leBytes 4 (w % 2 ^ nbits))).map (·.1)

/-- Field x laid from bit lo upward into word w (R2). -/
def lay (x lo w : Nat) : Nat := x * 2 ^ lo + w

/-- The word of an instruction, from the same tables (R48 to R71): the compact classes in 16 bits, the others in 32. An event
has no word. -/
def encode : Instr → Nat
  | .add d a b => lay d.val 9 (lay a.val 14 (lay b.val 19 0x7))
  | .sub d a b => lay d.val 9 (lay a.val 14 (lay b.val 19 0x1000007))
  | .mul d a b => lay d.val 9 (lay a.val 14 (lay b.val 19 0x2000007))
  | .mulh d a b => lay d.val 9 (lay a.val 14 (lay b.val 19 0x3000007))
  | .mulhu d a b => lay d.val 9 (lay a.val 14 (lay b.val 19 0x4000007))
  | .div d a b => lay d.val 9 (lay a.val 14 (lay b.val 19 0x5000007))
  | .divu d a b => lay d.val 9 (lay a.val 14 (lay b.val 19 0x6000007))
  | .rem d a b => lay d.val 9 (lay a.val 14 (lay b.val 19 0x7000007))
  | .remu d a b => lay d.val 9 (lay a.val 14 (lay b.val 19 0x8000007))
  | .and d a b => lay d.val 9 (lay a.val 14 (lay b.val 19 0x10000007))
  | .or d a b => lay d.val 9 (lay a.val 14 (lay b.val 19 0x11000007))
  | .xor d a b => lay d.val 9 (lay a.val 14 (lay b.val 19 0x12000007))
  | .shl d a b => lay d.val 9 (lay a.val 14 (lay b.val 19 0x18000007))
  | .shr d a b => lay d.val 9 (lay a.val 14 (lay b.val 19 0x19000007))
  | .sha d a b => lay d.val 9 (lay a.val 14 (lay b.val 19 0x1a000007))
  | .min d a b => lay d.val 9 (lay a.val 14 (lay b.val 19 0x20000007))
  | .max d a b => lay d.val 9 (lay a.val 14 (lay b.val 19 0x21000007))
  | .minu d a b => lay d.val 9 (lay a.val 14 (lay b.val 19 0x22000007))
  | .maxu d a b => lay d.val 9 (lay a.val 14 (lay b.val 19 0x23000007))
  | .slt d a b => lay d.val 9 (lay a.val 14 (lay b.val 19 0x28000007))
  | .sltu d a b => lay d.val 9 (lay a.val 14 (lay b.val 19 0x29000007))
  | .seq d a b => lay d.val 9 (lay a.val 14 (lay b.val 19 0x2a000007))
  | .clz d a => lay d.val 9 (lay a.val 14 0x30000007)
  | .ctz d a => lay d.val 9 (lay a.val 14 0x31000007)
  | .popc d a => lay d.val 9 (lay a.val 14 0x32000007)
  | .mov d a => lay d.val 9 (lay a.val 14 0x33000007)
  | .sel d a b p => lay d.val 9 (lay a.val 14 (lay b.val 19 (lay p.val 24 0x38000007)))
  | .tileid d => lay d.val 9 0x40000007
  | .gaddr d a b => lay d.val 9 (lay a.val 14 (lay b.val 19 0x41000007))
  | .widF d a f => lay d.val 9 (lay a.val 14 (lay f.val 24 0x48000007))
  | .addi d a i => lay d.val 9 (lay a.val 14 (lay i.toNat 19 0xf))
  | .andi d a i => lay d.val 9 (lay a.val 14 (lay i.toNat 19 0x17))
  | .ori d a i => lay d.val 9 (lay a.val 14 (lay i.toNat 19 0x1f))
  | .xori d a i => lay d.val 9 (lay a.val 14 (lay i.toNat 19 0x27))
  | .slti d a i => lay d.val 9 (lay a.val 14 (lay i.toNat 19 0x2f))
  | .li d i => lay d.val 9 (lay i.toNat 19 0x37)
  | .lih d a i => lay d.val 9 (lay a.val 14 (lay i.toNat 19 0x3f))
  | .shli d a s => lay d.val 9 (lay a.val 14 (lay s.val 19 0x47))
  | .shri d a s => lay d.val 9 (lay a.val 14 (lay s.val 19 0x2000047))
  | .shai d a s => lay d.val 9 (lay a.val 14 (lay s.val 19 0x4000047))
  | .bext d a p l => lay d.val 9 (lay a.val 14 (lay p.val 19 (lay l.val 25 0x4f)))
  | .bins d a p l => lay d.val 9 (lay a.val 14 (lay p.val 19 (lay l.val 25 0x57)))
  | .jalr d a i => lay d.val 9 (lay a.val 14 (lay i.toNat 19 0x5f))
  | .loop d a t => lay d.val 9 (lay a.val 14 (lay t.toNat 19 0x67))
  | .loopi d n c => lay d.val 9 (lay n.val 14 (lay c.toNat 19 0x6f))
  | .pset d a => lay d.val 9 (lay a.val 14 0x77)
  | .pand d a b => lay d.val 9 (lay a.val 14 (lay b.val 19 0x1000077))
  | .por d a b => lay d.val 9 (lay a.val 14 (lay b.val 19 0x2000077))
  | .pxor d a b => lay d.val 9 (lay a.val 14 (lay b.val 19 0x3000077))
  | .pnot d a => lay d.val 9 (lay a.val 14 0x4000077)
  | .ldPostinc d a k i => lay d.val 9 (lay a.val 14 (lay k.val 19 (lay i.toNat 24 0x7f)))
  | .ldI8 d a i => lay d.val 9 (lay a.val 14 (lay i.toNat 19 0x87))
  | .ldN8 d a i => lay d.val 9 (lay a.val 14 (lay i.toNat 19 0x8f))
  | .ldI16 d a i => lay d.val 9 (lay a.val 14 (lay i.toNat 19 0x97))
  | .ldN16 d a i => lay d.val 9 (lay a.val 14 (lay i.toNat 19 0x9f))
  | .ldI32 d a i => lay d.val 9 (lay a.val 14 (lay i.toNat 19 0xa7))
  | .ldN32 d a i => lay d.val 9 (lay a.val 14 (lay i.toNat 19 0xaf))
  | .ldI64 d a i => lay d.val 9 (lay a.val 14 (lay i.toNat 19 0xb7))
  | .st8 d a i => lay d.val 9 (lay a.val 14 (lay i.toNat 19 0xbf))
  | .st16 d a i => lay d.val 9 (lay a.val 14 (lay i.toNat 19 0xc7))
  | .st32 d a i => lay d.val 9 (lay a.val 14 (lay i.toNat 19 0xcf))
  | .st64 d a i => lay d.val 9 (lay a.val 14 (lay i.toNat 19 0xd7))
  | .lv d a i => lay d.val 9 (lay a.val 14 (lay i.toNat 19 0xdf))
  | .sv d a i => lay d.val 9 (lay a.val 14 (lay i.toNat 19 0xe7))
  | .stPostinc d a k i => lay d.val 9 (lay a.val 14 (lay k.val 19 (lay i.toNat 24 0xef)))
  | .lvs d a b w => lay d.val 9 (lay a.val 14 (lay b.val 19 (lay w.val 24 0xf7)))
  | .lvg d a b w => lay d.val 9 (lay a.val 14 (lay b.val 19 (lay w.val 24 0x100000f7)))
  | .svx d a b w => lay d.val 9 (lay a.val 14 (lay b.val 19 (lay w.val 24 0x200000f7)))
  | .beq a b i => lay a.val 9 (lay b.val 14 (lay i.toNat 19 0xff))
  | .bne a b i => lay a.val 9 (lay b.val 14 (lay i.toNat 19 0x107))
  | .blt a b i => lay a.val 9 (lay b.val 14 (lay i.toNat 19 0x10f))
  | .bge a b i => lay a.val 9 (lay b.val 14 (lay i.toNat 19 0x117))
  | .bltu a b i => lay a.val 9 (lay b.val 14 (lay i.toNat 19 0x11f))
  | .bgeu a b i => lay a.val 9 (lay b.val 14 (lay i.toNat 19 0x127))
  | .bp a i => lay a.val 9 (lay i.toNat 19 0x12f)
  | .bnp a i => lay a.val 9 (lay i.toNat 19 0x412f)
  | .j i => lay i.toNat 9 0x137
  | .jal i => lay i.toNat 9 0x13f
  | .ldf32 d a i => lay d.val 9 (lay a.val 14 (lay i.toNat 19 0x147))
  | .ldf64 d a i => lay d.val 9 (lay a.val 14 (lay i.toNat 19 0x14f))
  | .stf32 d a i => lay d.val 9 (lay a.val 14 (lay i.toNat 19 0x157))
  | .stf64 d a i => lay d.val 9 (lay a.val 14 (lay i.toNat 19 0x15f))
  | .lvf d a i => lay d.val 9 (lay a.val 14 (lay i.toNat 19 0x167))
  | .svf d a i => lay d.val 9 (lay a.val 14 (lay i.toNat 19 0x16f))
  | .aadd d a b w s => lay d.val 9 (lay a.val 14 (lay b.val 19 (lay w.val 28 (lay s.val 30 0x177))))
  | .aand d a b w s => lay d.val 9 (lay a.val 14 (lay b.val 19 (lay w.val 28 (lay s.val 30 0x1000177))))
  | .aor d a b w s => lay d.val 9 (lay a.val 14 (lay b.val 19 (lay w.val 28 (lay s.val 30 0x2000177))))
  | .axor d a b w s => lay d.val 9 (lay a.val 14 (lay b.val 19 (lay w.val 28 (lay s.val 30 0x3000177))))
  | .amin d a b w s => lay d.val 9 (lay a.val 14 (lay b.val 19 (lay w.val 28 (lay s.val 30 0x4000177))))
  | .amax d a b w s => lay d.val 9 (lay a.val 14 (lay b.val 19 (lay w.val 28 (lay s.val 30 0x5000177))))
  | .aminu d a b w s => lay d.val 9 (lay a.val 14 (lay b.val 19 (lay w.val 28 (lay s.val 30 0x6000177))))
  | .amaxu d a b w s => lay d.val 9 (lay a.val 14 (lay b.val 19 (lay w.val 28 (lay s.val 30 0x7000177))))
  | .aswap d a b w s => lay d.val 9 (lay a.val 14 (lay b.val 19 (lay w.val 28 (lay s.val 30 0x8000177))))
  | .acas d a b w s => lay d.val 9 (lay a.val 14 (lay b.val 19 (lay w.val 28 (lay s.val 30 0x9000177))))
  | .xaddf a b t => lay a.val 14 (lay b.val 19 (lay t.val 24 0x1000017f))
  | .xrd d a t => lay d.val 9 (lay a.val 14 (lay t.val 24 0x1200017f))
  | .xclr a => lay a.val 14 0x1400017f
  | .cpy d a b v => lay d.val 9 (lay a.val 14 (lay b.val 19 (lay v.val 24 0x2000017f)))
  | .cpypop d => lay d.val 9 0x2400017f
  | .fold d a b => lay d.val 9 (lay a.val 14 (lay b.val 19 0x2800017f))
  | .foldrd d k => lay d.val 9 (lay k.val 14 0x2900017f)
  | .vadd r d a b t => lay r.val 3 (lay d.val 9 (lay a.val 14 (lay b.val 19 (lay t.val 24 0x187))))
  | .vsub r d a b t => lay r.val 3 (lay d.val 9 (lay a.val 14 (lay b.val 19 (lay t.val 24 0x10000187))))
  | .vmul r d a b t => lay r.val 3 (lay d.val 9 (lay a.val 14 (lay b.val 19 (lay t.val 24 0x20000187))))
  | .vfma r d a b t => lay r.val 3 (lay d.val 9 (lay a.val 14 (lay b.val 19 (lay t.val 24 0x30000187))))
  | .vmin r d a b t => lay r.val 3 (lay d.val 9 (lay a.val 14 (lay b.val 19 (lay t.val 24 0x40000187))))
  | .vmax r d a b t => lay r.val 3 (lay d.val 9 (lay a.val 14 (lay b.val 19 (lay t.val 24 0x50000187))))
  | .vcmpeq r d a b t => lay r.val 3 (lay d.val 9 (lay a.val 14 (lay b.val 19 (lay t.val 24 0x60000187))))
  | .vcmplt r d a b t => lay r.val 3 (lay d.val 9 (lay a.val 14 (lay b.val 19 (lay t.val 24 0x70000187))))
  | .vcmple r d a b t => lay r.val 3 (lay d.val 9 (lay a.val 14 (lay b.val 19 (lay t.val 24 0x80000187))))
  | .vredAdd r d a t => lay r.val 3 (lay d.val 9 (lay a.val 14 (lay t.val 24 0x90000187)))
  | .vredMax r d a t => lay r.val 3 (lay d.val 9 (lay a.val 14 (lay t.val 24 0xa0000187)))
  | .vredMin r d a t => lay r.val 3 (lay d.val 9 (lay a.val 14 (lay t.val 24 0xb0000187)))
  | .vcvt r d a s t => lay r.val 3 (lay d.val 9 (lay a.val 14 (lay s.val 19 (lay t.val 24 0xc0000187))))
  | .vdot r d a b t => lay r.val 3 (lay d.val 9 (lay a.val 14 (lay b.val 19 (lay t.val 24 0xd0000187))))
  | .vscale r d a b t => lay r.val 3 (lay d.val 9 (lay a.val 14 (lay b.val 19 (lay t.val 24 0xe0000187))))
  | .vpack r d a b t => lay r.val 3 (lay d.val 9 (lay a.val 14 (lay b.val 19 (lay t.val 24 0xf0000187))))
  | .vabs d a t => lay d.val 9 (lay a.val 14 (lay t.val 24 0x1a7))
  | .vneg d a t => lay d.val 9 (lay a.val 14 (lay t.val 24 0x100001a7))
  | .vand d a b => lay d.val 9 (lay a.val 14 (lay b.val 19 0x200001a7))
  | .vor d a b => lay d.val 9 (lay a.val 14 (lay b.val 19 0x300001a7))
  | .vxor d a b => lay d.val 9 (lay a.val 14 (lay b.val 19 0x400001a7))
  | .vshl d a b t => lay d.val 9 (lay a.val 14 (lay b.val 19 (lay t.val 24 0x500001a7)))
  | .vshr d a b t => lay d.val 9 (lay a.val 14 (lay b.val 19 (lay t.val 24 0x600001a7)))
  | .vsha d a b t => lay d.val 9 (lay a.val 14 (lay b.val 19 (lay t.val 24 0x700001a7)))
  | .vsel d a b p => lay d.val 9 (lay a.val 14 (lay b.val 19 (lay p.val 24 0x800001a7)))
  | .vbcast d a t => lay d.val 9 (lay a.val 14 (lay t.val 24 0x900001a7))
  | .vext d a n t => lay d.val 9 (lay a.val 14 (lay n.val 19 (lay t.val 24 0xa00001a7)))
  | .vperm d a b t => lay d.val 9 (lay a.val 14 (lay b.val 19 (lay t.val 24 0xb00001a7)))
  | .vshuf d a b t => lay d.val 9 (lay a.val 14 (lay b.val 19 (lay t.val 24 0xc00001a7)))
  | .vrcp d a t => lay d.val 9 (lay a.val 14 (lay t.val 24 0x1af))
  | .vrsq d a t => lay d.val 9 (lay a.val 14 (lay t.val 24 0x100001af))
  | .vexp2 d a t => lay d.val 9 (lay a.val 14 (lay t.val 24 0x200001af))
  | .vmaxexp d a t => lay d.val 9 (lay a.val 14 (lay t.val 24 0x300001af))
  | .vunpk d a h t => lay d.val 9 (lay a.val 14 (lay h.val 19 (lay t.val 24 0x400001af)))
  | .mxopen p => lay p.val 24 0x1b7
  | .mxcfg d p => lay d.val 9 (lay p.val 24 0x100001b7)
  | .mxpush a p => lay a.val 14 (lay p.val 24 0x200001b7)
  | .mxpushm a n p => lay a.val 14 (lay n.val 19 (lay p.val 24 0x300001b7))
  | .mxscl a p => lay a.val 14 (lay p.val 24 0x400001b7)
  | .mxclose p => lay p.val 24 0x500001b7
  | .mxstat d p => lay d.val 9 (lay p.val 24 0x600001b7)
  | .msetm a => lay a.val 14 0x700001b7
  | .skld d a => lay d.val 9 (lay a.val 14 0x800001b7)
  | .accz d => lay d.val 9 0x900001b7
  | .accrd v k r => lay v.val 9 (lay k.val 14 (lay r.val 19 0xa00001b7))
  | .accwr k v r => lay k.val 9 (lay v.val 14 (lay r.val 19 0xb00001b7))
  | .acccvt v k r t => lay v.val 9 (lay k.val 14 (lay r.val 19 (lay t.val 24 0xc00001b7)))
  | .semset d a => lay d.val 9 (lay a.val 14 0x1bf)
  | .semadd d n => lay d.val 9 (lay n.val 14 0x10001bf)
  | .semwait d n => lay d.val 9 (lay n.val 14 0x20001bf)
  | .phreg d a m => lay d.val 9 (lay a.val 14 (lay m.val 19 0x80001bf))
  | .phdrop a => lay a.val 14 0x90001bf
  | .phsig d a => lay d.val 9 (lay a.val 14 0xa0001bf)
  | .phwait d a b => lay d.val 9 (lay a.val 14 (lay b.val 19 0xb0001bf))
  | .phnext d a => lay d.val 9 (lay a.val 14 0xc0001bf)
  | .phaserRequest _ => 0
  | .bar d => lay d.val 9 0x100001bf
  | .bara d a => lay d.val 9 (lay a.val 14 0x110001bf)
  | .barw d a b => lay d.val 9 (lay a.val 14 (lay b.val 19 0x120001bf))
  | .ratlineRelease _ _ _ => 0
  | .vst d a b => lay d.val 9 (lay a.val 14 (lay b.val 19 0x180001bf))
  | .vld d a b => lay d.val 9 (lay a.val 14 (lay b.val 19 0x190001bf))
  | .vrecl a b => lay a.val 14 (lay b.val 19 0x1a0001bf)
  | .vldResend _ _ => 0
  | .fence d => lay d.val 9 0x200001bf
  | .sysr d m n => lay d.val 9 (lay m.val 14 (lay n.val 19 0x1c7))
  | .sysw d m n => lay d.val 9 (lay m.val 14 (lay n.val 19 0x10001c7))
  | .trap a b => lay a.val 14 (lay b.val 19 0x20001c7)
  | .brk => 0x30001c7
  | .wfi => 0x40001c7
  | .wfiWake _ _ => 0
  | .retireWord => 0x80001c7
  | .retireS a => lay a.val 14 0x90001c7
  | .karg d n => lay d.val 9 (lay n.val 14 0xa0001c7)
  | .pfenceT => 0x100001c7
  | .pfenceG => 0x110001c7
  | .pstat d => lay d.val 9 0x120001c7
  | .pgate a m => lay a.val 14 (lay m.val 19 0x130001c7)
  | .tsend d a b => lay d.val 9 (lay a.val 14 (lay b.val 19 0x180001c7))
  | .cntrd d a => lay d.val 9 (lay a.val 14 0x190001c7)
  | .cntset a b => lay a.val 14 (lay b.val 19 0x1a0001c7)
  | .send d a b n => lay d.val 9 (lay a.val 14 (lay b.val 19 (lay n.val 24 0x1cf)))
  | .sendm d a b n => lay d.val 9 (lay a.val 14 (lay b.val 19 (lay n.val 24 0x200001cf)))
  | .msgid d => lay d.val 9 0x400001cf
  | .qpush d p q => lay d.val 9 (lay p.val 14 (lay q.val 19 0x410001cf))
  | .qpop d p q => lay d.val 9 (lay p.val 14 (lay q.val 19 0x420001cf))
  | .qpeek d p q => lay d.val 9 (lay p.val 14 (lay q.val 19 0x430001cf))
  | .qcnt d q => lay d.val 9 (lay q.val 19 0x440001cf)
  | .qpushw d q => lay d.val 9 (lay q.val 19 0x450001cf)
  | .qpopw d q => lay d.val 9 (lay q.val 19 0x460001cf)
  | .qwaitExpiry _ _ => 0
  | .rpush d p b => lay d.val 9 (lay p.val 14 (lay b.val 19 0x470001cf))
  | .rpop d p b => lay d.val 9 (lay p.val 14 (lay b.val 19 0x480001cf))
  | .chblk d a => lay d.val 9 (lay a.val 14 0x490001cf)
  | .chunb d a => lay d.val 9 (lay a.val 14 0x4a0001cf)
  | .chmask a k => lay a.val 14 (lay k.val 19 0x4b0001cf)
  | .channelControlArrival _ => 0
  | .seal a b => lay a.val 14 (lay b.val 19 0x1d7)
  | .unseal a b => lay a.val 14 (lay b.val 19 0x10001d7)
  | .sealRequestArrival _ => 0
  | .lgd d a => lay d.val 9 (lay a.val 14 0x80001d7)
  | .sgd a b => lay a.val 14 (lay b.val 19 0x90001d7)
  | .lgv d a => lay d.val 9 (lay a.val 14 0xa0001d7)
  | .sgv d a => lay d.val 9 (lay a.val 14 0xb0001d7)
  | .pusht d a n => lay d.val 9 (lay a.val 14 (lay n.val 19 0xc0001d7))
  | .pushBeatArrival _ => 0
  | .tlbiH a b => lay a.val 14 (lay b.val 19 0x100001d7)
  | .illW => 0xffffffff
  | .ill => 0x0
  | .nop => 0x8
  | .yield => 0x10
  | .retire => 0x18
  | .cAlu d a o => lay d.val 3 (lay a.val 8 (lay o.val 13 0x1))
  | .cAddi d i => lay d.val 3 (lay i.toNat 8 0x2)
  | .cLi d i => lay d.val 3 (lay i.toNat 8 0x3)
  | .cLd d a o f => lay d.val 3 (lay a.val 6 (lay o.val 9 (lay f.toNat 11 0x4)))
  | .cB i => lay i.toNat 3 0x5
  | .pfx p s => lay p.val 3 (lay s.val 6 0x6)
  | .messageArrival _ => 0
  | .activationStart _ => 0
  | .priorityAgeing _ => 0
  | .outboxInject _ => 0
  | .watchdogExpiry _ _ => 0
  | .trapSequenceComplete _ _ => 0
  | .remoteRecordArrival _ => 0
  | .farRequestService _ => 0
  | .caOperation _ => 0
  | .farResponseArrival _ => 0
  | .completionRound => 0
  | .liveMigration _ _ => 0
  | .quiescePoint _ _ => 0
  | .vfifoLanding _ => 0
  | .vfifoCreditReturn _ => 0
  | .kStepConsume _ => 0
  | .deliverySend _ => 0
  | .deliveryApply _ => 0
  | .deliveryAck _ => 0
  | .copyCommandStart _ => 0
  | .copyCompletion _ => 0
  | .foldPerform _ => 0
  | .launchDoorbell _ _ _ _ => 0
  | .kernelRegister _ _ => 0
  | .launchPlace _ _ => 0
  | .launchLoadComplete _ => 0
  | .launchAbort _ => 0
  | .stationRequest _ => 0
  | .tableWalkComplete _ => 0
  | .hbmAccessComplete _ => 0
  | .routerArbitration _ => 0
  | .haltHoldDelivery _ => 0
  | .spanFrameReceive _ _ => 0
  | .spanLaneFail _ _ => 0
  | .spanEnable _ => 0
  | .spanTrainingDone _ _ => 0
  | .spanTrainingTimeout _ => 0
  | .spanPeerHalt _ => 0
  | .spanPeerResume _ => 0
  | .spanPeerLost _ => 0
  | .spanDisable _ => 0
  | .transferResend _ => 0
  | .transferAck _ => 0
  | .releaseNotice _ _ => 0
  | .landingCount _ => 0
  | .counterEngineCycle => 0
  | .bridgeDegrade _ => 0
  | .bridgeDown _ => 0
  | .trickle _ => 0
  | .commit _ => 0
  | .commitComplete _ => 0
  | .autoCommitInterval _ => 0
  | .persistRequest _ => 0
  | .powerLoss _ => 0
  | .resume _ => 0
  | .gateRequestAccept _ => 0
  | .gateOff _ => 0
  | .gateOn _ => 0
  | .gateQuiesced _ => 0
  | .sleepWake _ => 0
  | .tileHalt _ => 0
  | .eccRollback _ => 0
  | .healthMigration _ _ => 0
  | .sumacSession _ _ => 0
  | .sumacSessionTimeout _ => 0
  | .list _ => 0
  | .setgrp _ _ _ _ => 0
  | .stop _ _ _ => 0
  | .sumacResume _ _ _ _ => 0
  | .readctx _ _ _ => 0
  | .readmem _ _ _ _ _ => 0
  | .writemem _ _ _ _ _ => 0
  | .readrec _ => 0
  | .readglobal _ _ _ _ => 0
  | .events _ => 0
  | .intervalBoundary _ _ => 0
  | .throttleWindow _ _ => 0
  | .frameBoundary _ => 0
  | .powerToken _ => 0
  | .tokenExpiry => 0
  | .moduleReset _ => 0
  | .getMeasurements => 0
  | .pidBindWrite _ _ _ => 0
  | .tenantCreate _ _ => 0
  | .tenantChange _ _ => 0
  | .tenantDelete _ => 0
  | .hostRegisterWrite _ _ _ => 0
  | .pageTableWrite _ _ => 0
  | .kernelUnregister _ => 0
  | .powerReturnTimeout _ => 0
  | .secondTierPortLost _ => 0
  | .secondTierAccessComplete _ => 0
  | .spanEngineDebugStop => 0
  | .spanEngineDebugResume => 0
  | .journalClear => 0
  | .imageInstall _ _ _ _ => 0

/-- The bytes of an instruction as the instruction store holds them. -/
def encodeBytes (i : Instr) : List (BitVec 8) := leBytes i.size (encode i)

end Sys2Proof
end

