-- ==== Sys2Proof/Config.lean ====
section
/-! DEFINITION. The constants of the part, and the values the manual leaves open as constants without a body. -/

namespace Sys2Proof.Config

/-- Tiles of the device (R4). -/
def tiles : Nat := 8192

/-- Halyard cores (R14). -/
def halyards : Nat := 192

/-- Helm cores (R9). -/
def helms : Nat := 16

/-- The first byte address outside local scratchpad (R74). -/
def localEnd : Nat := 0x60000

/-- Where the mailbox begins and where its trap record slots begin (R151). -/
def mailbox : Nat := 0x5C000
def recordSlots : Nat := 0x5FC00

/-- The syndrome that is reported in a cycle for an uncorrectable word at an address (R143, R335): the manual gives no value. FREE
VALUE (log 6). -/
opaque syndrome : Nat → Nat → Word

/-- The milliseconds since reset at which a record of the boot journal is written: boot count, step, unit, outcome (R351). FREE VALUE
(log 6). -/
opaque bootTime : Nat → Nat → Nat → Nat → BitVec 32

/-- The digest of the image in a flash slot: kind, slot, version (R352): the model holds no image bytes. FREE VALUE (log 6). -/
opaque imageDigest : Nat → Nat → Nat → VWord

/-- The signature over the measurements with the attestation key (R352). FREE VALUE (log 6). -/
opaque attest : List VWord → VWord

end Sys2Proof.Config
end

