-- ==== Sys2Proof/Machine/State.lean ====
section
/-! DEFINITION. The state of the module as plain data: what the manual names (INVENTORY.md, '## State'), and at the end the
fields that are the model's own. Every default value is the value after module reset. -/

namespace Sys2Proof.Machine

/-- Why a step stops without a next state. SAFE: the hardware has no such cell. -/
inductive Fault where
  /-- Raised by a global access whose physical address is neither HBM nor second tier (R257). Safe. -/
  | physHole
  deriving DecidableEq, Repr

/-- An instruction without a meaning. -/
inductive Refusal where
  /-- Raised by an arm of exec that is not written yet. Safe. -/
  | notModelled (mnemonic : String)
  deriving DecidableEq, Repr

/-- States of a context (R137). -/
inductive CtxSt where
  | empty | running | stalled | dormant | trapped | halted | migrating | saved
  deriving DecidableEq, Repr

/-- A hardware loop level (R92): counter, index, step, addresses of the first and the last body instruction. -/
structure LoopLevel where
  active : Bool := false
  lc     : BitVec 32 := 0
  li     : Word := 0
  step   : Word := 0
  start  : Word := 0
  last   : Word := 0
  deriving DecidableEq, Repr

/-- A b register (R201). -/
structure BReg where
  pend  : Bool := false
  token : BitVec 16 := 0
  deriving DecidableEq, Repr

/-- A k register: address of the first entry and entry count, 0 for no list (R238). -/
structure SkList where
  addr  : Word := 0
  count : Nat := 0
  deriving DecidableEq, Repr

/-- States of a stream as MXSTAT shows them (R220, R221). -/
inductive StreamSt where
  | idle | halfOpen | streaming | closing | closed | config | skip | preempt | abort | length
  deriving DecidableEq, Repr

/-- A context's status of one port (R221). -/
structure StreamStat where
  rank      : Nat := 0
  kdone     : Nat := 0
  dropped   : Nat := 0
  rcause    : BitVec 8 := 0
  recvfault : Bool := false
  parted    : Bool := false
  ovf       : Bool := false
  st        : StreamSt := .idle
  deriving DecidableEq, Repr

/-- A trap as raised: cause, information words, the code of TRAP n (R142, R143); `own`: the structure of the site's own state in which
an uncorrectable error was found, and its address there, for the error record (R335): 0 the scratchpad, 1 scalar registers (32·context +
register), 2 vector registers (128·context + 64-bit word), 3 the banks (64-bit word), 4 the queues (2^32·queue + entry), 5 the channel
descriptors (channel), 6 the outboxes (context) (DESIGN CHOICE, log 100). -/
structure Trap where
  cause : BitVec 8
  w3    : Word := 0
  w4    : Word := 0
  w5    : Word := 0
  code  : BitVec 10 := 0
  own   : Option (Nat × Nat) := none
  deriving DecidableEq, Repr

/-- The eight words of a trap record (R142). -/
abbrev Rec := List Word

/-- A message as a descriptor of a channel queue (R151, R153): header word (R32), payload address, cycle of entry, cycle in
which it became the head (R36), steps of ageing, held mark with the context whose record it awaits, deferral to the next interval
(R45), whether it sought admission at the start of this one (R46), the context that runs it, and whether one of its words is
uncorrectable (R332). -/
structure Desc where
  hdr   : Word
  addr  : Nat
  beats : Nat
  entry : Nat
  head  : Option Nat := none
  aged  : Nat := 0
  held  : Bool := false
  heldBy : Option Nat := none
  deferred : Bool := false
  atStart : Bool := false
  runBy : Option Nat := none
  bad : Bool := false
  deriving DecidableEq, Repr

/-- An outbox message (R160); `bad`: one of its words is uncorrectable (R332). -/
structure OutMsg where
  targets : List Nat
  chan    : Nat
  id      : BitVec 16
  beats   : List VWord
  bad     : Bool := false
  deriving DecidableEq, Repr

/-- A message handed to the NI by RETIRE: pending outbox (R180, R324), with the sending channel's VC and PERSIST mark and the
members still to be sent to. `gate` is the commit sequence whose word it waits for, `ctx` the context whose RETIRE waits with it. -/
structure PendMsg where
  msg     : OutMsg
  vc      : Nat
  persist : Bool
  gate    : Option Nat := none
  ctx     : Option Nat := none
  deriving DecidableEq, Repr

/-- Where a response writes its value; a vector register only in the byte lanes of a mask (R55). -/
inductive Dest where
  | none
  | s (d : Fin 32)
  | v (d : Fin 32) (mask : BitVec 32)
  | p (d : Fin 32)
  | xrd (d : Fin 32)
  | ring (d p : Fin 32) (pop : Bool)
  deriving DecidableEq, Repr

/-- What a STALLED context waits for (R139): nothing, that its instruction can be issued again, or a response. -/
inductive Wait where
  | none
  | retry (since : Nat)
  | resp (id : Nat) (dest : Dest) (size : Nat) (owner : Option Nat)
  deriving DecidableEq, Repr

/-- A context (R137, R145, R31). `wdog` counts cycles; `unacked` holds the owner and the number of each posted far write that is not
acknowledged; `posts` keeps the pc and the flags of each posted request that may still be refused (R140); `lost` numbers the far requests
that it no longer waits for and that are not answered (R43); its activation's requests are numbered from `reqBase` on; `fenceId` numbers
the persist requests of its PFENCE.G; `ending` is the message that a RETIRE consumed whose commit word is not written yet, `counted` what
that RETIRE added to SY.MXOVF (R180). `badS` and `badV` name its uncorrectable register words: s registers, and 64-bit words of the v
registers, four to each (R332, R333). -/
structure Ctx where
  s         : Vector Word 32 := Vector.replicate 32 0
  v         : Vector VWord 32 := Vector.replicate 32 0
  p         : Vector (BitVec 32) 8 := Vector.replicate 8 0
  lp        : Vector LoopLevel 2 := Vector.replicate 2 {}
  k         : Vector SkList 4 := Vector.replicate 4 {}
  b         : Vector BReg 4 := Vector.replicate 4 {}
  mrow      : BitVec 16 := 0
  mcol      : BitVec 16 := 0
  flags     : BitVec 5 := 0
  pc        : Word := 0
  st        : CtxSt := .empty
  prior     : CtxSt := .empty
  wait      : Wait := .none
  pfx       : Option (Fin 8 × Bool) := none
  latch     : Bool := false
  yielding  : Bool := false
  chan      : Nat := 0
  hdr       : Word := 0
  wdog      : Nat := 0
  hold      : Bool := false
  outbox    : List OutMsg := []
  heldOvf   : Nat := 0
  lastid    : Option (BitVec 16) := none
  cpycount  : BitVec 16 := 0
  pushed    : Nat := 0
  fr        : BitVec 128 := 0
  floor     : Nat := 0
  status    : Vector StreamStat 4 := Vector.replicate 4 {}
  owners    : List Nat := []
  ownAll    : Bool := false
  slices    : Word := 0
  unacked   : List (Nat × Nat) := []
  posted    : Nat := 0
  posts     : List (Nat × Word × BitVec 5) := []
  lost      : List Nat := []
  reqid     : Nat := 0
  reqBase   : Nat := 0
  persisted : Option Nat := none
  fenceId   : Nat := 0
  ending    : Option Desc := none
  counted   : Nat := 0
  drop      : Bool := false
  record    : Option Rec := none
  trap      : Option Rec := none
  atBrk     : Bool := false
  deficit   : Int := 0
  quota     : Nat := 0
  badS      : List Nat := []
  badV      : List Nat := []
  deriving DecidableEq, Repr

/-- An operation that an owner performs for a requester (R41): far loads and stores at the NI, the others at ca. Atomic
operations are numbered as R66 numbers them. -/
inductive FarOp where
  | load (n : Nat)
  | store (bytes : List (Nat × Byte))
  | atomic (op w : Nat) (x cmp : Word)
  | xadd (bf : Bool) (x : BitVec 32)
  | xrd (bf : Bool)
  | xclr
  | vst (ver : BitVec 16) (val : BitVec 32) (slots : Nat)
  | vld (ver : BitVec 16) (slots : Nat)
  | vrecl (ver : BitVec 16) (slots : Nat)
  | rpush (x : Word)
  | rpop
  deriving DecidableEq, Repr

/-- The answer to a request: a trap to raise at the requester, or a value, a predicate and flags; `again`: a VLD that is
returned (R213); `release`: a phaser releases a wait (R150). -/
structure Resp where
  again : Bool := false
  release : Bool := false
  trap  : Option Trap := none
  val   : VWord := 0
  pred  : Bool := true
  flags : BitVec 5 := 0
  deriving DecidableEq, Repr

/-- A request with its requester: site, context, response number; `ni`: it came through the NI. -/
structure FarReq where
  ni   : Bool := false
  op   : FarOp
  addr : Nat
  site : Nat
  ctx  : Nat
  id   : Nat
  deriving DecidableEq, Repr

/-- A request to a halyard core (R188, R263, R191, R261). -/
inductive GOp where
  | read (n : Nat)
  | write (bytes : List Byte)
  | atomic (op w : Nat) (x cmp : Word)
  | seal (op : Nat)
  deriving DecidableEq, Repr

/-- A global request: address, process identifier, requester. `piece` names a piece of a copy command, `beat` a beat of a PUSHT
(R264), whose answers go elsewhere than a context's own response; `vc` carries the reply (R292), `inVc` carried the request; `tlbi`: the
contexts whose TLBI.H waits for it (R265). -/
structure GReq where
  op    : GOp
  va    : Word
  pid   : BitVec 16
  site  : Nat
  ctx   : Nat
  id    : Nat
  piece : Option (Nat × Nat) := none
  beat  : Option Nat := none
  vc    : Nat := 1
  inVc  : Nat := 0
  tlbi   : List (Nat × Nat) := []
  deriving DecidableEq, Repr

/-- A request to a sync engine (R209). -/
inductive PhOp where
  | reg (mode : Nat)
  | drop
  | sig
  | wait (token : BitVec 16)
  | next
  deriving DecidableEq, Repr

structure PhReq where
  op     : PhOp
  launch : Nat
  phaser : Nat
  member : Nat
  site   : Nat
  ctx    : Nat
  id     : Nat
  deriving DecidableEq, Repr

/-- A triggered send's descriptor (R312). -/
structure SendDesc where
  src  : Word
  dst  : Word
  len  : Nat
  dev  : Nat
  dcnt : Nat
  sc   : Bool
  scnt : Nat
  deriving DecidableEq, Repr

/-- A request to the counter engine (R311). -/
inductive CntOp where
  | set (v : Word)
  | read
  | arm (d : SendDesc) (thr : Word)
  deriving DecidableEq, Repr

structure CntReq where
  op     : CntOp
  cnt    : Nat
  tenant : Nat
  pid    : BitVec 16
  home   : Option Nat
  site   : Nat
  ctx    : Nat
  id     : Nat
  deriving DecidableEq, Repr

/-- A delivery of a link engine (R226); `num` tells its acknowledgement from those of other deliveries, and `beat` counts the beats
that are written (R227, R272). -/
structure Delivery where
  engine : Nat
  num    : Nat := 0
  beat   : Nat := 0
  bank   : Nat
  sem    : Nat
  mode   : Nat
  mrow   : BitVec 16
  mcol   : BitVec 16
  cells  : List (BitVec 32)
  parted : Bool
  ovf    : Bool
  kdone  : Nat
  deriving DecidableEq, Repr

/-- What a packet carries (R292). -/
inductive Load where
  | msg (hdr : Word) (beats : List VWord)
  | far (r : FarReq)
  | resp (ctx id : Nat) (r : Resp)
  | ack (ctx owner num : Nat) (tr : Option Trap)
  | beat (ctx id j : Nat) (r : Resp)
  | cpWrite (site cmd piece addr : Nat) (bytes : List Byte)
  | cpRead (site cmd piece addr n : Nat) (got : List Byte := [])
  | cpReply (cmd piece : Nat) (bytes : List Byte) (cause : BitVec 8)
  | cpAck (cmd piece : Nat) (cause : BitVec 8)
  | delivery (d : Delivery)
  | delAck (engine num : Nat)
  | push (queue : Bool) (sel addr : Nat) (beats : List VWord) (site ctx id : Nat)
  | chctl (chan : Nat) (blocked : Bool)
  | phaser (r : PhReq)
  | global (r : GReq)
  | counter (r : CntReq)
  | persist (site ctx member num : Nat)
  | persisted (ctx member num : Nat)
  | gate (mode site ctx id : Nat)
  | remote (r : Rec) (src : Nat)
  | sealAck (num : Nat)
  deriving DecidableEq, Repr

/-- A packet: endpoints, virtual channel, flits after the head (R292). -/
structure Pkt where
  src  : Nat
  dst  : Nat
  vc   : Nat
  body : Nat
  load : Load
  deriving DecidableEq, Repr

/-- A flit in a buffer (R291, R296): a head carries its packet and route; `age` counts cycles at the front. -/
structure Flit where
  pkt   : Option Pkt
  route : Nat
  last  : Bool
  age   : Nat
  deriving DecidableEq, Repr

/-- One output port of a router (R296): the holder (input, packet) of each VC, P, D and the round-robin starts. -/
structure OutPort where
  holds : Vector (Option (Nat × Pkt)) 4 := Vector.replicate 4 none
  ptr   : Nat := 3
  defc  : Vector Nat 4 := Vector.replicate 4 0
  rr    : Vector Nat 4 := Vector.replicate 4 0
  deriving DecidableEq, Repr

/-- A router (R294): buffers by input (N, E, S, W, vertical, L) and VC, outputs (N, E, S, W, vertical, L, H), the flits that the
NIs at L have started to inject. At the corner tile of a mast the bridge to the helm die shares L (R305): `hinj` holds the flits that
the agents of the helm die have started to inject, `bin` and `bout` the end buffers of the bridge, `bhold` the packet whose head has
left `bout`, and `lock` the side whose packet is entering the buffer of L (true for the bridge) or, between packets, entered last. -/
structure Router where
  ins   : Vector (Vector (List Flit) 4) 6 := Vector.replicate 6 (Vector.replicate 4 [])
  outs  : Vector OutPort 7 := Vector.replicate 7 {}
  inj   : Vector (List Flit) 4 := Vector.replicate 4 []
  hinj  : Vector (List Flit) 4 := Vector.replicate 4 []
  bin   : Vector (List Flit) 4 := Vector.replicate 4 []
  bout  : Vector (List Flit) 4 := Vector.replicate 4 []
  bhold : Vector (Option Pkt) 4 := Vector.replicate 4 none
  lock  : Vector (Bool × Bool) 4 := Vector.replicate 4 (false, false)
  deriving DecidableEq, Repr

/-- One piece of a copy (R191, R302, R370): source and destination copy addresses, length, how far it is, the bytes read, the write
packets that are not acknowledged, and the bytes written. -/
inductive PieceSt where
  | todo | reading | ready | writing | acked
  deriving DecidableEq, Repr

structure Piece where
  src : Word
  dst : Word
  len : Nat
  st  : PieceSt := .todo
  data : List Byte := []
  out  : List Nat := []
  good : Nat := 0
  deriving DecidableEq, Repr

/-- A copy command (R191); `stop` is the first piece at which a fault has stopped it. -/
structure CpCmd where
  len     : Nat
  src     : Word
  dst     : Word
  vc      : Nat
  ctx     : Nat
  tag     : BitVec 16
  num     : Nat := 0
  pieces  : List Piece := []
  cause   : BitVec 8 := 0
  stop    : Nat := 0
  deriving DecidableEq, Repr

/-- A fold command (R194). -/
structure FoldCmd where
  desc : Word
  m    : Word
  e    : BitVec 16
  ctx  : Nat
  deriving DecidableEq, Repr

/-- A fold slot (R115, R117, R194). -/
structure FoldSlot where
  mode : Nat
  exp  : Int
  acc  : BitVec 128
  sat  : Bool
  had  : Bool
  deriving DecidableEq, Repr

/-- A FIFO between contexts or engines with its pop and push counts (R155, R164). -/
structure Fifo (w : Nat) where
  items : List (BitVec w) := []
  pops  : Nat := 0
  pushes : Nat := 0
  deriving DecidableEq, Repr

/-- A gate request waiting at a tile's controller (R330): mode and requester, none for the helm. -/
structure GateReq where
  mode : Nat
  src  : Option (Nat × Nat × Nat)
  deriving DecidableEq, Repr

/-- A registration with a phaser (R207, R208): member, mode, the first phase, not before the open one, in which it counts, and the next
phase that it signals. -/
structure PhMember where
  member : Nat
  mode   : Nat
  start  : BitVec 16
  nextS  : BitVec 16
  deriving DecidableEq, Repr

/-- What a commit captures of a tile beside its scratchpad (R317, R286). `badAcc` names the uncorrectable 64-bit words of the banks,
two cells to each, and `badQ` the uncorrectable entries of q0 to q7, counted from the pops of their queue (R332). `ph` is the member's
state at the group's phasers as a commit captures it, `lastCtx` the context on which its last activation retired (R177). -/
structure Core where
  ctxs     : Vector Ctx 4 := Vector.replicate 4 {}
  acc      : List (Nat × BitVec 32) := []
  qs       : Vector (Fifo 64) 4 := Vector.replicate 4 {}
  q45      : Vector (Fifo 256) 2 := Vector.replicate 2 {}
  q6       : Fifo 256 := {}
  q7       : Fifo 64 := {}
  sem      : Vector (BitVec 32) 16 := Vector.replicate 16 0
  waiters  : List (Nat × Nat × Nat) := []
  htab     : Vector Word 32 := Vector.replicate 32 0x08000000
  chq      : Vector (List Desc) 32 := Vector.replicate 32 []
  slots    : List Nat := []
  copyq    : List CpCmd := []
  copies   : List CpCmd := []
  copyNum  : Nat := 0
  foldq    : List FoldCmd := []
  folds    : Vector (Option FoldSlot) 4 := Vector.replicate 4 none
  foldSeen : Vector (Option Nat) 4 := Vector.replicate 4 none
  barC     : Vector (BitVec 16) 4 := Vector.replicate 4 0
  barA     : Vector (BitVec 16) 4 := Vector.replicate 4 0
  ph       : List (Nat × PhMember) := []
  mxovf    : BitVec 32 := 0
  pend     : List PendMsg := []
  caq      : List FarReq := []
  parked   : List FarReq := []
  free     : Nat := 8
  pushes6  : Nat := 0
  badAcc   : List Nat := []
  badQ     : List (Nat × Nat) := []
  lastCtx  : Nat := 0
  deriving DecidableEq, Repr

/-- A 256-byte line slot, a state block slot and a commit word (R317, R320). `ok`: the CRC checks. -/
structure LineSlot where
  seq  : Nat
  data : List Byte
  ok   : Bool
  deriving DecidableEq, Repr

structure Block where
  seq  : Nat
  core : Core
  ok   : Bool
  deriving DecidableEq, Repr

structure CommitWord where
  seq   : Nat
  epoch : Nat
  cycle : Nat
  tile  : Nat
  lines : Nat
  ok    : Bool
  deriving DecidableEq, Repr

/-- A journal entry (R324): channel message as it arrived; the commit that captured it frees it. -/
structure JEntry where
  hdr   : Word
  beats : List VWord
  addr  : Nat
  deriving DecidableEq, Repr

/-- Where a tile's commit stands (R319): none, requested, being written (sequence, commit cycle, D, journal entries that it
captures). -/
inductive CommitSt where
  | idle
  | requested (since : Nat)
  | writing (seq cyc d jn : Nat)
  deriving DecidableEq, Repr

/-- A persist request that waits for commit `seq` (R327): requester, the member asked, the number of its PFENCE.G. -/
structure Asker where
  site   : Nat
  ctx    : Nat
  member : Nat
  num    : Nat
  seq    : Nat
  deriving DecidableEq, Repr

/-- A tile's area of the ballast die and its persistence state (R317, R328). -/
structure Ballast where
  dirty    : List Nat := []
  slotA    : List (Nat × LineSlot) := []
  slotB    : List (Nat × LineSlot) := []
  blkA     : Option Block := none
  blkB     : Option Block := none
  wordA    : Option CommitWord := none
  wordB    : Option CommitWord := none
  journal  : List JEntry := []
  injected : List (Nat × Nat) := []
  st       : CommitSt := .idle
  merged   : Bool := false
  last     : Nat := 0
  lastCyc  : Nat := 0
  lastAt   : Nat := 0
  resumes  : Nat := 0
  epoch    : Nat := 0
  askers   : List Asker := []
  deriving DecidableEq, Repr

/-- Gate states (R325). -/
inductive GateSt where
  | on | quiescing | committing | sleep | off | waking
  deriving DecidableEq, Repr

structure Gate where
  st       : GateSt := .on
  sleepReq : Bool := false
  offReq   : Bool := false
  cancel   : Bool := false
  reqs     : List GateReq := []
  deriving DecidableEq, Repr

/-- What a launch writes into a member (R148, R168, R175, R182); `owed`: its channel-0 message is still on its way (DEDUCED, log 25). -/
structure KernelInfo where
  ver     : Nat := 3
  handle  : BitVec 32 := 0
  chain   : Nat := 0
  tenant  : Nat := 0
  pid     : BitVec 16 := 0
  widths  : List Nat := []
  stkBase : Nat := 0
  stkSize : Nat := 0
  argBase : Nat := 0
  limit   : BitVec 16 := 0
  maint   : Bool := false
  launch  : Option Nat := none
  member  : Nat := 0
  pred    : BitVec 32 := 0
  inherit : BitVec 32 := 0
  fresh   : Bool := false
  wid     : Word := 0
  owed    : Bool := false
  deriving DecidableEq, Repr

/-- An error record to the helm (R335). -/
structure ErrRec where
  tile  : Nat
  what  : Nat
  addr  : Nat
  cycle : Nat
  deriving DecidableEq, Repr

/-- A load or store of the memory stage that has issued and is not performed yet (R268, R269): its instruction, and its context as it
stood at the issue. -/
structure Late where
  ctx   : Fin 4
  instr : Instr
  snap  : Ctx
  deriving DecidableEq, Repr

/-- A tile, or a halyard or helm core with the same parts (DEDUCED, log 7; DESIGN CHOICE, log 53). `owed45` counts the PUSHT beats for
q4 and q5 that are on their way (R155). `fixed` names each corrected word with its cycle, `rollbacks` the cycles of the rollbacks, and
`unfit` says that its work is due to be moved (R332, R340). `slots` counts the issue slots of the running frame that are over, `allow` is
its A (R346), `slotFrom` the cycle of the next issue slot (R344). `ownAt` is the cycle in which the tile was to halt for its own cause
(R335, R337). -/
structure Site where
  core     : Core := {}
  mem      : List Host.Cell := []
  istore   : List Host.Cell := []
  imgSize  : Nat := 0
  krn      : KernelInfo := {}
  nextid   : BitVec 16 := 0
  tdrop    : Nat := 0
  released : Nat := 0
  accepted : Nat := 0
  svc      : List Pkt := []
  rxMsg    : List Pkt := []
  rxResp   : List Pkt := []
  rxDel    : List Pkt := []
  rxPush   : List Pkt := []
  owed45   : Vector Nat 2 := Vector.replicate 2 0
  rxCtl    : List Pkt := []
  rxRec    : List (Rec × Nat) := []
  rxPst    : List Pkt := []
  vland    : List VWord := []
  vcred    : Nat := 0
  frozen   : Bool := false
  partner  : Nat := 0
  haltg    : BitVec 8 := 0
  dbg      : Bool := false
  lastg    : BitVec 8 := 0
  heldg    : BitVec 8 := 0
  halted   : Bool := false
  haltReq  : Bool := false
  ownHalt  : Bool := false
  ownAt    : Nat := 0
  quiesce  : Bool := false
  gate     : Gate := {}
  ballast  : Ballast := {}
  powered  : Bool := true
  lostAt   : Nat := 0
  migrated : Bool := false
  prow     : Nat := 0
  pcol     : Nat := 0
  bad      : List Nat := []
  fixed    : List (Nat × Nat) := []
  rollbacks : List Nat := []
  selfFail : Bool := false
  unfit    : Bool := false
  rollback : Bool := false
  newTile  : Bool := false
  rr       : Nat := 3
  frameFrom : Nat := 0
  slots    : Nat := 0
  issued   : Nat := 0
  allow    : Nat := 16
  slotFrom : Nat := 0
  late     : List Late := []
  divider  : Nat := 1
  super    : Bool := false
  deriving DecidableEq, Repr

/-- One entry of an operand FIFO (R217, R240, R241): a data beat, the second half of the beat at the front with its index, a
scale beat. -/
inductive Beat where
  | data (w : VWord)
  | upper (w : VWord) (k : Nat)
  | scale (w : VWord)
  deriving DecidableEq, Repr

/-- What reaches an engine 2 cycles after its instruction has issued (R234, R250): MXOPEN, MXCFG with its word and mask, MXCLOSE. -/
inductive EngCmd where
  | opens
  | cfg (w : Word) (mask : BitVec 16)
  | close
  deriving DecidableEq, Repr

/-- One end of a link engine (R220, R222, R224, R225, R236, R238): `claim` is the context of a MXOPEN that has not reached the engine or
finds a broken stream, `cmds` what is on its way to the engine with the cycle of its arrival (R250), `recfg` a second MXCFG of an end
that is only claimed, `orphan` an end whose activation is over and that the engine releases. -/
structure EngEnd where
  held    : Option (Nat × Nat) := none
  claim   : Option (Nat × Nat) := none
  cfg     : Option Word := none
  ver     : Nat := 3
  mask    : BitVec 16 := 0
  closed  : Bool := false
  cmds    : List (Nat × EngCmd) := []
  recfg   : Bool := false
  orphan  : Bool := false
  fifo    : List Beat := []
  list    : SkList := {}
  entry   : Nat := 0
  keep    : Nat := 0
  nextk   : Nat := 0
  scales  : List VWord := []
  deriving DecidableEq, Repr

/-- A link engine (R216, R220): the left (west or north) and right ends, cells, k, the delivery that it makes with its receiver's
member index, the number under which it was sent, and the quiescing end of a pre-emption that waits for the acknowledgement of its
PARTIAL delivery (R251). -/
structure Engine where
  st      : StreamSt := .idle
  left    : EngEnd := {}
  right   : EngEnd := {}
  inner   : List Int := []
  outer   : List (BitVec 32) := []
  clamped : List Nat := []
  ovfs    : Nat := 0
  anyOvf  : Bool := false
  k       : Nat := 0
  kdone   : Nat := 0
  pending : Option (Nat × Delivery) := none
  sent    : Bool := false
  num     : Nat := 0
  parting : Option Bool := none
  deriving DecidableEq, Repr

/-- Bridge states (R306). -/
inductive BridgeSt where
  | up | degraded | down
  deriving DecidableEq, Repr

/-- Span port states (R308). -/
inductive SpanSt where
  | down | training | up | degraded | haltHold
  deriving DecidableEq, Repr

/-- A span port (R307, R308): loads that wait for room in the replay buffer, the replay buffer, and the frames put on the wire. -/
structure SpanPort where
  st     : SpanSt := .down
  before : SpanSt := .down
  lanes  : BitVec 8 := 0xFF
  used   : Nat := 0
  txSeq  : BitVec 16 := 0
  rxSeq  : BitVec 16 := 0
  txq    : List SpanLoad := []
  replay : List SpanFrame := []
  wire   : List SpanFrame := []
  deriving DecidableEq, Repr

/-- A transfer of this device (R309, R313): its landings not yet sent or counted. -/
structure Landing where
  idx    : Nat
  target : Word
  bytes  : List Byte
  deriving DecidableEq, Repr

structure Transfer where
  num      : BitVec 32
  dev      : Nat
  tenant   : Nat
  pid      : BitVec 16
  cnt      : Nat
  total    : Nat
  landings : List Landing
  port     : Option Nat
  acked    : Bool := false
  noticed  : Bool := false
  deriving DecidableEq, Repr

/-- A landing that has reached this device and is not counted yet (R310): not sent to its home, on its way there with the packets that
are not acknowledged, or answered by it. -/
inductive LandSt where
  | fresh
  | sent (left : List Nat)
  | answered (cause : BitVec 8)
  deriving DecidableEq, Repr

structure Incoming where
  key    : Nat
  st     : LandSt := .fresh
  src    : Nat
  num    : BitVec 32
  idx    : Nat
  total  : Nat
  pid    : BitVec 16
  target : Word
  cnt    : Nat
  bytes  : List Byte
  deriving DecidableEq, Repr

/-- The receiver's record of a transfer (R309); `dead` for one that a fault has abandoned (R313). -/
structure XferRec where
  src  : Nat
  num  : BitVec 32
  got  : List Nat
  done : Nat
  dead : Bool := false
  deriving DecidableEq, Repr

/-- An armed send (R311, R313); `home` is the tile of a source in a scratchpad (R315). -/
structure Armed where
  d      : SendDesc
  cnt    : Nat
  thr    : Word
  tenant : Nat
  pid    : BitVec 16
  home   : Option Nat
  site   : Nat
  deriving DecidableEq, Repr

/-- A send that has fired (R313): its key, and what its reads have answered, range by range of its source in ascending order: the bytes,
or the cause of a fault. -/
structure Firing where
  key   : Nat
  a     : Armed
  parts : List (Option (List Byte × BitVec 8))
  deriving DecidableEq, Repr

/-- A phaser (R206): the open phase, the registrations, and the requests that are answered later. -/
structure Phaser where
  phase : BitVec 16 := 0
  regs  : List PhMember := []
  queue : List PhReq := []
  deriving DecidableEq, Repr

/-- States of a launch (R173). -/
inductive LaunchSt where
  | queued | placing | loading | running | chaining | done | failed
  deriving DecidableEq, Repr

/-- A launch descriptor (R170). -/
structure LaunchDesc where
  handle : BitVec 32
  event  : Nat
  deps   : List (Nat × BitVec 32)
  place  : Option Nat
  idbase : Word
  argva  : Word
  largs  : List Word
  deriving DecidableEq, Repr

/-- A launch (R173, R176, R184, R201, R43); `raised` names the tiles whose arrival lines an OFF gate has raised (R204). -/
structure Launch where
  tenant  : Nat
  queue   : Nat
  pos     : Nat
  desc    : LaunchDesc
  st      : LaunchSt := .queued
  handle  : BitVec 32 := 0
  prevH   : BitVec 32 := 0
  chain   : Nat := 0
  inherit : BitVec 32 := 0
  fresh   : Bool := false
  members : List Nat := []
  rows    : Nat := 0
  cols    : Nat := 0
  kind    : Nat := 0
  nominee : Option (BitVec 32) := none
  quietAt : Option (Nat × Nat) := none
  barOpen : Vector (BitVec 16) 4 := Vector.replicate 4 0
  phasers : Vector Phaser 8 := Vector.replicate 8 {}
  draining : Bool := false
  raised   : List Nat := []
  epoch   : Nat := 0
  helm    : Bool := false
  deriving DecidableEq, Repr

/-- A registered kernel (R168); `gone`: its handle has been unregistered (R176); `lost`: its initialised data cannot be read (R173). -/
structure Kernel where
  handle : BitVec 32
  tenant : Nat
  file   : KernelFile
  gone   : Bool := false
  lost   : Bool := false
  deriving DecidableEq, Repr

/-- A record of the completion ring or of the error ring, as bytes (R354). -/
abbrev RingRec := List Byte

/-- A tenant (R356) with its VF window (R353); `counts` are the tails of its launch queues, `hcounts` those of the helm's queues for it,
`recs` the trap records that the helm holds, with their tiles (R141, R342); `leaving`: its deletion has begun (R356). -/
structure Tenant where
  cfg      : TenantCfg
  pids     : List (BitVec 16)
  counts   : List Nat := List.replicate 16 0
  hcounts  : List Nat := List.replicate 16 0
  events   : List (Nat × BitVec 32) := []
  ringBase : Word := 0
  ringSize : Word := 0
  ringHead : Word := 0
  errBase  : Word := 0
  errSize  : Word := 0
  errHead  : Word := 0
  comps    : List RingRec := []
  errs     : List RingRec := []
  vectors  : List Nat := []
  gateRec  : Nat := 0
  arms     : Nat := 0
  leaving  : Bool := false
  recs     : List (Nat × Rec) := []
  deriving DecidableEq, Repr

/-- A cached translation (R258): PID, page base, log2 of the page size, leaf. -/
structure Tlb where
  pid  : BitVec 16
  base : Nat
  bits : Nat
  leaf : Word
  deriving DecidableEq, Repr

/-- What a translated request in service will do: raise a fault, or act at a physical address in a page of 2^bits bytes. -/
inductive Svc where
  | fault (tr : Trap)
  | place (pa bits : Nat)
  deriving DecidableEq, Repr

/-- A translation station with its halyard core's service queue (R258, R260, R371). -/
structure Station where
  cache : List Tlb := []
  rxq   : List GReq := []
  walk  : Option GReq := none
  held  : List GReq := []
  svc   : List (GReq × Svc) := []
  seals : List (BitVec 16 × Nat × Nat) := []
  deriving DecidableEq, Repr

/-- A PUSHT whose source beats are being read at their owners, or wait at the halyard core for room (R155, R264): its context, the
number of its reads, and the answers by beat. -/
structure Push where
  site  : Nat
  ctx   : Nat
  id    : Nat
  beats : List (Option Resp)
  deriving DecidableEq, Repr

/-- A SEAL or UNSEAL in progress (R261): range, requester, its pages (base and log2 of the size), stations that have not passed their seal point, acknowledgements still to come
(R292), and an uncorrectable word of the tables that kept a leaf from being written (R334). -/
structure SealOp where
  num    : Nat
  lifts  : Bool
  pid    : BitVec 16
  base   : Nat
  len    : Nat
  site   : Nat
  ctx    : Nat
  id     : Nat
  pages  : List (Nat × Nat) := []
  left   : List Nat
  acks   : Nat := 0
  bad    : Option Nat := none
  deriving DecidableEq, Repr

/-- What the helm sets outside any program: ROOTBASE (R255), the roots of the helm cores' own MMU (R355), AGE_LIMIT (R297), the
automatic interval (R321), dividers and voltages (R343), the level of a helm core (R265), the route table and the device's own number
(R309) (DESIGN CHOICE, log 60); the program of a halyard or helm core with its PID and start (DESIGN CHOICE, log 85); and what it finds
of a degraded HBM stack (R358) (DESIGN CHOICE, log 116). -/
inductive HelmWrite where
  | root (x : Nat)
  | helmRoot (site x : Nat)
  | program (site : Nat) (pid : BitVec 16) (pc : Word) (image : List Byte)
  | ageLimit (die n : Nat)
  | interval (die n : Nat)
  | divider (site k : Nat)
  | voltage (cluster mv : Nat)
  | level (site : Nat) (super : Bool)
  | route (dev a b : Nat)
  | device (n : Nat)
  | stackDegraded (k : Nat)
  deriving DecidableEq, Repr

/-- A power cluster (R45, R343, R345, R346); `mv` is its rail's voltage, `window` the last window of 128 cycles that was measured. -/
structure Cluster where
  mv     : Nat := 750
  budget : Nat := 0
  left   : Nat := 0
  any    : Bool := false
  peak   : Nat := 10000
  level  : Nat := 0
  window : Nat := 0
  deriving DecidableEq, Repr

/-- The power controller (R349); `rails`: dividers and voltages that take effect at the next interval boundary (R343). -/
structure Power where
  grant   : Nat := 1800
  next    : Nat := 1800
  seq     : Option (BitVec 32) := none
  expiry  : Option Nat := none
  clusters : List (Nat × Cluster) := []
  rails    : List HelmWrite := []
  deriving DecidableEq, Repr

/-- A Cassia record (R351): `time` in milliseconds since reset. Its CRC is that of its other bytes, under a CRC-32 that no rule gives in
full; `ok`: it checks (DESIGN CHOICE, log 49). -/
structure BootRec where
  boot    : Nat
  step    : Nat
  unit    : Nat
  outcome : Nat
  path    : Nat
  time    : BitVec 32 := 0
  ok      : Bool := true
  deriving DecidableEq, Repr

/-- An image in flash (R350, R352): kind, slot, version, whether its signature checks. -/
structure Image where
  kind : Nat
  slot : Nat
  ver  : Nat
  good : Bool
  deriving DecidableEq, Repr

/-- Health (R358). -/
inductive Health where
  | ok | degraded | replace
  deriving DecidableEq, Repr

/-- Boot, health and measurements (R350 to R358); `rootKey` is the fused digest of the root public key, under which `good` images are
signed (R352), `ignore` and `ignoreOpt` the boots up to which no alternate and no skip counts any more (R351), `asked` the cycles in which
the management port has reported REPLACE_REQUESTED (R358). -/
structure Boot where
  count    : Nat := 0
  journal  : List BootRec := []
  images   : List Image := []
  rollback : List (Nat × Nat) := []
  measures : List VWord := []
  reports  : List (List VWord × VWord) := []
  recovery : Bool := false
  stoppedAt : Option Nat := none
  ignore   : Nat := 0
  ignoreOpt : Nat := 0
  asked    : List Nat := []
  hbmOut   : List Nat := []
  portOut  : List Nat := []
  excluded : List Nat := []
  spare    : List (Nat × Nat) := []
  rootKey  : VWord := 0
  health   : Health := .ok
  deriving DecidableEq, Repr

/-- A Sumac session and its answers (R341, R342). -/
structure Session where
  num    : Nat
  who    : Client
  lastAt : Nat
  answers : List (Nat × Nat × List Word)
  deriving DecidableEq, Repr

/-- Sumac (R341, R342): its sessions, the groups that they stopped, what is set for the tiles of a launch that waits, the event log, the
clients whose certificate check failed, each answered DENIED, and the trap records of halyard and helm cores, which belong to no
tenant (R356). -/
structure Sumac where
  sessions : List Session := []
  nextNum  : Nat := 0
  stopped  : List (Nat × Nat) := []
  preset   : List (Nat × Nat × BitVec 8 × Bool) := []
  events   : List (Nat × Nat × Nat) := []
  denied   : List Client := []
  recs     : List (Nat × Rec) := []
  deriving DecidableEq, Repr

/-- An error of the storage: a corrected one of a tile, with its word (R332), numbered by its address / 8 in the scratchpad and from
49,152 on elsewhere; a failed self-test of the power switch or clock divider of a tile (R340); an unreadable data area of a registered
kernel (R173); an uncorrectable word of a scratchpad, of a register, of a bank, of a queue, of descriptor i of a channel, of message i of
a context's outbox or, beyond it, of those handed to the NI, or of another structure of a tile; one of HBM; a slot of the ballast die whose CRC fails; a record of the boot
journal whose CRC fails (R351). -/
inductive StoreErr where
  | fixed (site word : Nat)
  | selfTest (site : Nat)
  | scratch (site addr : Nat)
  | sreg (site : Nat) (ctx : Fin 4) (r : Fin 32)
  | vreg (site : Nat) (ctx : Fin 4) (r : Fin 32) (w : Fin 4)
  | bank (site word : Nat)
  | queue (site q entry : Nat)
  | desc (site : Nat) (ch : Fin 32) (i : Nat)
  | outbox (site : Nat) (ctx : Fin 4) (i : Nat)
  | other (site what : Nat)
  | hbm (addr : Nat)
  | data (handle : BitVec 32)
  | line (site l : Nat) (slotB : Bool)
  | block (site : Nat) (slotB : Bool)
  | word (site : Nat) (slotB : Bool)
  | journal (i : Nat)
  deriving DecidableEq, Repr

/-- What the next step does: an issue slot of a context, for a memory-stage access one that is served at once or one that is served
later (R268), an event, an error of the storage, or a setting of the helm (DESIGN CHOICE, log 55). -/
inductive Turn where
  | issue (site : Nat) (ctx : Fin 4)
  | late (site : Nat) (ctx : Fin 4)
  | event (i : Instr)
  | error (e : StoreErr)
  | helm (w : HelmWrite)
  deriving DecidableEq, Repr

/-- The module. `haltBits` names the tiles whose halted bit the NIs hold (R336), `helmRoots` the root of each helm core's own MMU (R355),
`qturn` is the launch queue that is served next (R172), `spanWait` the loads toward devices without a route (R309), `firing` the sends that
have fired and whose source is being read (R313), `settling` the leaf entries rewritten with MIG = 0 whose move no TLBI.H has ended
yet (R259). -/
structure State where
  sites    : List (Nat × Site) := []
  engines  : List (Nat × Engine) := []
  routers  : List (Nat × Router) := []
  ageLimit : List (Nat × Nat) := []
  marks    : List Nat := []
  haltBits : List Nat := []
  holdBuf  : List (Nat × Pkt) := []
  bridges  : Vector BridgeSt 8 := Vector.replicate 8 .up
  launches : List (Nat × Launch) := []
  kernels  : List Kernel := []
  tenants  : List (Nat × Tenant) := []
  nextH    : Nat := 0
  nextL    : Nat := 0
  qturn    : Nat := 0
  phq      : List (Nat × List PhReq) := []
  stations : List (Nat × Station) := []
  seals    : List SealOp := []
  pushes   : List Push := []
  root     : Nat := 0
  helmRoots : List (Nat × Nat) := []
  phys     : List Host.Cell := []
  badPhys  : List Nat := []
  settling : List Nat := []
  counters : List (Nat × Word) := []
  cntq     : List CntReq := []
  incs     : List (Nat × Nat) := []
  lent     : List (Nat × Nat) := []
  armed    : List Armed := []
  firing   : List Firing := []
  spans    : List (Nat × SpanPort) := []
  routes   : List (Nat × Nat × Nat) := []
  device   : Nat := 0
  xfers    : List Transfer := []
  incoming : List Incoming := []
  xrecs    : List XferRec := []
  spanWait : List (Nat × SpanLoad) := []
  nextX    : BitVec 32 := 0
  spanStop : Bool := false
  power    : Power := {}
  boot     : Boot := {}
  sumac    : Sumac := {}
  errors   : List ErrRec := []
  commitIv : List (Nat × Nat) := []
  cycle    : Nat := 0
  cur      : Nat × Fin 4 := (0, 0)
  agenda   : List Turn := []
  rrSite   : Nat := 0
  round    : Nat := 0
  interval : Nat := 0
  fresh    : Nat := 0
  deriving DecidableEq, Repr

/-- The module right after module reset (DESIGN CHOICE, logs 1 and 3). -/
def State.reset : State := {}

end Sys2Proof.Machine
end

