-- ==== Sys2Proof/Machine/Bits.lean ====
section
/-! DEFINITION. Bit fields, sign extension, lanes, sparse maps and byte memory: the helpers of R2 and R73 that carry no
machine state. -/

namespace Sys2Proof.Machine

/-- x[lo + n - 1 : lo] as a number (R2). -/
def bits (x lo n : Nat) : Nat := x / 2 ^ lo % 2 ^ n

/-- Bit n of x. -/
def bit (x n : Nat) : Bool := x / 2 ^ n % 2 == 1

/-- The signed value of the low n bits (sext of R73). -/
def sext (x : Nat) (n : Nat) : Int :=
  let y := x % 2 ^ n
  if 2 * y < 2 ^ n then (y : Int) else (y : Int) - 2 ^ n

/-- The n-bit pattern of an exact integer (trunc of R73). -/
def trunc (x : Int) (n : Nat) : Nat := (x % 2 ^ n).toNat

/-- sat of R73. -/
def sat (x lo hi : Int) : Int := if x < lo then lo else if hi < x then hi else x

/-- 1 or 0. -/
def b2n (b : Bool) : Nat := if b then 1 else 0

/-- f of every component. -/
def vmap {α β : Type} {n : Nat} (f : α → β) (v : Vector α n) : Vector β n := Vector.ofFn fun i => f v[i]

/-- A word from an exact integer. -/
def word (x : Int) : Word := BitVec.ofInt 64 x

/-- lane(v, w, i) of R73 as a number. -/
def lane (v : VWord) (w i : Nat) : Nat := v.toNat / 2 ^ (w * i) % 2 ^ w

/-- The register whose lane i, of n lanes of w bits, is f i, lanes beyond n being zero. -/
def ofLanes (w : Nat) (f : Nat → Nat) : Nat → Nat
  | 0 => 0
  | n + 1 => ofLanes w f n + (f n % 2 ^ w) * 2 ^ (w * n)

/-- A vector register from its lanes. -/
def mkLanes (w n : Nat) (f : Nat → Nat) : VWord := BitVec.ofNat 256 (ofLanes w f n)

/-- Bytes of x where the byte lane is enabled, bytes of old elsewhere (R55). -/
def mergeBytes (en : Nat → Bool) (old x : VWord) : VWord :=
  mkLanes 8 32 fun i => if en i then lane x 8 i else lane old 8 i

/-! Sparse maps: lists of key and value pairs. -/

def mapGet? {α : Type} : List (Nat × α) → Nat → Option α
  | [], _ => none
  | (k, x) :: r, i => if k = i then some x else mapGet? r i

def mapErase {α : Type} (m : List (Nat × α)) (i : Nat) : List (Nat × α) := m.filter fun e => e.1 ≠ i

def mapInsert {α : Type} : List (Nat × α) → Nat → α → List (Nat × α)
  | [], i, x => [(i, x)]
  | (k, y) :: r, i, x => if i < k then (i, x) :: (k, y) :: r else (k, y) :: mapInsert r i x

def mapPut {α : Type} (m : List (Nat × α)) (i : Nat) (x : α) : List (Nat × α) := mapInsert (mapErase m i) i x

def mapGetD {α : Type} (m : List (Nat × α)) (i : Nat) (d : α) : α := (mapGet? m i).getD d

/-! Byte memory in canonical form: addresses strictly rising, no byte that equals an unlisted one. -/

/-- What an unlisted address reads as (DESIGN CHOICE, log 2). -/
def memDefault : Byte := 0

/-- The canonical form. -/
def Memory.wf : List Host.Cell → Bool
  | [] => true
  | [(_, b)] => b != memDefault
  | (k, b) :: (k', b') :: r => b != memDefault && k < k' && Memory.wf ((k', b') :: r)

def memGet (m : List Host.Cell) (a : Nat) : Byte := mapGetD m a memDefault

def memSet (m : List Host.Cell) (a : Nat) (b : Byte) : List Host.Cell :=
  if b = memDefault then mapErase m a else mapPut m a b

/-- n bytes from a, little-endian (R2). -/
def memRead (m : List Host.Cell) (a : Nat) : Nat → Nat
  | 0 => 0
  | n + 1 => (memGet m a).toNat + 256 * memRead m (a + 1) n

/-- The bytes themselves. -/
def memBytes (m : List Host.Cell) (a : Nat) : Nat → List Byte
  | 0 => []
  | n + 1 => memGet m a :: memBytes m (a + 1) n

/-- The low n bytes of x to a, little-endian (R2). -/
def memWrite (m : List Host.Cell) (a : Nat) : Nat → Nat → List Host.Cell
  | 0, _ => m
  | n + 1, x => memWrite (memSet m a (BitVec.ofNat 8 x)) (a + 1) n (x / 256)

/-- A list of bytes to a. -/
def memPut (m : List Host.Cell) (a : Nat) : List Byte → List Host.Cell
  | [] => m
  | b :: r => memPut (memSet m a b) (a + 1) r

/-- Little-endian value of a list of bytes. -/
def leVal : List Byte → Nat
  | [] => 0
  | b :: r => b.toNat + 256 * leVal r

/-- A list of bytes cut into 32-byte beats. -/
def toBeats (n : Nat) (bs : List Byte) : List VWord :=
  (List.range n).map fun j => BitVec.ofNat 256 (leVal ((bs.drop (32 * j)).take 32))

/-- The bytes of beats. -/
def ofBeats (vs : List VWord) : List Byte := vs.flatMap fun v => leBytes' 32 v.toNat
where
  leBytes' : Nat → Nat → List Byte
    | 0, _ => []
    | n + 1, w => BitVec.ofNat 8 w :: leBytes' n (w / 256)

/-- Insertion into a list of numbers without repeats, rising. -/
def setAdd : List Nat → Nat → List Nat
  | [], x => [x]
  | y :: r, x => if x = y then y :: r else if x < y then x :: y :: r else y :: setAdd r x

end Sys2Proof.Machine
end

