-- ==== Sys2Proof/Machine/Ops.lean ====
section
/-! DEFINITION. The named operations over sites, contexts and registers; completing an instruction; taking a trap (R141) and
the end of the trap sequence (R142); the local accesses of R75. -/

namespace Sys2Proof.Machine

/-- The result of an instruction or event. -/
abbrev Result := Host.Outcome State Fault Refusal

/-! Sites and contexts. -/

def State.site (s : State) (t : Nat) : Site := mapGetD s.sites t {}

def State.setSite (s : State) (t : Nat) (x : Site) : State := { s with sites := mapPut s.sites t x }

def State.modSite (s : State) (t : Nat) (f : Site → Site) : State := s.setSite t (f (s.site t))

def State.modCore (s : State) (t : Nat) (f : Core → Core) : State :=
  s.modSite t fun x => { x with core := f x.core }

def State.ctxAt (s : State) (t : Nat) (c : Fin 4) : Ctx := (s.site t).core.ctxs[c]

def State.setCtxAt (s : State) (t : Nat) (c : Fin 4) (x : Ctx) : State :=
  s.modCore t fun k => { k with ctxs := k.ctxs.set c x }

def State.modCtxAt (s : State) (t : Nat) (c : Fin 4) (f : Ctx → Ctx) : State := s.setCtxAt t c (f (s.ctxAt t c))

/-- The context whose instruction runs. -/
def State.ctx (s : State) : Ctx := s.ctxAt s.cur.1 s.cur.2

def State.setCtx (s : State) (x : Ctx) : State := s.setCtxAt s.cur.1 s.cur.2 x

def State.modCtx (s : State) (f : Ctx → Ctx) : State := s.setCtx (f s.ctx)

/-- The site whose instruction runs. -/
def State.me (s : State) : Site := s.site s.cur.1

/-- The agents of the part (R4, R9, R14). -/
def isTile (t : Nat) : Bool := t < Config.tiles
def isHalyard (t : Nat) : Bool := Config.tiles ≤ t && t < Config.tiles + Config.halyards
def isHelm (t : Nat) : Bool :=
  Config.tiles + Config.halyards ≤ t && t < Config.tiles + Config.halyards + Config.helms
def isSite (t : Nat) : Bool := t < Config.tiles + Config.halyards + Config.helms

/-- The site has power and its clock runs: no power loss (R323), and no gate state that opens the switch (R325). -/
def Site.up (x : Site) : Bool :=
  x.powered && (match x.gate.st with
    | .sleep | .off | .waking => false
    | _ => true)

/-- An event at site t in any power state; at an agent that the part does not have nothing happens (DESIGN CHOICE, log 10). -/
def atAny (t : Nat) (s : State) (f : State → State) : Result :=
  if isSite t then .next (f s) else .next s

/-- An event that site t performs itself: it does nothing without power (DESIGN CHOICE, log 10). -/
def atSite (t : Nat) (s : State) (f : State → State) : Result :=
  atAny t s fun s => if (s.site t).up then f s else s

/-- An event in which the NI of site t serves what has arrived: during a move it holds all of it until the new tile runs (R42). -/
def atNi (t : Nat) (s : State) (f : State → State) : Result :=
  atSite t s fun s => if (s.site t).newTile then s else f s

/-- An event at context c of site t. -/
def atCtx (t c : Nat) (s : State) (f : Fin 4 → State → State) : Result :=
  if h : c < 4 then atSite t s (f ⟨c, h⟩) else .next s

/-! Registers. s0 reads zero and is not written, p0 reads all ones and is not written (R87, R95). -/

def Ctx.sreg (c : Ctx) (i : Fin 32) : Word := if i = 0 then 0 else c.s[i]

/-- A write of a scalar register; it repairs the word (R334). -/
def Ctx.setS (c : Ctx) (i : Fin 32) (x : Word) : Ctx :=
  if i = 0 then c else { c with s := c.s.set i x, badS := c.badS.filter (· != i.val) }

def Ctx.vreg (c : Ctx) (i : Fin 32) : VWord := c.v[i]

/-- A write of the byte lanes of a vector register that m admits; it repairs the words that it covers (R334). -/
def Ctx.putV (c : Ctx) (i : Fin 32) (x : VWord) (m : Nat → Bool) : Ctx :=
  { c with v := c.v.set i x,
           badV := c.badV.filter fun w => !(w / 4 == i.val && (List.range 8).all fun j => m (8 * (w % 4) + j)) }

def Ctx.setV (c : Ctx) (i : Fin 32) (x : VWord) : Ctx := c.putV i x fun _ => true

/-- The predicate that a 5-bit field names. -/
def pnum (i : Fin 32) : Fin 8 := ⟨i.val % 8, by omega⟩

def Ctx.pval (c : Ctx) (i : Fin 8) : BitVec 32 := if i = 0 then 0xFFFFFFFF else c.p[i]

def Ctx.preg (c : Ctx) (i : Fin 32) : BitVec 32 := c.pval (pnum i)

def Ctx.setP (c : Ctx) (i : Fin 32) (x : BitVec 32) : Ctx :=
  if pnum i = 0 then c else { c with p := c.p.set (pnum i) x }

/-- ORs flags into SY.FLAGS (flag of R73). Bits: NX 0, UF 1, OF 2, DZ 3, IV 4 (R148). -/
def Ctx.orFlags (c : Ctx) (f : BitVec 5) : Ctx := { c with flags := c.flags ||| f }

/-! The prefix (R55). -/

/-- The condition bit; true without a prefix. -/
def Ctx.cond (c : Ctx) : Bool :=
  match c.pfx with
  | none => true
  | some (p, sense) => (c.pval p).getLsbD 0 ^^ sense

/-- enabled(i) of R73. -/
def Ctx.enabled (c : Ctx) (i : Nat) : Bool :=
  match c.pfx with
  | none => true
  | some (p, sense) => (c.pval p).getLsbD i ^^ sense

/-- The enabled byte lanes as a mask. -/
def Ctx.laneMask32 (c : Ctx) : BitVec 32 :=
  match c.pfx with
  | none => BitVec.allOnes 32
  | some (p, sense) => c.pval p ^^^ (if sense then BitVec.allOnes 32 else 0)

/-- A masked write of a vector register. -/
def Ctx.setVm (c : Ctx) (i : Fin 32) (x : VWord) : Ctx := c.putV i (mergeBytes c.enabled (c.vreg i) x) c.enabled

/-- The address of the instruction itself: behind its prefix if it has one. -/
def Ctx.ipc (c : Ctx) : Word := c.pc + (if c.pfx.isSome then 2 else 0)

/-! Completing an instruction. -/

/-- One loop level at whose last instruction the context stands (R92): the level after it and where to go back to. -/
def LoopLevel.turn (l : LoopLevel) : LoopLevel × Option Word :=
  let lc := l.lc - 1
  let l' := { l with lc := lc, li := l.li + l.step }
  if lc = 0 then ({ l' with active := false }, none) else (l', some l.start)

/-- The pc and the loop levels after the instruction at pc has completed without a taken transfer: inner level first, the
outer one only when the inner frees or does not end here (R92, R93). -/
def Ctx.fallThrough (c : Ctx) (nxt : Word) : Ctx :=
  let l1 := c.lp[1]
  let r1 := if l1.active && l1.last == c.pc then l1.turn else (l1, none)
  match r1.2 with
  | some back => { c with lp := c.lp.set 1 r1.1, pc := back }
  | none =>
    let l0 := c.lp[0]
    let r0 := if l0.active && l0.last == c.pc then l0.turn else (l0, none)
    { c with lp := (c.lp.set 1 r1.1).set 0 r0.1, pc := r0.2.getD nxt }

/-- The context after its instruction of n bytes. -/
def Ctx.advance (c : Ctx) (n : Nat) : Ctx :=
  { (c.fallThrough (c.ipc + BitVec.ofNat 64 n)) with pfx := none, st := .running, wait := .none }

/-- Frees a level whose body does not hold the target (R94). -/
def LoopLevel.leave (l : LoopLevel) (t : Word) : LoopLevel :=
  if l.active && !(l.start.toNat ≤ t.toNat && t.toNat ≤ l.last.toNat) then { l with active := false, lc := 0 } else l

/-- The context after a taken transfer to t (R94). -/
def Ctx.jump (c : Ctx) (t : Word) : Ctx :=
  { c with lp := (c.lp.set 1 (c.lp[1].leave t)).set 0 (c.lp[0].leave t), pc := t, pfx := none, st := .running,
           wait := .none }

/-- Frees both levels. -/
def Ctx.freeLoops (c : Ctx) : Ctx :=
  { c with lp := vmap (fun l => { l with active := false, lc := 0 }) c.lp }

/-- The state after an instruction of n bytes that leaves its context as c. -/
def State.done (s : State) (n : Nat) (c : Ctx) : State := s.setCtx (c.advance n)

/-- A wait for another issue; it keeps the cycle in which it began. -/
def Wait.again (w : Wait) (now : Nat) : Wait :=
  match w with
  | .retry t => .retry t
  | .none => .retry now
  | .resp _ _ _ _ => .retry now

/-- A stall: the instruction stays at its pc and issues again (R139). -/
def State.stall (s : State) : State :=
  s.modCtx fun c => { c with st := .stalled, wait := c.wait.again s.cycle, pfx := none }

/-! Fetching. -/

/-- The halfword at a, inside the code image (R47, R90). -/
def Site.half (x : Site) (a : Nat) : Option Nat :=
  if a + 2 ≤ x.imgSize then some (memRead x.istore a 2) else none

/-- Word 6 of a trap record: the encoding at a (R142). -/
def Site.rawAt (x : Site) (a : Nat) : Nat :=
  match x.half a with
  | none => 0
  | some lo =>
    if lo % 8 = 7 then lo + 65536 * ((x.half (a + 2)).getD 0)
    else lo

/-- A prefix is a PFX halfword; version 1 has none (R72). -/
def Site.rawPair (x : Site) (a : Nat) : Nat :=
  match x.half a with
  | none => 0
  | some lo => if lo % 8 = 6 && decide (2 ≤ x.krn.ver) then lo + 65536 * x.rawAt (a + 2) else x.rawAt a

/-! Message header words (R32). -/

def hdrRetry (h : Word) : Nat := bits h.toNat 40 8
def hdrChan (h : Word) : Nat := bits h.toNat 8 5
def hdrBeats (h : Word) : Nat := bits h.toNat 13 6
def hdrBumpRetry (h : Word) : Word :=
  if hdrRetry h = 255 then h else h + 0x10000000000

/-- A header word from its fields. -/
def mkHdr (id kind source beats chan : Nat) : Word :=
  BitVec.ofNat 64 (id * 2 ^ 48 + kind * 2 ^ 38 + source * 2 ^ 19 + beats * 2 ^ 13 + chan * 2 ^ 8)

/-! Handler-table entries (R27). -/

def entPeak (e : Word) : Nat := bits e.toNat 52 12
def entEnergy (e : Word) : Nat := bits e.toNat 36 16
def entWeight (e : Word) : Nat := bits e.toNat 32 4
def entVc (e : Word) : Nat := bits e.toNat 30 2
def entPersist (e : Word) : Bool := bit e.toNat 29
def entSerial (e : Word) : Bool := bit e.toNat 28
def entMask (e : Word) : Bool := bit e.toNat 27
def entBlocked (e : Word) : Bool := bit e.toNat 26
def entPrio (e : Word) : Nat := bits e.toNat 24 2
def entEntry (e : Word) : Nat := bits e.toNat 0 24

/-- Writes bit n of an entry. -/
def setEntBit (e : Word) (n : Nat) (b : Bool) : Word :=
  if b then e ||| BitVec.ofNat 64 (2 ^ n) else e &&& ~~~ (BitVec.ofNat 64 (2 ^ n))

def chanFin (ch : Nat) : Fin 32 := ⟨ch % 32, by omega⟩

def Site.entry (x : Site) (ch : Nat) : Word := x.core.htab[chanFin ch]

/-- Channel 31 has a handler (R28): its MASK bit is written only at load (DEDUCED, log 19). -/
def Site.traps (x : Site) : Bool := !entMask (x.entry 31)

/-- Sets the event latches (R150). -/
def Core.wake (k : Core) : Core := { k with ctxs := vmap (fun c => { c with latch := true }) k.ctxs }

/-! Link engines of a tile (R216). Port codes: 0 north, 1 east, 2 south, 3 west. -/

/-- Row, column, die plane of a tile number. -/
def tileX (t : Nat) : Nat := t % 32
def tileY (t : Nat) : Nat := t / 32 % 32
def tileDie (t : Nat) : Nat := t / 1024

/-- The tile across a port, if the die has one there. -/
def portTile (t p : Nat) : Option Nat :=
  match p with
  | 0 => if tileY t = 0 then none else some (t - 32)
  | 1 => if tileX t = 31 then none else some (t + 1)
  | 2 => if tileY t = 31 then none else some (t + 32)
  | _ => if tileX t = 0 then none else some (t - 1)

/-- Rank of the link on a port (R216). -/
def portRank (t p : Nat) : Nat :=
  match p with
  | 0 => 992 + (tileY t - 1) * 32 + tileX t
  | 1 => tileY t * 31 + tileX t
  | 2 => 992 + tileY t * 32 + tileX t
  | _ => tileY t * 31 + (tileX t - 1)

/-- Engine number: 1,984 per die plane. -/
def portEngine (t p : Nat) : Nat := tileDie t * 1984 + portRank t p

/-- The west or north end is the left one. -/
def portLeft (p : Nat) : Bool := p = 1 || p = 2

def State.engine (s : State) (e : Nat) : Engine := mapGetD s.engines e {}
def State.setEngine (s : State) (e : Nat) (x : Engine) : State := { s with engines := mapPut s.engines e x }

def Engine.fin (x : Engine) (left : Bool) : EngEnd := if left then x.left else x.right
def Engine.setFin (x : Engine) (left : Bool) (y : EngEnd) : Engine :=
  if left then { x with left := y } else { x with right := y }

def StreamSt.broken : StreamSt → Bool
  | .config | .skip | .preempt | .abort | .length => true
  | _ => false

/-- The rank, and the tiles at the left and right ends, of engine e. -/
def engRank (e : Nat) : Nat := e % 1984
def engLeft (e : Nat) : Nat :=
  let r := e % 1984
  let d := e / 1984
  if r < 992 then d * 1024 + (r / 31) * 32 + r % 31 else d * 1024 + (r - 992)
def engRight (e : Nat) : Nat := if e % 1984 < 992 then engLeft e + 1 else engLeft e + 32

/-- Ports by which the two ends reach engine e. -/
def engPort (e : Nat) (left : Bool) : Fin 4 :=
  if e % 1984 < 992 then (if left then 1 else 3) else (if left then 2 else 0)

/-- Tells an end's context the state of the stream (R221); an activation that is over is told nothing. -/
def State.tellEnd (s : State) (e : Nat) (left : Bool) (f : StreamStat → StreamStat) : State :=
  let y := (s.engine e).fin left
  match (if y.orphan then none else y.held) with
  | some (t, c) =>
    let c' : Fin 4 := ⟨c % 4, by omega⟩
    s.modCtxAt t c' fun x =>
      { x with status := x.status.set (engPort e left) (f x.status[engPort e left]) }
  | none => s

def State.tellEnds (s : State) (e : Nat) (f : StreamStat → StreamStat) : State :=
  (s.tellEnd e true f).tellEnd e false f

/-- Some cell's overflow flag is set (R108, R109, R221). -/
def Engine.overflowed (x : Engine) : Bool := x.anyOvf || !x.clamped.isEmpty

/-- An end becomes held for a new stream. -/
def freshEnd (h : Option (Nat × Nat)) (l : SkList) (ver : Nat) : EngEnd := { held := h, list := l, ver := ver }

/-- The MXOPEN of a claimed end has reached the engine (R250). -/
def EngEnd.opened (y : EngEnd) : Bool := y.claim.isSome && !y.cmds.any fun c => c.2 == .opens

/-- Both ends released: the engine is IDLE, or HALF_OPEN for the claimed ends (R220, R249). -/
def Engine.settle (x : Engine) : Engine :=
  if x.st.broken && x.left.held.isNone && x.right.held.isNone then
    let pick (y : EngEnd) : EngEnd :=
      if y.opened then { y with held := y.claim, claim := none } else if y.claim.isSome then y else {}
    { st := if x.left.opened || x.right.opened then .halfOpen else .idle, left := pick x.left, right := pick x.right }
  else x

/-- The FIFO of an end of a stream that breaks is emptied; the beats of an end that is only claimed are those of the next stream (R220,
R249). -/
def EngEnd.emptied (y : EngEnd) : EngEnd := if y.claim.isSome then y else { y with fifo := [] }

/-- The engine with the stream's FIFOs emptied and nothing to deliver, in state st. -/
def Engine.halted (x : Engine) (st : StreamSt) : Engine :=
  { x with st := st, left := x.left.emptied, right := x.right.emptied, pending := none, sent := false, parting := none }

/-- The engine settles; a claimed end that had configured twice breaks its own stream (R236). -/
def State.settleEngine (s : State) (e : Nat) : State :=
  let x := (s.engine e).settle
  let s := s.setEngine e x
  if x.st == .halfOpen && (x.left.recfg || x.right.recfg) then
    (s.setEngine e (x.halted .config)).tellEnds e fun y => { y with st := .config }
  else s

/-- The engine releases a broken end whose activation is over. -/
def Engine.shed (x : Engine) : Engine :=
  let drop := fun (y : EngEnd) => if y.orphan then ({} : EngEnd) else y
  if x.st.broken then { x with left := drop x.left, right := drop x.right } else x

/-- Breaks a stream: FIFOs emptied, both ends told, no delivery (R220, R248). -/
def State.breakStream (s : State) (e : Nat) (st : StreamSt) : State :=
  let x := s.engine e
  let s := (s.setEngine e (x.halted st)).tellEnds e fun y => { y with st := st, kdone := x.kdone, ovf := x.overflowed }
  (s.setEngine e (s.engine e).shed).settleEngine e

/-- Releases an end that holds a broken stream; a claim of the next stream keeps its own record. -/
def State.releaseEnd (s : State) (e : Nat) (left : Bool) : State :=
  let x := s.engine e
  let y := x.fin left
  (s.setEngine e (x.setFin left (if y.claim.isSome then { y with held := none } else {}))).settleEngine e

/-- The MXOPEN of a claimed end reaches its engine: where no stream is broken it holds the end (R220). -/
def State.openNow (s : State) (e : Nat) (left : Bool) : State :=
  let x := s.engine e
  let y := x.fin left
  if x.st.broken || y.claim.isNone then s
  else s.setEngine e { x.setFin left { y with held := y.claim, claim := none } with st := if x.st = .idle then .halfOpen else x.st }

/-- A MXOPEN, MXCFG or MXCLOSE of one end reaches the engine (R220, R236, R242). One MXOPEN finds no broken stream and holds the end; a
second MXCFG breaks the stream; a MXCLOSE closes the end, and a STREAMING stream is CLOSING. A broken stream takes commands of a
claimed end alone, and one that a quiesce has stopped takes none: that came first (R229, R250). -/
def State.engineCmd (e : Nat) (left : Bool) (s : State) (c : EngCmd) : State :=
  let x := s.engine e
  let y := x.fin left
  if ((x.st.broken || y.held.isNone) && y.claim.isNone) || x.parting.isSome then s
  else
    match c with
    | .opens => s.openNow e left
    | .cfg w m =>
      if y.cfg.isNone then s.setEngine e (x.setFin left { y with cfg := some w, mask := m })
      else if y.claim.isSome then s.setEngine e (x.setFin left { y with recfg := true })
      else s.breakStream e .config
    | .close =>
      let x' := x.setFin left { y with closed := true }
      if x.st = .streaming then (s.setEngine e { x' with st := .closing }).tellEnds e fun y => { y with st := .closing }
      else s.setEngine e x'

/-- Commands of an end that have reached the engine by cycle n, and the end without them. -/
def EngEnd.due (y : EngEnd) (n : Nat) : List EngCmd := (y.cmds.filter fun c => decide (c.1 ≤ n)).map (·.2)
def EngEnd.taken (y : EngEnd) (n : Nat) : EngEnd := { y with cmds := y.cmds.filter fun c => !decide (c.1 ≤ n) }

/-- What has reached engine e by cycle n takes effect, in the order of its issue (R250). -/
def State.engineArrivals (n : Nat) (s : State) (e : Nat) : State :=
  let x := s.engine e
  if (x.left.due n).isEmpty && (x.right.due n).isEmpty then s
  else
    let s := s.setEngine e { x with left := x.left.taken n, right := x.right.taken n }
    (x.right.due n).foldl (State.engineCmd e false) ((x.left.due n).foldl (State.engineCmd e true) s)

/-- The claim of an end that its activation, tile or quiesce gives up: on an engine without a broken stream its MXOPEN counts as arrived,
so that the stream breaks at both ends (R220, R249, R250); beside a broken stream the claim goes. -/
def State.settleClaim (s : State) (e : Nat) (left : Bool) : State :=
  let x := s.engine e
  if x.st.broken then s.setEngine e (x.setFin left {}) else s.openNow e left

/-- The end of an activation at one port (R141, R180, R220): an end that it holds is broken and released, unless both ends
have closed or a pre-emption waits for its PARTIAL delivery, when the engine releases it itself. -/
def State.dropPort (s : State) (t : Nat) (c : Fin 4) (p : Nat) : State :=
  match portTile t p with
  | none => s
  | some _ =>
    let e := portEngine t p
    let left := portLeft p
    let s := if ((s.engine e).fin left).claim = some (t, c.val) then s.settleClaim e left else s
    let x := s.engine e
    let y := x.fin left
    if y.held ≠ some (t, c.val) || y.orphan then s
    else if (x.left.closed && x.right.closed && !x.st.broken) || x.parting.isSome then
      s.setEngine e ((s.engine e).setFin left { y with orphan := true })
    else
      let s := if x.st.broken then s else s.breakStream e .abort
      s.releaseEnd e left

def State.dropStreams (s : State) (t : Nat) (c : Fin 4) : State :=
  (((s.dropPort t c 0).dropPort t c 1).dropPort t c 2).dropPort t c 3

/-! Semaphores (R198). -/

/-- One pass over the waiters in their order (R198): a semaphore whose head waiter is not covered holds the others back. -/
def semPass (k : Core) : List (Nat × Nat × Nat) → List Nat → List (Nat × Nat × Nat) → Core
  | [], _, kept => { k with waiters := kept.reverse }
  | w :: r, stuck, kept =>
    let i : Fin 16 := ⟨w.1 % 16, by omega⟩
    let c : Fin 4 := ⟨w.2.1 % 4, by omega⟩
    if !stuck.contains w.1 && decide (w.2.2 ≤ k.sem[i].toNat) && k.ctxs[c].st = .stalled then
      semPass { k with sem := k.sem.set i (k.sem[i] - BitVec.ofNat 32 w.2.2), ctxs := k.ctxs.set c (k.ctxs[c].advance 4) }
        r stuck kept
    else semPass k r (w.1 :: stuck) (w :: kept)

def Core.semServe (k : Core) : Core := semPass k k.waiters [] []

/-! Taking a trap (R141, R142). -/

/-- The trap record of context c of site t. The message header in word 2 is that of the activation, before RETRY's increment, which
word 0 shows after it (DEDUCED, log 102). -/
def trapRec (x : Site) (y : Ctx) (c : Fin 4) (cycle : Nat) (tr : Trap) : Rec :=
  let retry := hdrRetry (hdrBumpRetry y.hdr)
  [BitVec.ofNat 64 (y.flags.toNat * 2 ^ 48 + tr.code.toNat * 2 ^ 32 + retry * 2 ^ 24 + y.chan * 2 ^ 16 +
      c.val * 2 ^ 8 + tr.cause.toNat),
   y.pc, y.hdr, tr.w3, tr.w4, tr.w5, BitVec.ofNat 64 (x.rawPair y.pc.toNat), BitVec.ofNat 64 cycle]

/-- Cluster of a tile: one row segment of 16 tiles (R15). What runs for a migrated tile counts in the cluster of its logical number
(DESIGN CHOICE, log 84). -/
def clusterOf (t : Nat) : Nat := t / 16

/-- A message returned for context c: held, with RETRY increased (R141, R153). -/
def Desc.returned (d : Desc) (c : Nat) : Desc :=
  { d with runBy := none, held := true, heldBy := some c, hdr := hdrBumpRetry d.hdr }

/-- The message of context c goes back to its queue. Of two messages of one channel that are both returned, the one that arrived
first stands first (R39), whichever trap came last (R141) (DESIGN CHOICE, log 62). -/
def holdMsg (c : Nat) (q : List Desc) : List Desc := q.map fun d => if d.runBy = some c then d.returned c else d

/-- A message that a RETIRE had consumed goes back to its place (R180, R141) (DESIGN CHOICE, log 63). -/
def putBack (d : Desc) : List Desc → List Desc
  | [] => [d]
  | e :: r => if d.entry < e.entry then d :: e :: r else e :: putBack d r

/-- The recovery policy of a tenant: ROLLBACK by default (R335). -/
def State.rollsBack (s : State) (n : Nat) : Bool := ((mapGet? s.tenants n).map fun x => x.cfg.rollback).getD true

/-- An error record that concerns no tile: structure `what`, address (R335) (DESIGN CHOICE, log 100). -/
def State.helmError (s : State) (what addr : Nat) : State :=
  { s with errors := s.errors ++ [{ tile := Config.tiles, what := what, addr := addr, cycle := s.cycle }] }

/-- The helm receives an error record of site t (R335, R342); under ROLLBACK it owes a tile a rollback. -/
def State.errRecord (s : State) (t what addr : Nat) : State :=
  let e : ErrRec := { tile := t, what := what, addr := addr, cycle := s.cycle }
  let s := { s with errors := s.errors ++ [e],
                    sumac := { s.sumac with events := s.sumac.events ++ [(4, t, s.cycle)] } }
  s.modSite t fun x => { x with rollback := x.rollback || (isTile t && s.rollsBack x.krn.tenant) }

/-- Request id of context c of site t is a VLD that is parked at an owner. -/
def FarReq.by (r : FarReq) (t c id : Nat) : Bool := r.site == t && r.ctx == c && r.id == id

/-- The wait of context c of site t for request id is over without its answer: a parked VLD leaves its owner's list (R252) (DEDUCED,
log 101), any other far request is outstanding until it is answered (R43). -/
def State.endWait (s : State) (t : Nat) (c : Fin 4) (id : Nat) (far : Bool) : State :=
  if s.sites.any fun e => e.2.core.parked.any (·.by t c.val id) then
    { s with sites := s.sites.map fun (e : Nat × Site) =>
        (e.1, { e.2 with core := { e.2.core with parked := e.2.core.parked.filter fun r => !r.by t c.val id } }) }
  else if far then s.modCtxAt t c fun y => { y with lost := y.lost ++ [id] }
  else s

/-- The context stops waiting for an answer, if it does. -/
def State.dropWait (s : State) (t : Nat) (c : Fin 4) : State :=
  match (s.ctxAt t c).wait with
  | .resp id _ _ owner => s.endWait t c id owner.isSome
  | _ => s

/-- The abort of R141 for context c of site t, up to the record: the context is TRAPPED (DESIGN CHOICE, log 18). Messages of a
RETIRE whose commit word is not written are discarded with the outbox (R20), and the waiters behind a SEMWAIT that ends are
served (R198); what that RETIRE counted in SY.MXOVF is taken back, since the retried activation counts it again (R244) (DEDUCED, log 99).
A PHSIG that waits at the sync engine stays there and is counted later (DESIGN CHOICE, log 97). -/
def State.trapAt (s : State) (t : Nat) (c : Fin 4) (tr : Trap) : State :=
  let s := match tr.own with
    | some o => s.errRecord t o.1 o.2
    | none => s
  let y := s.ctxAt t c
  let r := trapRec (s.site t) y c s.cycle tr
  let s := (s.dropWait t c).dropStreams t c
  let s := { s with pushes := s.pushes.filter fun p => !(p.site == t && p.ctx == c.val) }
  let s := s.modCtxAt t c fun y =>
    { y.freeLoops with st := .trapped, wait := .none, pfx := none, outbox := [], heldOvf := 0, trap := some r,
                       hold := false, persisted := none, ending := none, counted := 0, atBrk := false }
  s.modCore t fun k =>
    let q := holdMsg c.val k.chq[chanFin y.chan]
    let q := match y.ending with
      | some d => putBack (d.returned c.val) q
      | none => q
    { k with chq := k.chq.set (chanFin y.chan) q, pend := k.pend.filter fun p => p.ctx != some c.val,
             mxovf := BitVec.ofNat 32 (k.mxovf.toNat - y.counted),
             waiters := k.waiters.filter fun w => w.2.1 ≠ c.val }.semServe

/-- A precise trap of the running context (fault of R73). -/
def State.raise (s : State) (tr : Trap) : State := s.trapAt s.cur.1 s.cur.2 tr

/-! Causes of R143. -/

def cILLEGAL : BitVec 8 := 0x01
def cPRIV : BitVec 8 := 0x02
def cALIGN : BitVec 8 := 0x03
def cRANGE : BitVec 8 := 0x04
def cSTRADDLE : BitVec 8 := 0x05
def cSEALED : BitVec 8 := 0x06
def cPAGE : BitVec 8 := 0x07
def cACCESS : BitVec 8 := 0x08
def cECC : BitVec 8 := 0x09
def cVFULL : BitVec 8 := 0x0A
def cVGONE : BitVec 8 := 0x0B
def cQWAIT : BitVec 8 := 0x0C
def cRANK : BitVec 8 := 0x0D
def cACC : BitVec 8 := 0x0E
def cGATED : BitVec 8 := 0x0F
def cPHASE : BitVec 8 := 0x10
def cINHERIT : BitVec 8 := 0x11
def cWATCHDOG : BitVec 8 := 0x12
def cBREAK : BitVec 8 := 0x13
def cSOFT : BitVec 8 := 0x14
def cOUTBOX : BitVec 8 := 0x15

/-! Memory of a site. -/

/-- Lines of 256 bytes touched by n bytes at a (R318). -/
def linesOf (a n : Nat) : List Nat := if n = 0 then [] else (List.range ((a + n - 1) / 256 - a / 256 + 1)).map (· + a / 256)

/-- Bytes written to a site's scratchpad: lines dirty (R318), the bad words they touch repaired (R334, R186). -/
def Site.store (x : Site) (a : Nat) (bs : List Byte) : Site :=
  { x with mem := memPut x.mem a bs,
           ballast := { x.ballast with dirty := (linesOf a bs.length).foldl setAdd x.ballast.dirty },
           bad := x.bad.filter fun w => !(w < a + bs.length && a < w + 8) }

/-- The address of the first uncorrectable word that n bytes at a touch (R332, R333). -/
def Site.badIn (x : Site) (a n : Nat) : Option Nat := x.bad.find? fun w => decide (0 < n) && decide (w < a + n) && decide (a < w + 8)

/-- An ECC trap at address a, in cycle now; the helm's record of the error shows the same address and syndrome (R335). -/
def eccAt (now : Nat) (a : Word) : Trap := { cause := cECC, w3 := a, w4 := Config.syndrome now a.toNat, own := some (0, a.toNat) }

/-- An ECC trap of an access that is no element of a gather: word 3 holds the address of the uncorrectable word itself; R333 says
only 'the address' (DESIGN CHOICE, log 64). -/
def eccTrap (now a : Nat) : Trap := eccAt now (BitVec.ofNat 64 a)

/-- The ECC trap of a read of an uncorrectable word outside the scratchpad, at address a of structure `what`: word 3 is 0 (R333). -/
def eccIn (now what a : Nat) : Trap := { cause := cECC, w4 := Config.syndrome now a, own := some (what, a) }

/-- Entry i of queue q as an address of an error record. -/
def qAddr (q i : Nat) : Nat := 2 ^ 32 * q + i

/-- The local check of R75 for n bytes at A. -/
def checkLocal (a : Word) (n : Nat) : Option Trap :=
  if Config.localEnd ≤ a.toNat then some { cause := cRANGE, w3 := a }
  else if Config.localEnd ≤ a.toNat + n - 1 then some { cause := cSTRADDLE, w3 := a }
  else none

/-- Runs body when the check finds nothing, else takes its trap. -/
def State.guard (s : State) (t : Option Trap) (body : State → State) : State :=
  match t with
  | some tr => s.raise tr
  | none => body s

/-! Issuing an instruction. -/

/-- The decoder of the running site admits the instruction: its fields (R51, R52), the version (R72), the extension (R263). -/
def State.legal (s : State) (i : Instr) : Bool :=
  i.wf && decide (i.since ≤ (if isTile s.cur.1 then s.me.krn.ver else 3)) && (!i.halyard || isHalyard s.cur.1)

/-- An instruction of the running context: ILLEGAL first, then nothing but the next pc where its condition failed (R52, R55),
else its effect (DESIGN CHOICE, log 4). -/
def issue (i : Instr) (s : State) (body : State → State) : Result :=
  if !s.legal i then .next (s.raise { cause := cILLEGAL })
  else if s.ctx.cond then .next (body s)
  else .next (s.done i.size s.ctx)

/-- The same for an instruction that an operand makes ILLEGAL: that too is raised even where the condition failed (R52, R55). -/
def issueIll (i : Instr) (s : State) (bad : Bool) (body : State → State) : Result :=
  if !s.legal i || bad then .next (s.raise { cause := cILLEGAL })
  else if s.ctx.cond then .next (body s)
  else .next (s.done i.size s.ctx)

/-- The same for an instruction that PRIV guards: PRIV is raised even where the condition failed (R52, R55). -/
def issuePriv (i : Instr) (s : State) (privileged : Bool) (w4 : Word) (body : State → State) : Result :=
  if !s.legal i then .next (s.raise { cause := cILLEGAL })
  else if privileged then .next (s.raise { cause := cPRIV, w4 := w4 })
  else if s.ctx.cond then .next (body s)
  else .next (s.done i.size s.ctx)

/-- The same for an instruction whose prefix masks byte lanes (R55): it executes under its mask. -/
def issueLanes (i : Instr) (s : State) (body : State → State) : Result :=
  if !s.legal i then .next (s.raise { cause := cILLEGAL }) else .next (body s)

/-- A one-cycle instruction that changes only its own context. -/
def simple (i : Instr) (s : State) (f : Ctx → Ctx) : Result := issue i s fun s => s.done i.size (f s.ctx)

end Sys2Proof.Machine
end

