-- ==== Sys2Proof/Machine/Flags.lean ====
section
/-! DEFINITION. Binary floating point with the sticky flags of R102, the four roundings of R101, integer conversion, DPT8, the
approximations of R136 and the exact-sum word. Values are exact (an integer times a power of two) until the one rounding. -/

namespace Sys2Proof.Machine

/-- SY.FLAGS bits (R148). -/
def fNX : BitVec 5 := 1
def fUF : BitVec 5 := 2
def fOF : BitVec 5 := 4
def fDZ : BitVec 5 := 8
def fIV : BitVec 5 := 16

/-- Rounding modes in the order of the majors (R62, R101). -/
inductive Rm where
  | rne | rtz | rup | rdn
  deriving DecidableEq, Repr

def rmOf (r : Fin 4) : Rm :=
  match r.val with
  | 0 => .rne
  | 1 => .rtz
  | 2 => .rup
  | _ => .rdn

/-- A format by its significant bits: 24 for .f32, 8 for .bf (R99). Both have bias 127. -/
def fmtP (t : Fin 16) : Nat := if t = tF32 then 24 else 8

/-- qnan of R73 as a pattern of a format with p significant bits. -/
def qnan (p : Nat) : Nat := 255 * 2 ^ (p - 1) + 2 ^ (p - 2)

def infBits (p : Nat) (neg : Bool) : Nat := b2n neg * 2 ^ (p + 7) + 255 * 2 ^ (p - 1)

def maxBits (p : Nat) (neg : Bool) : Nat := infBits p neg - 1

def zeroBits (p : Nat) (neg : Bool) : Nat := b2n neg * 2 ^ (p + 7)

/-- An exact value: a NaN (signalling or not), an infinity, a signed zero, or ±mag · 2^exp with mag not zero. -/
inductive FVal where
  | nan (sig : Bool)
  | inf (neg : Bool)
  | zero (neg : Bool)
  | fin (neg : Bool) (mag : Nat) (exp : Int)
  deriving DecidableEq, Repr

/-- The value of a pattern (R99, R100). -/
def unpack (p : Nat) (x : Nat) : FVal :=
  let neg := bit x (p + 7)
  let e := bits x (p - 1) 8
  let f := bits x 0 (p - 1)
  if e = 255 then (if f = 0 then .inf neg else .nan (!bit f (p - 2)))
  else if e = 0 then (if f = 0 then .zero neg else .fin neg f (-126 - ((p : Int) - 1)))
  else .fin neg (f + 2 ^ (p - 1)) ((e : Int) - 127 - ((p : Int) - 1))

/-- A result: pattern and flags. -/
abbrev FRes := Nat × BitVec 5

/-- Quotient by 2^(q - e) of mag, and how the discarded part compares: 0 none, 1 below half, 2 half, 3 above. -/
def cutAt (mag : Nat) (e q : Int) (sticky : Bool) : Nat × Nat :=
  if q ≤ e then (mag * 2 ^ (e - q).toNat, if sticky then 1 else 0)
  else
    let k := (q - e).toNat
    let r := mag % 2 ^ k
    let cls := if r = 0 then (if sticky then 1 else 0)
      else if 2 * r < 2 ^ k then 1
      else if 2 * r = 2 ^ k then (if sticky then 3 else 2)
      else 3
    (mag / 2 ^ k, cls)

/-- Whether the mode rounds the magnitude n up. -/
def roundsUp (rm : Rm) (neg : Bool) (n cls : Nat) : Bool :=
  match rm with
  | .rne => cls = 3 || (cls = 2 && n % 2 = 1)
  | .rtz => false
  | .rup => !neg && cls != 0
  | .rdn => neg && cls != 0

/-- round of R73 for ±mag · 2^e, mag not zero; sticky says that the exact magnitude lies above it by less than one unit of its
last place. Tininess after rounding (R102), overflow by mode (R101). -/
def roundMag (p : Nat) (rm : Rm) (neg : Bool) (mag : Nat) (e : Int) (sticky : Bool) : FRes :=
  let top : Int := e + (Nat.log2 mag : Int)
  let qu := top - ((p : Int) - 1)
  let qmin : Int := -126 - ((p : Int) - 1)
  let (nu, cu) := cutAt mag e qu sticky
  let nu' := nu + b2n (roundsUp rm neg nu cu)
  let topU := if nu' = 2 ^ p then top + 1 else top
  if 127 < topU then
    let r := match rm with
      | .rne => infBits p neg
      | .rtz => maxBits p neg
      | .rup => if neg then maxBits p neg else infBits p neg
      | .rdn => if neg then infBits p neg else maxBits p neg
    (r, fOF ||| fNX)
  else
    let q := if qu < qmin then qmin else qu
    let (n, cls) := cutAt mag e q sticky
    let n' := n + b2n (roundsUp rm neg n cls)
    let pat := if n' < 2 ^ (p - 1) then n'
      else (q + ((p : Int) - 1) + 127).toNat * 2 ^ (p - 1) + (n' - 2 ^ (p - 1))
    let fl := if cls = 0 then 0 else if topU < -126 then fUF ||| fNX else fNX
    (zeroBits p neg + pat, fl)

/-- Delivers an exact value (R100). -/
def pack (p : Nat) (rm : Rm) (v : FVal) : FRes :=
  match v with
  | .nan _ => (qnan p, 0)
  | .inf neg => (infBits p neg, 0)
  | .zero neg => (zeroBits p neg, 0)
  | .fin neg mag e => roundMag p rm neg mag e false

/-- IV for a signalling NaN. -/
def sigFlag (v : FVal) : BitVec 5 := match v with
  | .nan true => fIV
  | _ => 0

/-- The exact value with an integer significand. -/
def FVal.ofInt (m : Int) (e : Int) (zneg : Bool) : FVal :=
  if m = 0 then .zero zneg else .fin (decide (m < 0)) m.natAbs e

/-- The signed significand. -/
def signed (neg : Bool) (mag : Nat) : Int := if neg then -(mag : Int) else (mag : Int)

/-- Exact product, with IV for 0 · ∞ and for a signalling NaN. -/
def fmulX (a b : FVal) : FVal × BitVec 5 :=
  match a, b with
  | .nan _, _ => (.nan false, sigFlag a ||| sigFlag b)
  | _, .nan _ => (.nan false, sigFlag a ||| sigFlag b)
  | .inf _, .zero _ => (.nan false, fIV)
  | .zero _, .inf _ => (.nan false, fIV)
  | .inf x, .inf y => (.inf (x ^^ y), 0)
  | .inf x, .fin y _ _ => (.inf (x ^^ y), 0)
  | .fin x _ _, .inf y => (.inf (x ^^ y), 0)
  | .zero x, .zero y => (.zero (x ^^ y), 0)
  | .zero x, .fin y _ _ => (.zero (x ^^ y), 0)
  | .fin x _ _, .zero y => (.zero (x ^^ y), 0)
  | .fin x m e, .fin y n f => (.fin (x ^^ y) (m * n) (e + f), 0)

/-- Exact sum, with IV for ∞ − ∞ and for a signalling NaN; the sign of an exact zero follows the mode (R100). -/
def faddX (rm : Rm) (a b : FVal) : FVal × BitVec 5 :=
  match a, b with
  | .nan _, _ => (.nan false, sigFlag a ||| sigFlag b)
  | _, .nan _ => (.nan false, sigFlag a ||| sigFlag b)
  | .inf x, .inf y => if x = y then (.inf x, 0) else (.nan false, fIV)
  | .inf x, _ => (.inf x, 0)
  | _, .inf y => (.inf y, 0)
  | .zero x, .zero y => (.zero (if x = y then x else rm = .rdn), 0)
  | .zero _, v => (v, 0)
  | v, .zero _ => (v, 0)
  | .fin x m e, .fin y n f =>
    let g := if e < f then e else f
    (FVal.ofInt (signed x m * 2 ^ (e - g).toNat + signed y n * 2 ^ (f - g).toNat) g (rm = .rdn), 0)

def FVal.negate : FVal → FVal
  | .nan s => .nan s
  | .inf n => .inf !n
  | .zero n => .zero !n
  | .fin n m e => .fin (!n) m e

/-- round(a + b), round(a − b), round(a · b), round(a · b + c) of R122 on patterns. -/
def fadd (p : Nat) (rm : Rm) (a b : Nat) : FRes :=
  let (v, f) := faddX rm (unpack p a) (unpack p b)
  let (r, g) := pack p rm v
  (r, f ||| g)

def fsub (p : Nat) (rm : Rm) (a b : Nat) : FRes :=
  let (v, f) := faddX rm (unpack p a) (unpack p b).negate
  let (r, g) := pack p rm v
  (r, f ||| g)

def fmul (p : Nat) (rm : Rm) (a b : Nat) : FRes :=
  let (v, f) := fmulX (unpack p a) (unpack p b)
  let (r, g) := pack p rm v
  (r, f ||| g)

def ffma (p : Nat) (rm : Rm) (a b c : Nat) : FRes :=
  let (v, f) := fmulX (unpack p a) (unpack p b)
  let (w, g) := faddX rm v (unpack p c)
  let (r, h) := pack p rm w
  (r, f ||| g ||| h)

/-- c + a0·b0 + a1·b1 in .f32 from .bf operands, rounded once (R133). Terms are added in that order, so a NaN among c and the first
product hides an inf − inf with the second (R102) (DESIGN CHOICE, log 70). -/
def fdot2 (rm : Rm) (a0 b0 a1 b1 c : Nat) : FRes :=
  let (v, f) := fmulX (unpack 8 a0) (unpack 8 b0)
  let (w, g) := fmulX (unpack 8 a1) (unpack 8 b1)
  let (x, h) := faddX rm (unpack 24 c) v
  let (y, i) := faddX rm x w
  let (r, k) := pack 24 rm y
  (r, f ||| g ||| h ||| i ||| k)

/-- An ordering key of a non-NaN value: −0 below +0 (R122). -/
def fkey (p : Nat) (x : Nat) : Int :=
  if bit x (p + 7) then -(bits x 0 (p + 7) : Int) - 1 else (bits x 0 (p + 7) : Int)

def isNan (v : FVal) : Bool := match v with
  | .nan _ => true
  | _ => false

/-- VMIN and VMAX of R122. -/
def fmin (p : Nat) (a b : Nat) : FRes :=
  let u := unpack p a
  let v := unpack p b
  if isNan u || isNan v then (qnan p, sigFlag u ||| sigFlag v)
  else (if fkey p b < fkey p a then b else a, 0)

def fmax (p : Nat) (a b : Nat) : FRes :=
  let u := unpack p a
  let v := unpack p b
  if isNan u || isNan v then (qnan p, sigFlag u ||| sigFlag v)
  else (if fkey p a < fkey p b then b else a, 0)

/-- A key in which −0 equals +0 (R125). -/
def fkey0 (p : Nat) (x : Nat) : Int := signed (bit x (p + 7)) (bits x 0 (p + 7))

/-- Compares of R125: kind 0 EQ, 1 LT, 2 LE. -/
def fcmp (p : Nat) (kind : Nat) (a b : Nat) : Bool × BitVec 5 :=
  let u := unpack p a
  let v := unpack p b
  if isNan u || isNan v then (false, if kind = 0 then sigFlag u ||| sigFlag v else fIV)
  else
    let x := fkey0 p a
    let y := fkey0 p b
    (match kind with
      | 0 => x == y
      | 1 => decide (x < y)
      | _ => decide (x ≤ y), 0)

/-- An integer rounded to a format. -/
def ofIntF (p : Nat) (rm : Rm) (x : Int) : FRes := pack p rm (FVal.ofInt x 0 false)

/-- A value rounded to an integer by a mode: the integer and whether it differs. -/
def toIntX (rm : Rm) (neg : Bool) (mag : Nat) (e : Int) : Int × Bool :=
  let (n, cls) := cutAt mag e 0 false
  (signed neg (n + b2n (roundsUp rm neg n cls)), cls != 0)

/-- The integer conversion of R129 into lo..hi, as an exact integer. -/
def toIntF (p : Nat) (rm : Rm) (lo hi : Int) (x : Nat) : Int × BitVec 5 :=
  match unpack p x with
  | .nan _ => (0, fIV)
  | .inf neg => (if neg then lo else hi, fIV)
  | .zero _ => (0, 0)
  | .fin neg mag e =>
    let (r, inex) := toIntX rm neg mag e
    if r < lo then (lo, fIV) else if hi < r then (hi, fIV) else (r, if inex then fNX else 0)

/-! DPT8 (R104 to R106, R131). -/

/-- One term. -/
def dptTerm (b : Nat) : Int := if b % 8 = 0 then 0 else signed (b / 8 % 2 == 1) (2 ^ (b % 8 - 1))

/-- dpt8val of R104. -/
def dpt8val (b : Nat) : Int := dptTerm (b / 16 % 16) + dptTerm (b % 16)

/-- The canonical byte of a positive representable value (R105): one term where one suffices, else the smallest first term. -/
def dptCanonPos (v : Nat) : Option Nat :=
  if v = 128 then some 0x77
  else (List.range 7).findSome? fun a =>
    if v = 2 ^ a then some ((a + 1) * 16)
    else (List.range a).findSome? fun b =>
      if v = 2 ^ a + 2 ^ b then some ((a + 1) * 16 + (b + 1))
      else if v + 2 ^ b = 2 ^ a then some ((a + 1) * 16 + 8 + (b + 1))
      else none

/-- Flips the sign of every nonzero term. -/
def dptNeg (b : Nat) : Nat :=
  (if b / 16 % 8 = 0 then b / 16 % 16 else (b / 16 + 8) % 16) * 16 + (if b % 8 = 0 then b % 16 else (b % 16 + 8) % 16)

/-- The canonical byte of a representable integer. -/
def dptCanon (v : Int) : Option Nat :=
  if v = 0 then some 0 else if v < 0 then (dptCanonPos v.natAbs).map dptNeg else dptCanonPos v.natAbs

/-- The greatest representable value not above f and the least not below f, for f in −128..128. -/
def dptBelow : Nat → Int → Int
  | 0, f => f
  | n + 1, f => if (dptCanon f).isSome then f else dptBelow n (f - 1)

def dptAbove : Nat → Int → Int
  | 0, f => f
  | n + 1, f => if (dptCanon f).isSome then f else dptAbove n (f + 1)

/-- Floor of m · 2^e. -/
def floorX (m : Int) (e : Int) : Int := if 0 ≤ e then m * 2 ^ e.toNat else m / 2 ^ (-e).toNat

/-- The DPT8 conversion of m · 2^e under a mode; rne stands for dpt8enc (nearest, ties toward zero). -/
def dptEnc (rm : Rm) (m : Int) (e : Int) : FRes :=
  let f := floorX m e
  let c := -floorX (-m) e
  if c > 128 || f < -128 then (if m < 0 then 0xFF else 0x77, fIV)
  else
    let lo := dptBelow 40 f
    let hi := dptAbove 40 c
    let r := match rm with
      | .rne =>
        let twice := if 0 ≤ e + 1 then m * 2 ^ (e + 1).toNat else m
        let mid := if 0 ≤ e + 1 then lo + hi else (lo + hi) * 2 ^ (-(e + 1)).toNat
        if twice < mid then lo else if mid < twice then hi
        else if lo.natAbs ≤ hi.natAbs then lo else hi
      | .rtz => if 0 ≤ m then lo else hi
      | .rup => hi
      | .rdn => lo
    ((dptCanon r).getD 0, if f = c ∧ r = f then 0 else fNX)

/-- A floating pattern to DPT8 (R131). -/
def dptOfF (p : Nat) (rm : Rm) (x : Nat) : FRes :=
  match unpack p x with
  | .nan _ => (0, fIV)
  | .inf neg => (if neg then 0xFF else 0x77, fIV)
  | .zero _ => (0, 0)
  | .fin neg mag e => dptEnc rm (signed neg mag) e

/-! Approximations (R136). -/

/-- The largest r with r² ≤ n, bit by bit from 2^k down. -/
def isqrtAux (n : Nat) : Nat → Nat → Nat
  | 0, r => r
  | k + 1, r => isqrtAux n k (if (r + 2 ^ k) * (r + 2 ^ k) ≤ n then r + 2 ^ k else r)

def isqrt (n : Nat) : Nat := isqrtAux n (Nat.log2 n / 2 + 1) 0

/-- 1/x rounded once. -/
def frcp (p : Nat) (x : Nat) : FRes :=
  match unpack p x with
  | .nan s => (qnan p, if s then fIV else 0)
  | .inf neg => (zeroBits p neg, 0)
  | .zero neg => (infBits p neg, fDZ)
  | .fin neg m e =>
    let k := Nat.log2 m + 40
    roundMag p .rne neg (2 ^ k / m) (-e - k) (2 ^ k % m != 0)

/-- 1/√x rounded once. -/
def frsq (p : Nat) (x : Nat) : FRes :=
  match unpack p x with
  | .nan s => (qnan p, if s then fIV else 0)
  | .inf neg => if neg then (qnan p, fIV) else (zeroBits p false, 0)
  | .zero neg => (infBits p neg, fDZ)
  | .fin true _ _ => (qnan p, fIV)
  | .fin false m e =>
    let m' := if e % 2 = 0 then m else 2 * m
    let e' := if e % 2 = 0 then e else e - 1
    let k := Nat.log2 m' + 40
    let r := isqrt (2 ^ (2 * k) / m')
    roundMag p .rne false r (-(e' / 2) - k) (r * r * m' != 2 ^ (2 * k))

/-- Working precision of VEXP2 in bits. -/
def expPrec : Nat := 192

/-- The product, over the bits of f from the highest down, of 2^(2^−j), in fixed point; root is 2^(2^−(j−1)). -/
def exp2Frac (f : Nat) : Nat → Nat → Nat → Nat
  | 0, _, acc => acc
  | k + 1, root, acc =>
    let root' := isqrt (root * 2 ^ expPrec)
    exp2Frac f k root' (if bit f k then acc * root' / 2 ^ expPrec else acc)

/-- 2^x rounded once (DEDUCED: 192 bits of working precision decide every rounding, log 8). -/
def fexp2 (p : Nat) (x : Nat) : FRes :=
  match unpack p x with
  | .nan s => (qnan p, if s then fIV else 0)
  | .inf neg => if neg then (zeroBits p false, 0) else (infBits p false, 0)
  | .zero _ => (127 * 2 ^ (p - 1), 0)
  | .fin neg m e =>
    let i := floorX (signed neg m) e
    if 128 ≤ i then (infBits p false, fOF ||| fNX)
    else if i < -200 then roundMag p .rne false 1 (-200) true
    else if 0 ≤ e then roundMag p .rne false 1 i false
    else
      let k := (-e).toNat
      let f := (signed neg m - i * 2 ^ k).toNat
      if f = 0 then roundMag p .rne false 1 i false
      else roundMag p .rne false (exp2Frac f k (2 ^ (expPrec + 1)) (2 ^ expPrec)) (i - expPrec) true

/-- VSCALE of R134: times 2^(s − 127). -/
def fscale (p : Nat) (rm : Rm) (x s : Nat) : FRes :=
  if s = 255 then (qnan p, 0)
  else
    match unpack p x with
    | .nan g => (qnan p, if g then fIV else 0)
    | .inf neg => (infBits p neg, 0)
    | .zero neg => (zeroBits p neg, 0)
    | .fin neg m e => roundMag p rm neg m (e + (s : Int) - 127) false

/-! The exact-sum word (R113, R114). -/

/-- XADDF: the 512-bit word after adding a pattern. -/
def xsAdd (w : Nat) (p x : Nat) : Nat :=
  let v := bits w 0 504
  let st := bits w 504 3
  let (v', st') := match unpack p x with
    | .nan _ => (v, st ||| 1)
    | .inf neg => (v, st ||| (if neg then 4 else 2))
    | .zero _ => (v, st)
    | .fin neg m e => (trunc ((v : Int) + signed neg (m * 2 ^ (e + 160).toNat)) 504, st)
  st' * 2 ^ 504 + v'

/-- XRD: result and flags. -/
def xsRead (w p : Nat) : FRes :=
  let nan := bit w 504
  let pinf := bit w 505
  let ninf := bit w 506
  if nan || (pinf && ninf) then (qnan p, fIV)
  else if pinf then (infBits p false, 0)
  else if ninf then (infBits p true, 0)
  else pack p .rne (FVal.ofInt (sext (bits w 0 504) 504) (-160) false)

end Sys2Proof.Machine
end

