-- ==== Sys2Proof/Machine/Operands.lean ====
section
/-! DEFINITION. The operand forms: immediates and address forms (R18, R50, R60), gather addresses (R97), window addresses
(R185), copy addresses (R190), versioned addresses (R210). -/

namespace Sys2Proof.Machine

/-- A sign-extended 13-bit, 8-bit or 23-bit immediate (R50). -/
def simm13 (i : BitVec 13) : Word := i.signExtend 64
def simm8 (i : BitVec 8) : Word := i.signExtend 64

/-- The address of an M form: base plus the sign-extended offset (R18, R50). -/
def mAddr (c : Ctx) (a : Fin 32) (i : BitVec 13) : Word := c.sreg a + simm13 i

/-- The target of a B form and of C.B (R50, R53): from the branch's own address. -/
def bTarget (c : Ctx) (i : BitVec 13) : Word := c.ipc + i.signExtend 64 * 2

/-- The target of a J form. -/
def jTarget (c : Ctx) (i : BitVec 23) : Word := c.ipc + i.signExtend 64 * 2

/-- The address of a post-increment form, and the base after it (R18, R96). -/
def piAddr (c : Ctx) (a : Fin 32) : Word := c.sreg a
def Ctx.bump (c : Ctx) (a : Fin 32) (i : BitVec 8) : Ctx := c.setS a (c.sreg a + simm8 i)

/-- The width in bits of LVS, LVG and SVX elements (R97). -/
def elemBits (w : Fin 4) : Nat := 8 * 2 ^ w.val

/-- Element addresses of R97: strided, and indexed by the lanes of a register. -/
def strideAddr (base stride : Word) (i : Nat) : Word := base + BitVec.ofNat 64 i * stride
def indexAddr (base : Word) (idx : VWord) (w i : Nat) : Word := base + BitVec.ofNat 64 (lane idx w i * (w / 8))

/-- A window address split (R185). -/
def winMember (a : Word) : Nat := bits a.toNat 19 13
def winOff (a : Word) : Nat := bits a.toNat 0 19

/-- window(m, off) of R73. -/
def winAddr (m off : Word) : Word := m * BitVec.ofNat 64 (2 ^ 19) + off

/-- The launch of the running site, and its members (R183). -/
def State.launchOf (s : State) (t : Nat) : Option Launch := (s.site t).krn.launch.bind (mapGet? s.launches)

def State.membersOf (s : State) (t : Nat) : List Nat := ((s.launchOf t).map (·.members)).getD []

/-- The tile of a member (R4, R25). -/
def State.memberTile (s : State) (t m : Nat) : Option Nat := (s.membersOf t)[m]?

/-- A member is OFF as the group's NIs hold it (R185, R325). -/
def State.isOff (s : State) (t : Nat) : Bool := (s.site t).gate.st = .off || (s.site t).gate.offReq

/-- wcheck of R185 for n bytes at W by site t. -/
def State.wcheck (s : State) (t : Nat) (w : Word) (n : Nat) : Option Trap :=
  let m := winMember w
  if 2 ^ 32 ≤ w.toNat || decide ((s.membersOf t).length ≤ m) then
    some { cause := cACCESS, w3 := w, w4 := BitVec.ofNat 64 m }
  else if Config.localEnd ≤ winOff w then some { cause := cRANGE, w3 := w }
  else if Config.localEnd ≤ winOff w + n - 1 then some { cause := cSTRADDLE, w3 := w }
  else if ((s.memberTile t m).map s.isOff).getD false then
    some { cause := cGATED, w3 := w, w4 := BitVec.ofNat 64 m }
  else none

/-- The spaces of copy and send addresses (R190). -/
inductive Space where
  | scratch (a : Word)
  | window (a : Word)
  | global (a : Word)
  | bad
  deriving DecidableEq, Repr

/-- A copy address (R190): space in bits 63:62, unused bits zero. -/
def copySpace (x : Word) : Space :=
  let n := x.toNat
  match bits n 62 2 with
  | 0 => if bits n 19 43 = 0 then .scratch (BitVec.ofNat 64 (bits n 0 19)) else .bad
  | 1 => if bits n 32 30 = 0 then .window (BitVec.ofNat 64 (bits n 0 32)) else .bad
  | 2 => if bits n 54 8 = 0 then .global (BitVec.ofNat 64 (bits n 0 54)) else .bad
  | _ => .bad

/-- A versioned address (R210): whether it lies in the window, the address, the slot count V; none for ACCESS. -/
def verAddr (x : Word) : Option (Bool × Word × Nat) :=
  let n := x.toNat
  let v := match bits n 60 2 with
    | 1 => 2
    | 2 => 4
    | 3 => 8
    | _ => 0
  if v = 0 || bits n 32 28 != 0 then none
  else match bits n 62 2 with
    | 0 => if bits n 19 13 = 0 then some (false, BitVec.ofNat 64 (bits n 0 19), v) else none
    | 1 => some (true, BitVec.ofNat 64 (bits n 0 32), v)
    | _ => none

end Sys2Proof.Machine
end

