-- ==== Sys2Proof/Machine/Network.lean ====
section
/-! DEFINITION. The mesh (R290 to R301, R369): paths, packets, arbitration of one router, what an NI takes, the halt-hold
buffers. Endpoints above the sites: 8400 + m is the sync engine of mast m, 8404 the engines of the helm die. -/

namespace Sys2Proof.Machine

/-! Plane of R290. -/

def planeX (t : Nat) : Nat := 32 * (t / 2048 % 2) + t % 32
def planeY (t : Nat) : Nat := 32 * (t / 4096) + t / 32 % 32
def planeD (t : Nat) : Nat := t / 1024 % 2

/-- The tile at a place of the plane. -/
def tileOf (d x y : Nat) : Nat := (2 * (y / 32) + x / 32) * 2048 + d * 1024 + y % 32 * 32 + x % 32

/-- The keel tile of mast m nearest the module centre (R305). -/
def corner (m : Nat) : Nat :=
  match m with
  | 0 => 1023
  | 1 => 3040
  | 2 => 4127
  | _ => 6144

/-- The tile of a halyard core (R305). -/
def halyardTile (k : Nat) : Nat :=
  let m := k / 48
  let j := k % 48
  m * 2048 + (if j < 16 then 64 * j else if j < 32 then 992 + 2 * (j - 16) else 64 * (j - 32) + 31)

/-- The endpoint of the helm die's engines. -/
def helmDie : Nat := 8404

/-- The tile at whose router endpoint e attaches for traffic with a tile of mast m (R206, R305). -/
def attach (e m : Nat) : Nat :=
  if isTile e then e
  else if isHalyard e then halyardTile (e - Config.tiles)
  else if e < 8400 then corner m
  else if e < 8404 then corner (e - 8400)
  else corner m

def mastOf (e : Nat) : Nat := attach e 0 / 2048

/-- Source and destination tiles of a packet. -/
def Pkt.srcTile (p : Pkt) : Nat := attach p.src (mastOf p.dst)
def Pkt.dstTile (p : Pkt) : Nat := attach p.dst (mastOf p.src)

/-- One route segment below the segments r (R291). -/
def segment (port n r : Nat) : Nat := if n = 0 then r else port * 128 + n + 1024 * r

/-- The route field: X, then Y, then the vertical step (R290, R291). -/
def routeField (a b : Nat) : Nat :=
  let v := segment 4 (if planeD a = planeD b then 0 else 1) 0
  let y := if planeY a ≤ planeY b then segment 2 (planeY b - planeY a) v else segment 0 (planeY a - planeY b) v
  if planeX a ≤ planeX b then segment 1 (planeX b - planeX a) y else segment 3 (planeX a - planeX b) y

/-- The output port that a router takes from a route field, and the field after it (R291). -/
def routeStep (r : Nat) : Nat × Nat :=
  if r = 0 then (5, 0)
  else
    let n := r % 128 - 1
    (bits r 7 3, if n = 0 then r / 1024 else r / 128 * 128 + n)

/-- The router across an output port. -/
def across (t p : Nat) : Nat :=
  let d := planeD t
  let x := planeX t
  let y := planeY t
  match p with
  | 0 => tileOf d x (y - 1)
  | 1 => tileOf d (x + 1) y
  | 2 => tileOf d x (y + 1)
  | 3 => tileOf d (x - 1) y
  | _ => tileOf (1 - d) x y

/-- The input by which a flit enters through output p. -/
def opposite (p : Nat) : Nat :=
  match p with
  | 0 => 2
  | 1 => 3
  | 2 => 0
  | 3 => 1
  | _ => 4

/-- The bridge between two masts (R290, R304): 0 to 3 between masts, 4 + m to the helm die. -/
def bridgeOf (a b : Nat) : Option Nat :=
  match Nat.min a b, Nat.max a b with
  | 0, 1 => some 0
  | 2, 3 => some 1
  | 0, 2 => some 2
  | 1, 3 => some 3
  | _, _ => none

def State.bridgeUp (s : State) (i : Nat) : Bool := s.bridges[i]? != some .down

/-- An agent of the helm die: its traffic with mast m crosses bridge 4 + m (R304, R305). -/
def onHelmDie (e : Nat) : Bool := isHelm e || decide (helmDie ≤ e)

/-! Sending. -/

def State.router (s : State) (t : Nat) : Router := mapGetD s.routers t {}
def State.setRouter (s : State) (t : Nat) (r : Router) : State := { s with routers := mapPut s.routers t r }

/-- The flits of a packet (R292). -/
def Pkt.flits (p : Pkt) : List Flit :=
  { pkt := some p, route := routeField p.srcTile p.dstTile, last := p.body == 0, age := 0 } ::
    (List.range p.body).map fun i => { pkt := none, route := 0, last := i + 1 == p.body, age := 0 }

def Router.injOf (r : Router) (v : Nat) : List Flit := r.inj[v]?.getD []

/-- Flits that the source of a packet has started to inject on VC v. -/
def Router.startedBy (r : Router) (src v : Nat) : List Flit := if onHelmDie src then r.hinj[v]?.getD [] else r.injOf v

/-- An injection that the NI of router t has begun is not complete (R298): body flits wait without their head. -/
def State.injecting (s : State) (t : Nat) : Bool := (s.router t).inj.toList.any fun q => (q.head?.map fun f => f.pkt.isNone).getD false

/-! What an NI takes (R152, R295, R301). -/

/-- The messages that RETIREs have consumed and that a trap may still return (R180). -/
def Core.ending (k : Core) : List Desc := k.ctxs.toList.filterMap (·.ending)

/-- Free 32-byte beats of the mailbox are those of no descriptor (R151). -/
def Core.runFree (k : Core) (at' n : Nat) : Bool :=
  (k.ending :: k.chq.toList).all fun q => q.all fun d => Config.recordSlots ≤ d.addr || decide (at' + 32 * n ≤ d.addr) ||
    decide (d.addr + 32 * d.beats ≤ at')

/-- The lowest run of n beats (R151). -/
def Core.findRun (k : Core) (n : Nat) : Option Nat :=
  ((List.range (481 - n)).map fun j => Config.mailbox + 32 * j).find? (k.runFree · n)

/-- Descriptors in use by channels 0 to 30. -/
def Core.descs (k : Core) : Nat := ((k.chq.toList.take 31).map List.length).sum + (k.ending.filter fun d => hdrChan d.hdr != 31).length

/-- Bytes in the arrival journal (R324). -/
def journalBytes (j : List JEntry) : Nat := (j.map fun e => 64 + 32 * e.beats.length).sum

/-- The journal takes a message of n beats. -/
def Ballast.journalFits (b : Ballast) (n : Nat) : Bool := journalBytes b.journal + 64 + 32 * n ≤ 32768

/-- A commit is requested (R319, R321): while one is being written, requests merge into the next. -/
def Ballast.ask (b : Ballast) (now : Nat) : Ballast :=
  match b.st with
  | .idle => { b with st := .requested now }
  | .requested _ => b
  | .writing _ _ _ _ => { b with merged := true }

def State.askCommit (s : State) (t : Nat) : State := s.modSite t fun x => { x with ballast := x.ballast.ask s.cycle }

/-- Room for a message: a descriptor, a run, and journal space on a PERSIST channel (R152, R324). -/
def Site.roomFor (x : Site) (hdr : Word) (n : Nat) : Bool :=
  decide (x.core.descs < 64) && (x.core.findRun n).isSome &&
    (!entPersist (x.entry (hdrChan hdr)) || x.ballast.journalFits n)

/-- A message to a PERSIST channel that the journal of its tile has no room for (R324). -/
def State.journalFull (s : State) (p : Pkt) : Bool :=
  match p.load with
  | .msg hdr beats =>
    let x := s.site p.dst
    entPersist (x.entry (hdrChan hdr)) && !x.ballast.journalFits beats.length
  | _ => false

/-- A message that waits for journal space makes its tile ask for a commit (R324). -/
def State.pressJournal (s : State) (p : Pkt) : State := if s.journalFull p then s.askCommit p.dst else s

/-- Packets that pass through the service unit (R301). -/
def Load.service : Load → Bool
  | .far _ | .cpWrite _ _ _ _ _ | .cpRead _ _ _ _ _ _ => true
  | _ => false

def Load.isMsg : Load → Bool
  | .msg _ _ => true
  | _ => false

/-- A packet of a class that is already entering through L, or through the bridge that shares it. -/
def Router.entering (r : Router) (f : Load → Bool) (dst : Nat) : Bool :=
  ((r.outs[5].holds.toList).any fun h => (h.map fun (x : Nat × Pkt) => f x.2.load && x.2.dst == dst).getD false) ||
    r.bhold.toList.any fun h => (h.map fun (x : Pkt) => f x.load && x.dst == dst).getD false

/-- Nothing that arrived on VC0 waits at the NI: requests, channel control, persist requests and messages act in their arrival
order (R41, R167, R275, R277). -/
def Site.inOrder (x : Site) : Bool := x.svc.isEmpty && x.rxCtl.isEmpty && x.rxPst.isEmpty && x.rxMsg.all fun p => p.vc != 0

/-- A station takes a request from the input of VC v: its input buffer of 64 has room, and on VC0 fewer than 64 requests are held for
MIGRATING pages (R260, R371) (DESIGN CHOICE, log 65). -/
def Station.takes (x : Station) (v : Nat) : Bool := (v != 0 || decide (x.held.length < 64)) && decide (x.rxq.length < 64)

/-- A packet on VC v for dst has begun to enter and is not whole: what follows it on that VC waits (R275, R281). -/
def Router.half (r : Router) (v dst : Nat) : Bool :=
  (((r.outs[5].holds[v]?.getD none).map (·.2)).orElse fun _ => r.bhold[v]?.getD none).any fun q => q.dst == dst

/-- The NI of the packet's destination gives a head credit. One message and one service packet at a time enter, one packet at a time
on VC0 (DESIGN CHOICE, log 30), and none, from L or from H, while an earlier one of its VC is half way in. -/
def State.niTakes (s : State) (p : Pkt) : Bool :=
  let x := s.site p.dst
  let r := s.router p.dstTile
  let next := p.vc != 0 || x.inOrder
  !r.half p.vc p.dst && match p.load with
  | .msg hdr beats => next && x.rxMsg.isEmpty && !r.entering Load.isMsg p.dst && x.roomFor hdr beats.length
  | .far _ | .cpWrite _ _ _ _ _ | .cpRead _ _ _ _ _ _ => next && x.svc.isEmpty && !r.entering Load.service p.dst
  | .chctl _ _ | .persist _ _ _ _ => next
  | .global _ => (mapGetD s.stations (p.dst - Config.tiles) ({} : Station)).takes p.vc
  | _ => true

/-- The home of a landing has performed a packet of it, or refused it (R310, R313). -/
def Incoming.gotAck (i : Incoming) (key n : Nat) (cause : BitVec 8) : Incoming :=
  match i.st with
  | .sent left =>
    if i.key ≠ key then i
    else
      let left' := left.filter (· != n)
      { i with st := if cause ≠ 0 then .answered cause else if left'.isEmpty then .answered 0 else .sent left' }
  | _ => i

/-- A read of range j of a send's source is answered (R313). -/
def Firing.got (f : Firing) (key j : Nat) (bytes : List Byte) (cause : BitVec 8) : Firing :=
  if f.key = key then { f with parts := f.parts.set j (some (bytes, cause)) } else f

/-- A packet for the engines of the helm die: an answer to the span engine, or a request to the counter engine. -/
def State.atHelmDie (s : State) (l : Load) : State :=
  match l with
  | .cpReply key j bytes cause => { s with firing := s.firing.map fun f => f.got key j bytes cause }
  | .cpAck key n cause => { s with incoming := s.incoming.map fun i => i.gotAck key n cause }
  | .counter r => { s with cntq := s.cntq ++ [r] }
  | _ => s

/-- A whole packet at the NI of its destination. -/
def State.arrive (s : State) (p : Pkt) : State :=
  if p.dst = helmDie then s.atHelmDie p.load
  else match p.load with
  | .msg _ _ => s.modSite p.dst fun x => { x with rxMsg := x.rxMsg ++ [p] }
  | .far _ | .cpWrite _ _ _ _ _ | .cpRead _ _ _ _ _ _ => s.modSite p.dst fun x => { x with svc := x.svc ++ [p] }
  | .resp _ _ _ | .ack _ _ _ _ | .beat _ _ _ _ | .cpReply _ _ _ _ | .cpAck _ _ _ | .delAck _ _ | .persisted _ _ _ | .sealAck _ =>
    s.modSite p.dst fun x => { x with rxResp := x.rxResp ++ [p] }
  | .delivery _ => s.modSite p.dst fun x => { x with rxDel := x.rxDel ++ [p] }
  | .push _ _ _ _ _ _ _ => s.modSite p.dst fun x => { x with rxPush := x.rxPush ++ [p] }
  | .chctl _ _ => s.modSite p.dst fun x => { x with rxCtl := x.rxCtl ++ [p] }
  | .persist _ _ _ _ => s.modSite p.dst fun x => { x with rxPst := x.rxPst ++ [p] }
  | .gate mode site ctx id => s.modSite p.dst fun x =>
    { x with gate := { x.gate with reqs := x.gate.reqs ++ [{ mode := mode, src := some (site, ctx, id) }] } }
  | .remote r src => s.modSite p.dst fun x => { x with rxRec := x.rxRec ++ [(r, src)] }
  | .phaser r => { s with phq := mapPut s.phq (p.dst - 8400) (mapGetD s.phq (p.dst - 8400) [] ++ [r]) }
  | .counter _ => s
  | .global r =>
    let k := p.dst - Config.tiles
    let st : Station := mapGetD s.stations k {}
    { s with stations := mapPut s.stations k { st with rxq := st.rxq ++ [{ r with inVc := p.vc }] } }

/-- An NI starts to inject a packet that it holds whole (R298) (DESIGN CHOICE, log 57). Between two agents of the helm die it crosses no
bridge (R305, R306). -/
def State.send (s : State) (p : Pkt) : State :=
  let r := s.router p.srcTile
  let q := r.startedBy p.src p.vc ++ p.flits
  if onHelmDie p.src && onHelmDie p.dst then s.arrive p
  else s.setRouter p.srcTile (if onHelmDie p.src then { r with hinj := r.hinj.setIfInBounds p.vc q } else { r with inj := r.inj.setIfInBounds p.vc q })

/-- A packet by its parts. -/
def State.sendTo (s : State) (src dst vc body : Nat) (l : Load) : State :=
  s.send { src := src, dst := dst, vc := vc, body := body, load := l }

/-- A request to a gate controller never parks (R330). -/
def Load.isGate : Load → Bool
  | .gate _ _ _ _ => true
  | _ => false

/-- A router of the destination's die plane holds its halt mark: the packet goes to H (R299). -/
def State.diverts (s : State) (t : Nat) (p : Pkt) : Bool := s.marks.contains p.dst && !p.load.isGate && planeD t == planeD p.dst

/-- Packets that H outputs of a die have begun to take. -/
def State.intoHold (s : State) (die : Nat) : List Pkt :=
  (s.routers.filter fun e => e.1 / 1024 == die).flatMap fun e => (e.2.outs[6].holds.toList).filterMap fun h => h.map (·.2)

/-- Flits in the halt-hold buffer of a die, and those of packets on their way into it, for destinations that f admits (R339). -/
def State.heldFlits (s : State) (die : Nat) (f : Nat → Bool) : Nat :=
  (((s.holdBuf.filter fun h => h.1 == die).map (·.2) ++ s.intoHold die).filter fun p => f p.dst).foldl (fun n p => n + 1 + p.body) 0

/-- The quotas that tenants have of each halt-hold buffer (R339). -/
def State.quotas (s : State) : Nat := (s.tenants.map fun e => e.2.cfg.quota).sum

/-- The buffer of the router's die has room for a packet: within the quota of the tenant of a tile that a halt marks, and for any other
parked tile within what the quotas leave (R339). -/
def State.holdRoom (s : State) (die : Nat) (p : Pkt) : Bool :=
  let x := s.site p.dst
  let n := 1 + p.body
  decide (s.heldFlits die (fun _ => true) + n ≤ 262144) &&
    (if s.haltBits.contains p.dst then
      match mapGet? s.tenants x.krn.tenant with
      | some te => decide (s.heldFlits die (fun u => (s.site u).krn.tenant == x.krn.tenant && s.haltBits.contains u) + n ≤ te.cfg.quota)
      | none => true
    else decide (s.heldFlits die (fun u => !s.haltBits.contains u) + n + s.quotas ≤ 262144))

/-- Hops that a route field still takes. -/
def routeHops (r : Nat) : Nat := r % 128 + r / 1024 % 128 + r / 1048576 % 128

def Pkt.sameFlow (p q : Pkt) : Bool := p.src == q.src && p.dst == q.dst && p.vc == q.vc

/-- An earlier packet of the same flow is still on its way to H: nearer to its destination, or entering the buffer (R275, R299). -/
def State.flowAhead (s : State) (p : Pkt) (hops : Nat) : Bool :=
  s.routers.any fun e =>
    ((e.2.outs[6].holds.toList).any fun h => (h.map fun (x : Nat × Pkt) => x.2.sameFlow p).getD false) ||
      e.2.ins.toList.any fun i => (i[p.vc]?.getD []).any fun f => decide (routeHops f.route < hops) && (f.pkt.map p.sameFlow).getD false

/-- H of router t takes a packet whose head has these hops to go. -/
def State.holdTakes (s : State) (t : Nat) (p : Pkt) (hops : Nat) : Bool := s.holdRoom (t / 1024) p && !s.flowAhead p hops

/-! Arbitration (R296). -/

def Router.buf (r : Router) (i v : Nat) : List Flit := (r.ins[i]?.getD (Vector.replicate 4 []))[v]?.getD []

def Router.setBuf (r : Router) (i v : Nat) (q : List Flit) : Router :=
  { r with ins := r.ins.setIfInBounds i ((r.ins[i]?.getD (Vector.replicate 4 [])).setIfInBounds v q) }

def Router.out (r : Router) (o : Nat) : OutPort := (r.outs[o]?).getD {}

/-- The output that a head flit requests at router t. -/
def State.wants (s : State) (t : Nat) (f : Flit) : Option Nat :=
  f.pkt.map fun p => if s.diverts t p then 6 else (routeStep f.route).1

/-- Depth of the buffer behind output o of router t (R294). -/
def linkDepth (t o : Nat) : Nat := if t / 2048 = across t o / 2048 then 8 else 32

/-- The end buffer of the bridge of router t toward the helm die has room, and the bridge carries traffic (R294, R306). -/
def State.bridgeRoom (s : State) (t v : Nat) : Bool := s.bridgeUp (4 + t / 2048) && decide (((s.router t).bout[v]?.getD []).length < 32)

/-- A credit of output o on VC v for a flit of packet p; at L and H the NI or the buffer decides on a head (R294, R301). -/
def State.credit (s : State) (t o v : Nat) (f : Flit) (p : Pkt) : Bool :=
  match o with
  | 5 => if onHelmDie p.dst then s.bridgeRoom t v else f.pkt.isNone || s.niTakes p
  | 6 => f.pkt.isNone || s.holdTakes t p (routeHops f.route)
  | _ =>
    let u := across t o
    decide (((s.router u).buf (opposite o) v).length < linkDepth t o) &&
      ((bridgeOf (t / 2048) (u / 2048)).map s.bridgeUp).getD true

/-- The inputs that offer a candidate for output o on VC v: the holder, or heads in input order (R296). -/
def State.candidates (s : State) (t : Nat) (r : Router) (o v : Nat) : List Nat :=
  match (r.out o).holds[v]?.getD none with
  | some (i, p) =>
    match r.buf i v with
    | f :: _ => if f.pkt.isNone && s.credit t o v f p then [i] else []
    | [] => []
  | none =>
    (List.range 6).filter fun i =>
      match r.buf i v with
      | f :: _ => s.wants t f == some o && (f.pkt.map (s.credit t o v f)).getD false
      | [] => false

def Router.frontAge (r : Router) (i v : Nat) : Nat :=
  match r.buf i v with
  | f :: _ => if f.pkt.isSome then f.age else 0
  | [] => 0

/-- VC weights (R296). -/
def vcWeight (v : Nat) : Nat :=
  match v with
  | 2 => 3
  | 3 => 1
  | _ => 2

/-- The oldest head at or beyond the limit; the first of equal ones in the order of inputs, then of VCs. -/
def Router.oldest (r : Router) (cands : List (Nat × Nat)) (limit : Nat) : Option (Nat × Nat) :=
  cands.foldl (fun best c =>
    let a := r.frontAge c.1 c.2
    if a < limit then best
    else match best with
      | some b => if r.frontAge b.1 b.2 < a then some c else best
      | none => some c) none

/-- The input of a list that comes first from the round-robin start. -/
def pickRR (start : Nat) (l : List Nat) : Option Nat :=
  ((List.range 6).map fun j => (start + j) % 6).find? fun i => l.contains i

/-- One output's choice: the granted (input, VC) and the pointer and counters after it. -/
def State.arbitrate (s : State) (t : Nat) (r : Router) (o : Nat) : Option (Nat × Nat) × OutPort :=
  let p := r.out o
  let c := fun v => s.candidates t r o v
  let heads := (List.range 6).flatMap fun i => ((List.range 4).filter fun v =>
    (p.holds[v]?.getD none).isNone && (c v).contains i).map fun v => (i, v)
  match r.oldest heads (mapGetD s.ageLimit (t / 1024) 32) with
  | some g => (some g, p)
  | none =>
    let d := p.defc[p.ptr]?.getD 0
    if d != 0 && !(c p.ptr).isEmpty then
      ((pickRR (p.rr[p.ptr]?.getD 0) (c p.ptr)).map fun i => (i, p.ptr), { p with defc := p.defc.setIfInBounds p.ptr (d - 1) })
    else
      let p := { p with defc := p.defc.setIfInBounds p.ptr 0 }
      match ([1, 2, 3, 4].map fun j => (p.ptr + j) % 4).find? fun v => !(c v).isEmpty with
      | none => (none, p)
      | some v =>
        ((pickRR (p.rr[v]?.getD 0) (c v)).map fun i => (i, v),
          { p with ptr := v, defc := p.defc.setIfInBounds v (vcWeight v - 1) })

/-- Moves the granted flit. -/
def State.moveFlit (s : State) (t o i v : Nat) : State :=
  let r := s.router t
  match r.buf i v with
  | [] => s
  | f :: q =>
    let port := r.out o
    let holder : Option Pkt := match f.pkt with
      | some p => some p
      | none => (port.holds[v]?.getD none).map (·.2)
    let port := if f.pkt.isSome then { port with rr := port.rr.setIfInBounds v ((i + 1) % 6) } else port
    let port := { port with holds := port.holds.setIfInBounds v (if f.last then none else holder.map (i, ·)) }
    let s := s.setRouter t { (r.setBuf i v q) with outs := r.outs.setIfInBounds o port }
    match o with
    | 5 =>
      if (holder.map fun p => onHelmDie p.dst).getD false then
        let r := s.router t
        s.setRouter t { r with bout := r.bout.setIfInBounds v ((r.bout[v]?.getD []) ++ [f]) }
      else if f.last then (holder.map s.arrive).getD s else s
    | 6 => if f.last then (holder.map fun p => { s with holdBuf := s.holdBuf ++ [(t / 1024, p)] }).getD s else s
    | _ =>
      let u := across t o
      let ru := s.router u
      let f' := { f with route := if f.pkt.isSome then (routeStep f.route).2 else 0, age := 0 }
      s.setRouter u (ru.setBuf (opposite o) v (ru.buf (opposite o) v ++ [f']))

/-- The next flit of one side enters the buffer of L on VC v, if that side has one. -/
def Router.pullFrom (r : Router) (v : Nat) (bridge : Bool) : Option Router :=
  match (if bridge then r.bin[v]?.getD [] else r.injOf v) with
  | [] => none
  | f :: q =>
    let r := { (r.setBuf 5 v (r.buf 5 v ++ [f])) with lock := r.lock.setIfInBounds v (bridge, !f.last) }
    some (if bridge then { r with bin := r.bin.setIfInBounds v q } else { r with inj := r.inj.setIfInBounds v q })

/-- Up to n flits enter the buffer of L on VC v: packets whole, those of the tile's NIs and of the bridge in turn. -/
def Router.pull (v : Nat) : Nat → Router → Router
  | 0, r => r
  | n + 1, r =>
    let (side, inside) := r.lock[v]?.getD (false, false)
    match (if inside then r.pullFrom v side else (r.pullFrom v !side).orElse fun _ => r.pullFrom v side) with
    | some r' => Router.pull v n r'
    | none => r

/-- Injected flits enter the buffer of L while it has room; those of the helm die cross the bridge first, if it carries traffic. -/
def Router.refill (up : Bool) (r : Router) : Router :=
  (List.range 4).foldl (fun r v =>
    let b := r.bin[v]?.getD []
    let h := r.hinj[v]?.getD []
    let n := if up then 32 - b.length else 0
    let r := { r with bin := r.bin.setIfInBounds v (b ++ h.take n), hinj := r.hinj.setIfInBounds v (h.drop n) }
    r.pull v (8 - (r.buf 5 v).length)) r

/-- The NIs of the helm die take the front flit of VC v of the bridge's end buffer at router t. -/
def State.drainBridge (s : State) (t v : Nat) : State :=
  let r := s.router t
  match r.bout[v]?.getD [] with
  | [] => s
  | f :: q =>
    let p? := f.pkt.orElse fun _ => r.bhold[v]?.getD none
    match p? with
    | none => s
    | some p =>
      if f.pkt.isSome && !s.niTakes p then s
      else
        let s := s.setRouter t { r with bout := r.bout.setIfInBounds v q, bhold := r.bhold.setIfInBounds v (if f.last then none else some p) }
        if f.last then s.arrive p else s

/-- A head at the front that was not granted is one cycle older. -/
def Router.older (r : Router) (granted : List (Nat × Nat)) : Router :=
  (List.range 24).foldl (fun r n =>
    let i := n / 4
    let v := n % 4
    match r.buf i v with
    | f :: q => if f.pkt.isSome && !granted.contains (i, v) then r.setBuf i v ({ f with age := f.age + 1 } :: q) else r
    | [] => r) r

/-- The packets whose heads stand before L of router t. -/
def State.atDoor (s : State) (t : Nat) : List Pkt :=
  (List.range 24).filterMap fun n =>
    match (s.router t).buf (n / 4) (n % 4) with
    | f :: _ => if s.wants t f = some 5 then f.pkt else none
    | [] => none

/-- ROUTER_ARBITRATION (R296): every output of router t chooses, then the chosen flits move. -/
def execRouterArbitration (t : Nat) (s : State) : Result :=
  if !isTile t then .next s
  else
    let s := (List.range 4).foldl (fun (s : State) v => s.drainBridge t v) s
    let s := s.setRouter t ((s.router t).refill (s.bridgeUp (4 + t / 2048)))
    let s := (s.atDoor t).foldl State.pressJournal s
    let r := s.router t
    let picks := (List.range 7).map fun o => (o, s.arbitrate t r o)
    let granted := picks.filterMap fun x => x.2.1
    let r' := picks.foldl (fun r x => { r with outs := r.outs.setIfInBounds x.1 x.2.2 }) (r.older granted)
    .next (picks.foldl (fun s x => match x.2.1 with
      | some (i, v) => s.moveFlit t x.1 i v
      | none => s) (s.setRouter t r'))

/-! Halt marks (R299). -/

def State.mark (s : State) (t : Nat) : State := { s with marks := setAdd s.marks t }

/-- The mark of a halt or of a power loss: the NIs hold the tile's halted bit with it (R336, R323). -/
def State.markHalt (s : State) (t : Nat) : State := { s.mark t with haltBits := setAdd s.haltBits t }

/-- The tile runs again: neither halted nor in a gate that parks. -/
def Site.live (x : Site) : Bool :=
  x.powered && !x.halted && (match x.gate.st with
    | .on | .quiescing => true
    | _ => false)

/-- The buffers hold packets for the tile, or are taking one. -/
def State.holdsFor (s : State) (t : Nat) : Bool :=
  (s.holdBuf.any fun h => h.2.dst == t) ||
    s.routers.any fun e => (e.2.outs[6].holds.toList).any fun h => (h.map fun (x : Nat × Pkt) => x.2.dst == t).getD false

/-- The mark of a tile that runs goes once no buffer holds or takes a packet for it, and its halted bit with it (R336). The mark of a gate
that parks stays, without the bit of a halt that has ended. -/
def State.unmark (s : State) (t : Nat) : State :=
  let x := s.site t
  if x.live then
    if s.holdsFor t then s else { s with marks := s.marks.filter (· != t), haltBits := s.haltBits.filter (· != t) }
  else if x.powered && !x.halted then { s with haltBits := s.haltBits.filter (· != t) }
  else s

end Sys2Proof.Machine
end

