-- ==== Sys2Proof/Machine/Context.lean ====
section
/-! DEFINITION. System registers (R147 to R149), TRAP, BRK, WFI (R150), the trap sequence (R141, R142), the watchdog (R144),
halts (R146, R337) and the YIELD-free side of context states (R138). -/

namespace Sys2Proof.Machine

/-- The state of a context without a halt, a migration or a gate: the one that it goes back to (R137, R138). -/
def Ctx.rest (y : Ctx) : CtxSt :=
  match y.st with
  | .migrating | .saved | .halted => y.prior
  | st => st

/-- The watchdog counts a cycle of the context (R144): RUNNING, STALLED or DORMANT, without HALTHOLD. -/
def Ctx.watched (y : Ctx) : Bool :=
  !y.hold && (match y.st with
    | .running | .stalled | .dormant => true
    | _ => false)

/-- KIND and SOURCE of messages from a site (R32). -/
def srcKind (t : Nat) : Nat × Nat :=
  if isTile t then (0, t) else if isHalyard t then (1, t - Config.tiles) else (2, t - Config.tiles - Config.halyards)

/-- The tile on the other die with the same m, y and x (R155). -/
def partnerOf (t : Nat) : Nat := if t / 1024 % 2 = 0 then t + 1024 else t - 1024

/-- Physical row of a logical tile after spare-row remapping (R357). -/
def State.physRow (s : State) (t : Nat) : Nat :=
  match mapGet? s.boot.spare (tileDie t * 32 + tileX t) with
  | some y => if y ≤ tileY t then tileY t + 1 else tileY t
  | none => tileY t

/-- An activation runs on channel 31 (INTRAP). -/
def Ctx.inTrap (c : Ctx) : Bool := c.chan = 31

/-- SY.STATUS of context c (R148). -/
def syStatus (x : Site) (c : Fin 4) : Nat :=
  let y := x.core.ctxs[c]
  let bound := ((List.finRange 4).map fun j => if x.core.ctxs[j].st = .empty then 0 else 2 ^ (4 + j.val)).sum
  hdrRetry y.hdr * 2 ^ 24 + y.chan * 2 ^ 16 + min x.tdrop 255 * 2 ^ 8 + bound + b2n y.hold * 8 + b2n y.inTrap * 4 + c.val

/-- SY.TILE (R148). A halyard or helm core, which has no logical number and no place, shows its site number modulo 8,192 and the row and
column that a tile of that number would have (DESIGN CHOICE, log 89). -/
def State.syTile (s : State) (t : Nat) : Nat :=
  let x := s.site t
  if x.migrated then 2 ^ 32 + x.pcol * 2 ^ 24 + x.prow * 2 ^ 16 + t % 8192
  else tileX t * 2 ^ 24 + s.physRow t * 2 ^ 16 + t % 8192

/-- SY.TCAUSE (R148): 0 outside channel 31. -/
def Ctx.tcause (c : Ctx) : Nat :=
  if c.inTrap then
    let w := ((c.record.getD []).headD 0).toNat
    b2n (bit w 15) * 2 ^ 17 + b2n c.drop * 2 ^ 16 + bits w 8 3 * 2 ^ 8 + bits w 0 8
  else 0

/-- The value of system register n for context c of site t (R147, R148). SY.WDOG.ELAPSED has 16 bits and wraps (DESIGN CHOICE, log 86). -/
def State.sysRead (s : State) (t : Nat) (c : Fin 4) (n : Nat) : Nat :=
  let x := s.site t
  let y := x.core.ctxs[c]
  match n with
  | 0x000 => syStatus x c
  | 0x001 => s.syTile t
  | 0x002 => x.krn.tenant * 2 ^ 48 + min x.krn.chain 255 * 2 ^ 40 + x.krn.ver * 2 ^ 32 + x.krn.handle.toNat
  | 0x003 => y.flags.toNat
  | 0x004 => x.core.mxovf.toNat
  | 0x005 => b2n x.krn.maint
  | 0x006 => b2n x.frozen * 256 + x.core.free
  | 0x007 => y.wdog / 1024 % 2 ^ 16 * 2 ^ 32 + x.krn.limit.toNat
  | 0x008 => b2n x.dbg * 2 ^ 16 + x.lastg.toNat * 2 ^ 8 + x.haltg.toNat
  | 0x009 => x.partner * 256 + b2n x.gate.sleepReq
  | 0x00A => y.tcause
  | 0x00B => s.cycle
  | 0x010 => y.lp[0].lc.toNat
  | 0x011 => y.lp[1].lc.toNat
  | 0x012 => y.lp[0].li.toNat
  | 0x013 => y.lp[1].li.toNat
  | _ => 0

/-- Register number of SYSR and SYSW: a = number[9:5], b = number[4:0]. -/
def sysNumber (m n : Fin 32) : Nat := m.val * 32 + n.val

def execSysr (d m n : Fin 32) (s : State) : Result :=
  issue (.sysr d m n) s fun s =>
    s.done 4 (s.ctx.setS d (BitVec.ofNat 64 (s.sysRead s.cur.1 s.cur.2 (sysNumber m n))))

/-- SYSW may write register n (R147). -/
def State.sysMay (s : State) (n : Nat) : Bool :=
  n = 3 || n = 4 || (n = 7 && s.me.krn.maint) || (n = 10 && s.ctx.inTrap)

/-- The writable fields of register n (R147). -/
def State.sysWrite (s : State) (n : Nat) (x : Word) : State :=
  match n with
  | 3 => s.modCtx fun c => { c with flags := x.setWidth 5 }
  | 4 => s.modCore s.cur.1 fun k => { k with mxovf := x.setWidth 32 }
  | 7 => s.modSite s.cur.1 fun y => { y with krn := { y.krn with limit := x.setWidth 16 } }
  | 10 => s.modCtx fun c => { c with drop := x.getLsbD 16 }
  | _ => s

def execSysw (d m n : Fin 32) (s : State) : Result :=
  issuePriv (.sysw d m n) s (!s.sysMay (sysNumber m n)) (BitVec.ofNat 64 (sysNumber m n)) fun s =>
    let t := s.sysWrite (sysNumber m n) (s.ctx.sreg d)
    t.done 4 t.ctx

/-- TRAP n (R150). -/
def execTrap (a b : Fin 32) (s : State) : Result :=
  issue (.trap a b) s fun s => s.raise { cause := cSOFT, code := BitVec.ofNat 10 (a.val * 32 + b.val) }

/-! Halting (R146, R299, R336 to R338). -/

/-- An entry of the Sumac event log: 1 halt, 2 resume, 3 watchdog trap, 4 error record (R342). -/
def State.note (s : State) (kind t : Nat) : State :=
  { s with sumac := { s.sumac with events := s.sumac.events ++ [(kind, t, s.cycle)] } }

/-- A stop on groups g of a tenant reaches its tiles, all but one (R337); LAST shows it from the halt on. -/
def State.raiseStop (s : State) (tenant : Nat) (g : BitVec 8) (but : Option Nat) : State :=
  { s with sites := s.sites.map fun e =>
      let hit := e.2.haltg &&& g
      if isTile e.1 && e.2.krn.launch.isSome && e.2.krn.tenant == tenant && hit != 0 && but != some e.1 then
        (e.1, { e.2 with lastg := if e.2.halted then e.2.lastg ||| hit else e.2.lastg, heldg := e.2.heldg ||| hit,
                         haltReq := e.2.haltReq || !e.2.halted })
      else e }

/-- A context is HALTED with its tile, unless it is already a record (R138). -/
def Ctx.halt (c : Ctx) : Ctx :=
  match c.st with
  | .running | .stalled | .dormant | .empty => { c with prior := c.st, st := .halted }
  | _ => c

/-- All four contexts halt together, unless a trap sequence is in progress or an injection is not complete (R146, R298): then
the halt stays pending. LAST holds the stops that hold the tile (R337). -/
def State.haltNow (s : State) (t : Nat) : State :=
  let x := s.site t
  if !x.haltReq || x.halted || (x.core.ctxs.toList.any fun c => c.st == .trapped) || s.injecting (attach t 0) then s
  else
    let own := x.ownHalt
    let s := s.modSite t fun x =>
      { x with halted := true, haltReq := false, lastg := x.heldg, core := { x.core with ctxs := vmap Ctx.halt x.core.ctxs } }
    let s := (s.markHalt t).note 1 t
    if own then s.raiseStop x.krn.tenant x.haltg (some t) else s

/-- Tile t halts for its own cause. -/
def State.haltOwn (s : State) (t : Nat) : State :=
  (s.modSite t fun x => { x with haltReq := true, ownHalt := true, ownAt := s.cycle }).haltNow t

/-- TILE_HALT: a pending halt takes place. -/
def execTileHalt (t : Nat) (s : State) : Result := atSite t s fun s => s.haltNow t

/-- BRK: the tile halts with the pc at the BRK, or the context traps with BREAK (R150). A RUNNING context at its BRK issues nothing
until the halt. -/
def execBrk (s : State) : Result :=
  issue .brk s fun s =>
    if s.me.dbg then
      let s := s.modCtx fun c => { c with st := .running, wait := .none, atBrk := true }
      s.haltOwn s.cur.1
    else s.raise { cause := cBREAK }

/-- A context that stood at its BRK goes on after it (R150). -/
def Ctx.passBrk (c : Ctx) : Ctx := if c.atBrk then { c.advance 4 with atBrk := false } else c

/-- The context after a resume: its prior state; past the BRK that halted it. -/
def Ctx.unhalt (c : Ctx) : Ctx := if c.st = .halted then { c with st := c.prior : Ctx }.passBrk else c

/-- The tile resumes when neither its own halt nor any group of LAST holds it; LAST is cleared (R338). Waiters in SEMWAIT are served
again (R198). -/
def State.resumeNow (s : State) (t : Nat) : State :=
  let x := s.site t
  if x.halted && !x.ownHalt && x.heldg == 0 then
    let s := s.modSite t fun x =>
      { x with halted := false, lastg := 0, core := ({ x.core with ctxs := vmap Ctx.unhalt x.core.ctxs } : Core).semServe }
    (s.unmark t).note 2 t
  else s

/-! The trap sequence (R141, R142). -/

/-- A record into a slot of the mailbox and its message on channel 31. -/
def State.queueRecord (s : State) (t slot : Nat) (r : Rec) (source : Nat × Nat) : State :=
  let bytes := r.flatMap fun w => leBytes 8 w.toNat
  let a := Config.recordSlots + 64 * slot
  let s := s.modSite t fun x => x.store a bytes
  s.modCore t fun k =>
    let d : Desc := { hdr := mkHdr 0 source.1 source.2 2 31, addr := a, beats := 2, entry := s.cycle, head := some s.cycle }
    { k with slots := setAdd k.slots slot, chq := k.chq.set 31 (k.chq[31] ++ [d]) }.wake

/-- The helm keeps the record of a tile for its tenant (R141, R342); halyard and helm cores belong to none (R356), and theirs is kept by
Sumac alone. -/
def State.keepRecord (s : State) (t : Nat) (r : Rec) : State :=
  if !isTile t then { s with sumac := { s.sumac with recs := s.sumac.recs ++ [(t, r)] } }
  else
    let n := (s.site t).krn.tenant
    match mapGet? s.tenants n with
    | some x => { s with tenants := mapPut s.tenants n { x with recs := x.recs ++ [(t, r)] } }
    | none => s

/-- The records of tile t that f names are discarded (R335). -/
def State.dropRecords (s : State) (t : Nat) (f : Rec → Bool) : State :=
  { s with tenants := s.tenants.map fun (e : Nat × Tenant) => (e.1, { e.2 with recs := e.2.recs.filter fun r => !(r.1 == t && f r.2) }) }

/-- End of the trap sequence: the record is queued on channel 31, or the tile halts; the context is EMPTY. -/
def execTrapSequenceComplete (t c : Nat) (s : State) : Result :=
  atCtx t c s fun c s =>
    let y := s.ctxAt t c
    match y.st, y.trap with
    | .trapped, some r =>
      let s := s.setCtxAt t c { y with st := .empty, trap := none }
      if y.inTrap || !(s.site t).traps then
        (s.keepRecord t r).haltOwn t
      else s.queueRecord t c.val r (srcKind t)
    | _, _ => s

/-- The commit word of a RETIRE that waits is written: nothing is left that could trap (R180, R324). -/
def Ctx.retired (y : Ctx) (b : Ballast) : Bool := y.ending.isSome && (y.persisted.map fun n => decide (n ≤ b.last)).getD false

/-- The count of context c has reached SY.WDOG.LIMIT (R144). -/
def Site.expired (x : Site) (c : Fin 4) : Bool :=
  let y := x.core.ctxs[c]
  (y.st == .running || y.st == .stalled || y.st == .dormant) && x.krn.limit != 0 && decide (x.krn.limit.toNat ≤ y.wdog / 1024) &&
    !y.retired x.ballast

/-- A context whose watchdog has expired traps (R144). -/
def State.expire (s : State) (t : Nat) (c : Fin 4) : State :=
  if (s.site t).expired c then (s.trapAt t c { cause := cWATCHDOG, w4 := (s.site t).krn.limit.setWidth 64 }).note 3 t else s

/-- WATCHDOG_EXPIRY (R144): every step takes it in the cycle in which the count reaches the limit (State.watchdogs). -/
def execWatchdogExpiry (t c : Nat) (s : State) : Result := atCtx t c s fun c s => s.expire t c

/-! WFI (R138, R150): the pc stays at a WFI until it is woken. -/

def execWfi (s : State) : Result :=
  issue .wfi s fun s =>
    let c := s.ctx
    if c.latch then s.done 4 { c with latch := false } else s.setCtx { c with st := .dormant, wait := .none }

def execWfiWake (t c : Nat) (s : State) : Result :=
  atCtx t c s fun c s =>
    let y := s.ctxAt t c
    if y.st = .dormant && y.latch then s.setCtxAt t c { y.advance 4 with latch := false } else s

end Sys2Proof.Machine
end

