-- ==== Sys2Proof/Machine/Activation.lean ====
section
/-! DEFINITION. Messages and activations: arrival into the mailbox (R151 to R153, R324), ageing (R36), selection (R35), power
admission (R45, R46), the entry state (R31). -/

namespace Sys2Proof.Machine

/-- The first message of a channel queue that no context runs becomes, or stays, the head (R36). One that an earlier message,
returned by a trap, had displaced ages from the cycle in which it first became the head (DESIGN CHOICE, log 66). -/
def markHead (now : Nat) : List Desc → List Desc
  | [] => []
  | d :: r => if d.runBy.isSome then d :: markHead now r else { d with head := some (d.head.getD now) } :: r

def headOf (q : List Desc) : Option Desc := q.find? (·.runBy.isNone)

/-- A whole message enters its channel queue (R151, R153), after its journal entry on a PERSIST channel (R324). -/
def State.acceptMsg (s : State) (t : Nat) (hdr : Word) (beats : List VWord) (addr : Nat) (journaled : Bool) : State :=
  let ch := hdrChan hdr
  let s := s.modSite t fun x => x.store addr (ofBeats beats)
  let s := s.modCore t fun k =>
    let d : Desc := { hdr := hdr, addr := addr, beats := beats.length, entry := s.cycle }
    { k with chq := k.chq.set (chanFin ch) (markHead s.cycle (k.chq[chanFin ch] ++ [d])) }.wake
  if entPersist ((s.site t).entry ch) && !journaled then
    let s := s.modSite t fun x =>
      { x with ballast := { x.ballast with journal := x.ballast.journal ++ [{ hdr := hdr, beats := beats, addr := addr }] } }
    if 16384 < journalBytes (s.site t).ballast.journal then s.askCommit t else s
  else s

/-- Messages of the launch unit are not counted (R43). -/
def fromLaunchUnit (hdr : Word) : Bool := bits hdr.toNat 38 2 == 2 && bits hdr.toNat 19 13 == 16

/-- MESSAGE_ARRIVAL: the NI writes a whole message into the lowest run that fits and queues its descriptor. -/
def execMessageArrival (t : Nat) (s : State) : Result :=
  atNi t s fun s =>
    let x := s.site t
    match x.rxMsg with
    | [] => s
    | p :: rest =>
      match p.load with
      | .msg hdr beats =>
        match x.core.findRun beats.length with
        | none => s
        | some a =>
          let s := s.modSite t fun x =>
            { x with rxMsg := rest, accepted := x.accepted + (if fromLaunchUnit hdr then 0 else 1),
                     krn := { x.krn with owed := x.krn.owed && !fromLaunchUnit hdr } }
          s.acceptMsg t hdr beats a false
      | _ => s.modSite t fun x => { x with rxMsg := rest }

/-! Ageing (R36): one step for every full 4,096 cycles that a head has waited, to priority 3. -/

def ageDesc (now : Nat) (d : Desc) : Desc :=
  match d.head with
  | some h => if d.runBy.isNone then { d with aged := max d.aged (min 3 ((now - h) / 4096)) } else d
  | none => d

def Core.age (k : Core) (now : Nat) : Core := { k with chq := vmap (fun q => q.map (ageDesc now)) k.chq }

def execPriorityAgeing (t : Nat) (s : State) : Result := atSite t s fun s => s.modCore t fun k => k.age s.cycle

/-! Selection (R35). -/

/-- An activation of channel ch runs, or is trapped, or its trap is being handled on channel 31. -/
def Core.busyChan (k : Core) (ch : Nat) : Bool :=
  k.ctxs.toList.any fun c => (c.st != .empty && c.chan == ch) ||
    (c.st != .empty && c.inTrap && decide (bits (((c.record.getD []).headD 0).toNat) 16 5 = ch) &&
      !bit (((c.record.getD []).headD 0).toNat) 15)

/-- Eligibility without power admission; a message whose descriptor has an uncorrectable word is not (DESIGN CHOICE, log 100). MASK and BLOCKED of channel 31 are ignored (R142). -/
def Site.eligible (x : Site) (ch : Nat) : Option Desc :=
  if ch = 30 || (ch = 31 && !x.traps) then none
  else
    let e := x.entry ch
    match headOf x.core.chq[chanFin ch] with
    | none => none
    | some d =>
      if d.held || d.deferred || d.bad then none
      else if ch ≠ 31 && (entMask e || entBlocked e) then none
      else if entSerial e && x.core.busyChan ch then none
      else some d

def effPrio (e : Word) (d : Desc) : Nat := min 3 (entPrio e + d.aged)

/-- a is selected before b: channel 31 first, then priority, age in the queue, channel number (R35, R142). -/
def before (a b : Nat × Nat × Desc) : Bool :=
  if a.1 = 31 || b.1 = 31 then a.1 == 31 && b.1 != 31
  else if a.2.1 ≠ b.2.1 then decide (b.2.1 < a.2.1)
  else if a.2.2.entry ≠ b.2.2.entry then decide (a.2.2.entry < b.2.2.entry)
  else decide (a.1 < b.1)

def insertSel (a : Nat × Nat × Desc) : List (Nat × Nat × Desc) → List (Nat × Nat × Desc)
  | [] => [a]
  | b :: r => if before a b then a :: b :: r else b :: insertSel a r

/-- The eligible channels in the order of selection. -/
def Site.order (x : Site) : List (Nat × Nat × Desc) :=
  ((List.range 32).filterMap fun ch => (x.eligible ch).map fun d => (ch, effPrio (x.entry ch) d, d)).foldr insertSel []

/-- The context that takes a message: the lowest free one; for channels 0 to 29 its record slot is free too (R35, R142). -/
def Core.freeCtx (k : Core) (ch : Nat) : Option (Fin 4) :=
  (List.finRange 4).find? fun c => k.ctxs[c].st = .empty && (ch = 31 || !k.slots.contains c.val)

/-! Power admission (R45, R46). -/

/-- The cluster in which tile t counts, wherever its work runs (DESIGN CHOICE, log 84). -/
def State.cluster (s : State) (t : Nat) : Cluster := mapGetD s.power.clusters (clusterOf t) {}

/-- An activation is bound that has neither retired nor trapped. -/
def Ctx.active (y : Ctx) : Bool :=
  match y.rest with
  | .empty | .trapped => false
  | _ => true

/-- PEAK of every activation that runs in the cluster of t (R45). -/
def State.peaks (s : State) (t : Nat) : List Nat :=
  (s.sites.filter fun e => isTile e.1 && clusterOf e.1 == clusterOf t).flatMap fun e =>
    (e.2.core.ctxs.toList.filter Ctx.active).map fun y => entPeak (e.2.entry y.chan)

/-- Admission of message d by an entry e at tile t (R45). One whose ENERGY exceeds the whole budget is admitted only if it sought
admission at the start of the interval and nothing has been admitted in it; one whose PEAK exceeds the limit, only alone (R46)
(DEDUCED, log 32). -/
def State.admits (s : State) (t : Nat) (e : Word) (d : Desc) : Bool :=
  let k := s.cluster t
  let l := s.peaks t
  (decide (entEnergy e ≤ k.left) || (decide (k.budget < entEnergy e) && d.atStart && !k.any)) &&
    (decide (l.sum + entPeak e ≤ k.peak) || (decide (k.peak < entPeak e) && l.isEmpty))

/-- Charges an activation; the budget stops at zero. -/
def State.charge (s : State) (t : Nat) (e : Word) : State :=
  let k := s.cluster t
  let k' := { k with left := k.left - entEnergy e, any := true }
  { s with power := { s.power with clusters := mapPut s.power.clusters (clusterOf t) k' } }

/-! The entry state (R31). -/

/-- The registers s1 to s4, s30 and s31 of an activation. -/
def entryRegs (x : Site) (c : Fin 4) (hdr : Word) (addr : Nat) (r : Vector Word 32) : Vector Word 32 :=
  ((((((r.set 1 hdr).set 2 (BitVec.ofNat 64 addr)).set 3 x.krn.wid).set 4 (BitVec.ofNat 64 x.krn.argBase)).set 30
    (BitVec.ofNat 64 (x.krn.stkBase + (c.val + 1) * x.krn.stkSize))).set 31 0)

/-- A context at entry. What outlives an activation stays: FR (R195), far writes not yet acknowledged, request numbers. -/
def entryCtx (x : Site) (c : Fin 4) (old : Ctx) (d : Desc) (rec? : Option Rec) : Ctx :=
  { s := entryRegs x c d.hdr d.addr (Vector.replicate 32 0), mrow := 0xFFFF, mcol := 0xFFFF,
    pc := BitVec.ofNat 64 (entEntry (x.entry (hdrChan d.hdr))), st := .running, chan := hdrChan d.hdr, hdr := d.hdr,
    fr := old.fr, unacked := old.unacked, posted := old.posted, lost := old.lost, reqid := old.reqid,
    reqBase := old.reqid, fenceId := old.fenceId, record := rec? }

/-- The trap record that a channel-31 message carries. -/
def Site.recordAt (x : Site) (a : Nat) : Rec := (List.range 8).map fun i => BitVec.ofNat 64 (memRead x.mem (a + 8 * i) 8)

/-- Starts channel ch's head on context c. -/
def State.start (s : State) (t ch : Nat) (c : Fin 4) (d : Desc) : State :=
  let x := s.site t
  let y := entryCtx x c (s.ctxAt t c) d (if ch = 31 then some (x.recordAt d.addr) else none)
  let q := x.core.chq[chanFin ch]
  let i := (q.findIdx? fun e => e.runBy.isNone).getD 0
  let q' := (q.take i) ++ [{ d with runBy := some c.val }] ++ markHead s.cycle (q.drop (i + 1))
  (((s.modCore t fun k => { k with chq := k.chq.set (chanFin ch) q' }).setCtxAt t c y)).charge t (x.entry ch)

/-- Tries the channels in their order: one that fails the admission check waits for the next interval (R45). -/
def State.trySelect (s : State) (t : Nat) : List (Nat × Nat × Desc) → State
  | [] => s
  | (ch, _, d) :: r =>
    match (s.site t).core.freeCtx ch with
    | none => s.trySelect t r
    | some c =>
      if ch = 31 || !isTile t || s.admits t ((s.site t).entry ch) d then s.start t ch c d
      else
        let q := (s.site t).core.chq[chanFin ch].map fun e => if e = d then { e with deferred := true } else e
        (s.modCore t fun k => { k with chq := k.chq.set (chanFin ch) q }).trySelect t r

/-- The tile selects: it runs and no gate, halt or migration has stopped selection. -/
def Site.selects (x : Site) : Bool :=
  x.powered && !x.halted && !x.haltReq && !x.quiesce && x.gate.st = .on

/-- Tile t selects, if it may. -/
def State.selectAt (s : State) (t : Nat) : State :=
  if (s.site t).up && (s.site t).selects then
    let s := s.modCore t fun k => k.age s.cycle
    s.trySelect t (s.site t).order
  else s

/-- The tiles of t's cluster in lower columns that select with t do so first (R46). -/
def State.selectBefore (s : State) (t : Nat) : State :=
  if isTile t then (List.range (t % 16)).foldl (fun (s : State) j => s.selectAt (t / 16 * 16 + j)) s else s

/-- ACTIVATION_START (R35). -/
def execActivationStart (t : Nat) (s : State) : Result :=
  atSite t s fun s => if (s.site t).selects then (s.selectBefore t).selectAt t else s

end Sys2Proof.Machine
end

