-- ==== Sys2Proof/Machine/Scalar.lean ====
section
/-! DEFINITION. Scalar arithmetic (R79 to R86), predicates (R87), control transfer (R88 to R91), hardware loops (R92 to R94), the
compact forms (R53) and the prefix (R55). -/

namespace Sys2Proof.Machine

/-- A register result (R79): s_d := x. -/
def wrS (i : Instr) (s : State) (d : Fin 32) (f : Ctx → Word) : Result := simple i s fun c => c.setS d (f c)

/-- Division toward zero with the edge cases of R80. -/
def divS (a b : Word) : Word := if b = 0 then BitVec.allOnes 64 else BitVec.ofInt 64 (a.toInt.tdiv b.toInt)
def remS (a b : Word) : Word := if b = 0 then a else BitVec.ofInt 64 (a.toInt.tmod b.toInt)
def divU (a b : Word) : Word := if b = 0 then BitVec.allOnes 64 else BitVec.ofNat 64 (a.toNat / b.toNat)
def remU (a b : Word) : Word := if b = 0 then a else BitVec.ofNat 64 (a.toNat % b.toNat)

/-- The high halves of R79. -/
def mulhS (a b : Word) : Word := BitVec.ofInt 64 (a.toInt * b.toInt / 2 ^ 64)
def mulhU (a b : Word) : Word := BitVec.ofNat 64 (a.toNat * b.toNat / 2 ^ 64)

/-- The shift amount s_b[5:0]. -/
def amount (b : Word) : Nat := b.toNat % 64

def ofBool (b : Bool) : Word := if b then 1 else 0

/-- Leading zeros, trailing zeros and ones of the low n bits. -/
def clzAux (x : Nat) : Nat → Nat
  | 0 => 0
  | n + 1 => if bit x n then 0 else clzAux x n + 1

def ctzAux (x : Nat) : Nat → Nat
  | 0 => 0
  | n + 1 => if x % 2 = 1 then 0 else ctzAux (x / 2) n + 1

def popAux (x : Nat) : Nat → Nat
  | 0 => 0
  | n + 1 => x % 2 + popAux (x / 2) n

def minS (a b : Word) : Word := if a.toInt ≤ b.toInt then a else b
def maxS (a b : Word) : Word := if a.toInt ≤ b.toInt then b else a
def minU (a b : Word) : Word := if a.toNat ≤ b.toNat then a else b
def maxU (a b : Word) : Word := if a.toNat ≤ b.toNat then b else a

def execAdd (d a b : Fin 32) (s : State) : Result := wrS (.add d a b) s d fun c => c.sreg a + c.sreg b
def execSub (d a b : Fin 32) (s : State) : Result := wrS (.sub d a b) s d fun c => c.sreg a - c.sreg b
def execMul (d a b : Fin 32) (s : State) : Result := wrS (.mul d a b) s d fun c => c.sreg a * c.sreg b
def execMulh (d a b : Fin 32) (s : State) : Result := wrS (.mulh d a b) s d fun c => mulhS (c.sreg a) (c.sreg b)
def execMulhu (d a b : Fin 32) (s : State) : Result := wrS (.mulhu d a b) s d fun c => mulhU (c.sreg a) (c.sreg b)
def execDiv (d a b : Fin 32) (s : State) : Result := wrS (.div d a b) s d fun c => divS (c.sreg a) (c.sreg b)
def execDivu (d a b : Fin 32) (s : State) : Result := wrS (.divu d a b) s d fun c => divU (c.sreg a) (c.sreg b)
def execRem (d a b : Fin 32) (s : State) : Result := wrS (.rem d a b) s d fun c => remS (c.sreg a) (c.sreg b)
def execRemu (d a b : Fin 32) (s : State) : Result := wrS (.remu d a b) s d fun c => remU (c.sreg a) (c.sreg b)
def execAnd (d a b : Fin 32) (s : State) : Result := wrS (.and d a b) s d fun c => c.sreg a &&& c.sreg b
def execOr (d a b : Fin 32) (s : State) : Result := wrS (.or d a b) s d fun c => c.sreg a ||| c.sreg b
def execXor (d a b : Fin 32) (s : State) : Result := wrS (.xor d a b) s d fun c => c.sreg a ^^^ c.sreg b
def execShl (d a b : Fin 32) (s : State) : Result := wrS (.shl d a b) s d fun c => c.sreg a <<< amount (c.sreg b)
def execShr (d a b : Fin 32) (s : State) : Result := wrS (.shr d a b) s d fun c => c.sreg a >>> amount (c.sreg b)
def execSha (d a b : Fin 32) (s : State) : Result :=
  wrS (.sha d a b) s d fun c => (c.sreg a).sshiftRight (amount (c.sreg b))
def execMin (d a b : Fin 32) (s : State) : Result := wrS (.min d a b) s d fun c => minS (c.sreg a) (c.sreg b)
def execMax (d a b : Fin 32) (s : State) : Result := wrS (.max d a b) s d fun c => maxS (c.sreg a) (c.sreg b)
def execMinu (d a b : Fin 32) (s : State) : Result := wrS (.minu d a b) s d fun c => minU (c.sreg a) (c.sreg b)
def execMaxu (d a b : Fin 32) (s : State) : Result := wrS (.maxu d a b) s d fun c => maxU (c.sreg a) (c.sreg b)
def execSlt (d a b : Fin 32) (s : State) : Result :=
  wrS (.slt d a b) s d fun c => ofBool (decide ((c.sreg a).toInt < (c.sreg b).toInt))
def execSltu (d a b : Fin 32) (s : State) : Result :=
  wrS (.sltu d a b) s d fun c => ofBool (decide ((c.sreg a).toNat < (c.sreg b).toNat))
def execSeq (d a b : Fin 32) (s : State) : Result := wrS (.seq d a b) s d fun c => ofBool (c.sreg a == c.sreg b)
def execClz (d a : Fin 32) (s : State) : Result :=
  wrS (.clz d a) s d fun c => BitVec.ofNat 64 (clzAux (c.sreg a).toNat 64)
def execCtz (d a : Fin 32) (s : State) : Result :=
  wrS (.ctz d a) s d fun c => BitVec.ofNat 64 (ctzAux (c.sreg a).toNat 64)
def execPopc (d a : Fin 32) (s : State) : Result :=
  wrS (.popc d a) s d fun c => BitVec.ofNat 64 (popAux (c.sreg a).toNat 64)
def execMov (d a : Fin 32) (s : State) : Result := wrS (.mov d a) s d fun c => c.sreg a
def execSel (d a b : Fin 32) (p : Fin 8) (s : State) : Result :=
  wrS (.sel d a b p) s d fun c => if (c.pval p).getLsbD 0 then c.sreg a else c.sreg b

/-- TILEID (R84): on a halyard or helm core, which has no logical tile number, the site number modulo 8,192 (DESIGN CHOICE, log 89). -/
def execTileid (d : Fin 32) (s : State) : Result :=
  wrS (.tileid d) s d fun _ => BitVec.ofNat 64 (s.me.krn.member * 2 ^ 32 + s.cur.2.val * 2 ^ 16 + s.cur.1 % 8192)

/-- GADDR (R85): checks nothing. -/
def execGaddr (d a b : Fin 32) (s : State) : Result := wrS (.gaddr d a b) s d fun c => winAddr (c.sreg a) (c.sreg b)

/-- WID.F (R86, R33): field f by the widths of the running kernel. -/
def widField (ws : List Nat) (x : Word) (f : Nat) : Word :=
  BitVec.ofNat 64 (bits x.toNat (ws.take f).sum (ws[f]?.getD 0))

def execWidF (d a : Fin 32) (f : Fin 8) (s : State) : Result :=
  wrS (.widF d a f) s d fun c => widField s.me.krn.widths (c.sreg a) f.val

/-! Immediate forms (R81 to R83). -/

def execAddi (d a : Fin 32) (i : BitVec 13) (s : State) : Result := wrS (.addi d a i) s d fun c => c.sreg a + simm13 i
def execAndi (d a : Fin 32) (i : BitVec 13) (s : State) : Result := wrS (.andi d a i) s d fun c => c.sreg a &&& simm13 i
def execOri (d a : Fin 32) (i : BitVec 13) (s : State) : Result := wrS (.ori d a i) s d fun c => c.sreg a ||| simm13 i
def execXori (d a : Fin 32) (i : BitVec 13) (s : State) : Result := wrS (.xori d a i) s d fun c => c.sreg a ^^^ simm13 i
def execSlti (d a : Fin 32) (i : BitVec 13) (s : State) : Result :=
  wrS (.slti d a i) s d fun c => ofBool (decide ((c.sreg a).toInt < (simm13 i).toInt))
def execLi (d : Fin 32) (i : BitVec 13) (s : State) : Result := wrS (.li d i) s d fun _ => simm13 i
def execLih (d a : Fin 32) (i : BitVec 13) (s : State) : Result :=
  wrS (.lih d a i) s d fun c => (c.sreg a <<< 13) ||| i.zeroExtend 64
def execShli (d a : Fin 32) (n : Fin 64) (s : State) : Result := wrS (.shli d a n) s d fun c => c.sreg a <<< n.val
def execShri (d a : Fin 32) (n : Fin 64) (s : State) : Result := wrS (.shri d a n) s d fun c => c.sreg a >>> n.val
def execShai (d a : Fin 32) (n : Fin 64) (s : State) : Result :=
  wrS (.shai d a n) s d fun c => (c.sreg a).sshiftRight n.val

/-- BEXT: field of len = l + 1 bits from p. -/
def execBext (d a : Fin 32) (p l : Fin 64) (s : State) : Result :=
  wrS (.bext d a p l) s d fun c => BitVec.ofNat 64 (bits (c.sreg a).toNat p.val (l.val + 1))

/-- BINS: the low len bits of x into t at p. -/
def insertField (t x p n : Nat) : Nat := t / 2 ^ (p + n) * 2 ^ (p + n) + x % 2 ^ n * 2 ^ p + t % 2 ^ p

def execBins (d a : Fin 32) (p l : Fin 64) (s : State) : Result :=
  wrS (.bins d a p l) s d fun c =>
    BitVec.ofNat 64 (insertField (c.sreg d).toNat (c.sreg a).toNat p.val (l.val + 1))

/-! Predicates (R87). -/

def execPset (d a : Fin 32) (s : State) : Result :=
  simple (.pset d a) s fun c => c.setP d ((c.sreg a).setWidth 32)
def execPand (d a b : Fin 32) (s : State) : Result := simple (.pand d a b) s fun c => c.setP d (c.preg a &&& c.preg b)
def execPor (d a b : Fin 32) (s : State) : Result := simple (.por d a b) s fun c => c.setP d (c.preg a ||| c.preg b)
def execPxor (d a b : Fin 32) (s : State) : Result := simple (.pxor d a b) s fun c => c.setP d (c.preg a ^^^ c.preg b)
def execPnot (d a : Fin 32) (s : State) : Result := simple (.pnot d a) s fun c => c.setP d (~~~ c.preg a)

/-! Control transfer (R88, R89). -/

/-- A conditional branch: to the target when taken, else behind it. -/
def branch (i : Instr) (s : State) (taken : Ctx → Bool) (target : Ctx → Word) : Result :=
  issue i s fun s => if taken s.ctx then s.setCtx (s.ctx.jump (target s.ctx)) else s.done i.size s.ctx

def execBeq (a b : Fin 32) (i : BitVec 13) (s : State) : Result :=
  branch (.beq a b i) s (fun c => c.sreg a == c.sreg b) (bTarget · i)
def execBne (a b : Fin 32) (i : BitVec 13) (s : State) : Result :=
  branch (.bne a b i) s (fun c => c.sreg a != c.sreg b) (bTarget · i)
def execBlt (a b : Fin 32) (i : BitVec 13) (s : State) : Result :=
  branch (.blt a b i) s (fun c => decide ((c.sreg a).toInt < (c.sreg b).toInt)) (bTarget · i)
def execBge (a b : Fin 32) (i : BitVec 13) (s : State) : Result :=
  branch (.bge a b i) s (fun c => decide ((c.sreg b).toInt ≤ (c.sreg a).toInt)) (bTarget · i)
def execBltu (a b : Fin 32) (i : BitVec 13) (s : State) : Result :=
  branch (.bltu a b i) s (fun c => decide ((c.sreg a).toNat < (c.sreg b).toNat)) (bTarget · i)
def execBgeu (a b : Fin 32) (i : BitVec 13) (s : State) : Result :=
  branch (.bgeu a b i) s (fun c => decide ((c.sreg b).toNat ≤ (c.sreg a).toNat)) (bTarget · i)
def execBp (a : Fin 32) (i : BitVec 13) (s : State) : Result :=
  branch (.bp a i) s (fun c => (c.preg a).getLsbD 0) (bTarget · i)
def execBnp (a : Fin 32) (i : BitVec 13) (s : State) : Result :=
  branch (.bnp a i) s (fun c => !(c.preg a).getLsbD 0) (bTarget · i)

def execJ (i : BitVec 23) (s : State) : Result := branch (.j i) s (fun _ => true) (jTarget · i)

/-- JAL links to s31. -/
def execJal (i : BitVec 23) (s : State) : Result :=
  issue (.jal i) s fun s =>
    let c := s.ctx
    s.setCtx ((c.setS 31 (c.ipc + 4)).jump (jTarget c i))

/-- JALR: ALIGN for an odd target, before the link is written. -/
def execJalr (d a : Fin 32) (i : BitVec 13) (s : State) : Result :=
  issue (.jalr d a i) s fun s =>
    let c := s.ctx
    let t := c.sreg a + simm13 i
    if t.getLsbD 0 then s.raise { cause := cALIGN, w3 := t }
    else s.setCtx ((c.setS d (c.ipc + 4)).jump t)

/-! Hardware loops (R92, R93). -/

/-- What may not end a loop body (R93). -/
def endsNoBody : Instr → Bool
  | .beq _ _ _ | .bne _ _ _ | .blt _ _ _ | .bge _ _ _ | .bltu _ _ _ | .bgeu _ _ _ | .bp _ _ | .bnp _ _
  | .cB _ | .j _ | .jal _ | .jalr _ _ _ | .loop _ _ _ | .loopi _ _ _ | .retire | .retireWord | .retireS _ => true
  | _ => false

/-- The instruction of the code image at a, decoded, with its length; none where no instruction stands. -/
def Site.instrAt (x : Site) (a : Nat) : Option Instr :=
  match x.half a with
  | none => none
  | some lo =>
    if lo % 8 = 7 then (x.half (a + 2)).bind (decodeHalves lo) else decodeHalves lo 0

/-- The length of what stands at a, by its first bits alone (R47). -/
def Site.lenAt (x : Site) (a : Nat) : Option Nat :=
  match x.half a with
  | none => none
  | some lo => if lo % 8 = 7 then (if a + 4 ≤ x.imgSize then some 4 else none) else some 2

/-- A body instruction at a: its end and the instruction proper. A prefixed pair counts as one (R55), a PFX that itself raises ILLEGAL
with what follows it too (DESIGN CHOICE, log 68); version 1 has no PFX (R72). -/
def Site.bodyAt (x : Site) (a : Nat) : Option (Nat × Option Instr) :=
  match x.lenAt a with
  | none => none
  | some n =>
    match x.instrAt a with
    | some (.pfx p sense) =>
      if Instr.since (.pfx p sense) ≤ x.krn.ver then (x.lenAt (a + 2)).map fun m => (a + 2 + m, x.instrAt (a + 2))
      else some (a + n, none)
    | i => some (a + n, i)

/-- An instruction of the site's version that may not end a body (R72, R93). A BP or BNP with a predicate field above 7 is ILLEGAL itself
and counts as no branch: the loop starts, and the trap comes at that word (DESIGN CHOICE, log 93). -/
def Site.barred (x : Site) (i : Instr) : Bool := i.wf && decide (i.since ≤ x.krn.ver) && endsNoBody i

/-- The body of n instructions from a: address of the last and the address after it; none past the image's end or for a body
that R93 refuses. -/
def Site.body (x : Site) (a : Nat) : Nat → Option (Nat × Nat)
  | 0 => none
  | n + 1 =>
    match x.bodyAt a with
    | none => none
    | some (e, i) =>
      if n = 0 then (if (i.map x.barred).getD false then none else some (a, e)) else x.body e n

/-- Whether the pc lies in an active level's body. -/
def LoopLevel.holds (l : LoopLevel) (pc : Word) : Bool :=
  l.active && l.start.toNat ≤ pc.toNat && pc.toNat ≤ l.last.toNat

/-- The body of len instructions behind a loop instruction of the running context: the addresses of its last instruction and of its end;
none where R93 makes the loop ILLEGAL. -/
def State.loopBody (s : State) (size len : Nat) : Option (Nat × Nat) :=
  let c := s.ctx
  match s.me.body (c.ipc + BitVec.ofNat 64 size).toNat len with
  | none => none
  | some (last, stop) =>
    if c.lp[0].active && (c.lp[1].active || !c.lp[0].holds c.pc || decide (c.lp[0].last.toNat < last)) then none
    else some (last, stop)

/-- Starting a loop of n passes over len instructions with an index step (DEDUCED, log 14). With no passes the body is skipped (R19):
where it ends at the outer body's last instruction, that ends the outer pass too, so the outer count runs in full (DEDUCED, log 69). -/
def startLoop (s : State) (size len n : Nat) (step : Word) : State :=
  let c := s.ctx
  let start := c.ipc + BitVec.ofNat 64 size
  match s.loopBody size len with
  | none => s.raise { cause := cILLEGAL }
  | some (last, stop) =>
    if n = 0 then
      let c' := ({ c with pc := BitVec.ofNat 64 last } : Ctx).fallThrough (BitVec.ofNat 64 stop)
      s.setCtx { c' with pfx := none, st := .running, wait := .none }
    else
      let l : LoopLevel := { active := true, lc := BitVec.ofNat 32 n, li := 0, step := step, start := start,
                             last := BitVec.ofNat 64 last }
      s.setCtx { c with lp := if c.lp[0].active then c.lp.set 1 l else c.lp.set 0 l, pc := start, pfx := none,
                        st := .running, wait := .none }

def execLoop (d a : Fin 32) (t : BitVec 8) (s : State) : Result :=
  issue (.loop d a t) s fun s => startLoop s 4 (d.val + 1) ((s.ctx.sreg a).toNat % 2 ^ 32) (simm8 t)

def execLoopi (d n : Fin 32) (c : BitVec 13) (s : State) : Result :=
  issue (.loopi d n c) s fun s => startLoop s 4 (d.val + 1) (n.val * 8192 + c.toNat) 1

/-! Compact classes (R53, R54, R91). -/

/-- The register operation of a C.ALU word. -/
def cAluOp (o : Fin 8) (x y : Word) : Word :=
  match o.val with
  | 0 => x + y
  | 1 => x - y
  | 2 => x &&& y
  | 3 => x ||| y
  | 4 => x ^^^ y
  | 5 => y
  | 6 => x <<< amount y
  | _ => x >>> amount y

def execCAlu (d a : Fin 32) (o : Fin 8) (s : State) : Result :=
  wrS (.cAlu d a o) s d fun c => cAluOp o (c.sreg d) (c.sreg a)
def execCAddi (d : Fin 32) (i : BitVec 8) (s : State) : Result := wrS (.cAddi d i) s d fun c => c.sreg d + simm8 i
def execCLi (d : Fin 32) (i : BitVec 8) (s : State) : Result := wrS (.cLi d i) s d fun _ => simm8 i
def execCB (i : BitVec 13) (s : State) : Result := branch (.cB i) s (fun _ => true) (bTarget · i)

/-- NOP has no effect. -/
def execNop (s : State) : Result := simple .nop s id

/-- YIELD marks its context (R38, R91). -/
def execYield (s : State) : Result := simple .yield s fun c => { c with yielding := true }

/-- ILL and ILL.W raise ILLEGAL in every version (R54). -/
def execIll (s : State) : Result := .next (s.raise { cause := cILLEGAL })
def execIllW (s : State) : Result := .next (s.raise { cause := cILLEGAL })

/-- What may not follow a prefix (R55). -/
def noPrefix : Instr → Bool
  | .ill | .nop | .yield | .retire | .pfx _ _ | .loop _ _ _ | .loopi _ _ _ | .retireWord | .retireS _ => true
  | _ => false

/-- PFX: ILLEGAL at its own address before what it may not govern, or at the end of the image; else the pair is open and its
second half runs in the same step (R55). A C.SYS halfword is refused whatever its value. -/
def execPfx (p : Fin 8) (sense : Fin 2) (s : State) : Result :=
  let c := s.ctx
  let a := c.pc.toNat + 2
  let bad := match s.me.half a with
    | none => true
    | some lo => lo % 8 = 0 || lo % 8 = 6 || (((s.me.instrAt a).filter Instr.wf).map noPrefix).getD false
  if !s.legal (.pfx p sense) || c.pfx.isSome || bad then .next (s.raise { cause := cILLEGAL })
  else .next (s.setCtx { c with pfx := some (p, sense.val == 1) })

end Sys2Proof.Machine
end

