-- ==== Sys2Proof/Machine/LocalMem.lean ====
section
/-! DEFINITION. Loads and stores of the local space (R74 to R76, R95 to R97) and the compact forms C.LD (R53). -/

namespace Sys2Proof.Machine

/-- What a local read of n bytes at a meets: R75, then an uncorrectable word (R333). -/
def State.readTrap (s : State) (a : Word) (n : Nat) : Option Trap :=
  match checkLocal a n with
  | some t => some t
  | none => (s.me.badIn a.toNat n).map (eccTrap s.cycle)

/-- readl of R73 where no trap is met. -/
def State.readl (s : State) (a : Word) (n : Nat) : Nat := memRead s.me.mem a.toNat n

/-- writel of R73 for a list of bytes where no trap is met. -/
def State.writeBytes (s : State) (a : Word) (bs : List Byte) : State :=
  s.modSite s.cur.1 fun x => x.store a.toNat bs

/-- Kinds of scalar access: bytes, and whether a load sign-extends (R60, R95). -/
def ldKind (k : Nat) : Nat × Bool :=
  match k with
  | 0 => (1, true)
  | 1 => (1, false)
  | 2 => (2, true)
  | 3 => (2, false)
  | 4 => (4, true)
  | 5 => (4, false)
  | _ => (8, false)

/-- The value of a load of kind k. -/
def loadVal (k : Nat) (x : Nat) : Word :=
  let (n, signed) := ldKind k
  if signed then word (sext x (8 * n)) else BitVec.ofNat 64 x

/-- A scalar load of kind k to s_d; post is what else happens to the context. -/
def loadS (i : Instr) (s : State) (k : Nat) (d : Fin 32) (addr : Ctx → Word) (post : Ctx → Ctx) : Result :=
  issue i s fun s =>
    let a := addr s.ctx
    s.guard (s.readTrap a (ldKind k).1) fun s =>
      s.done i.size ((post s.ctx).setS d (loadVal k (s.readl a (ldKind k).1)))

/-- A scalar store of n bytes. -/
def storeS (i : Instr) (s : State) (n : Nat) (d : Fin 32) (addr : Ctx → Word) (post : Ctx → Ctx) : Result :=
  issue i s fun s =>
    let a := addr s.ctx
    s.guard (checkLocal a n) fun s =>
      let t := s.writeBytes a (leBytes n (s.ctx.sreg d).toNat)
      t.done i.size (post t.ctx)

/-- LV: under a prefix it writes the enabled byte lanes (R55). -/
def loadV (i : Instr) (s : State) (d : Fin 32) (addr : Ctx → Word) (post : Ctx → Ctx) : Result :=
  issueLanes i s fun s =>
    let a := addr s.ctx
    s.guard (s.readTrap a 32) fun s =>
      s.done i.size (post (s.ctx.setVm d (BitVec.ofNat 256 (s.readl a 32))))

/-- The lowest and highest enabled byte below n. -/
def enabledSpan (en : Nat → Bool) (n : Nat) : Option (Nat × Nat) :=
  match (List.range n).filter en with
  | [] => none
  | l => some (l.head!, l.getLast!)

/-- The enabled bytes of a register, each with its offset. -/
def enabledBytes (en : Nat → Bool) (x : VWord) (n : Nat) : List (Nat × Byte) :=
  ((List.range n).filter en).map fun j => (j, BitVec.ofNat 8 (lane x 8 j))

/-- Writes single bytes at offsets from a. -/
def State.writeAt (s : State) (a : Word) (bs : List (Nat × Byte)) : State :=
  bs.foldl (fun s b => s.writeBytes (a + BitVec.ofNat 64 b.1) [b.2]) s

/-- A bad word that the enabled of n bytes at a cover only in part: SV reads it (R333). -/
def Site.badPart (x : Site) (a n : Nat) (en : Nat → Bool) : Option Nat :=
  x.bad.find? fun w =>
    let hit := (List.range 8).filter fun j => decide (a ≤ w + j) && decide (w + j < a + n) && en (w + j - a)
    hit.length != 0 && hit.length != 8

/-- SV: the check spans the enabled bytes; nothing is checked or stored when none is (R55, R75). The address of the lowest enabled byte is
taken modulo 2^64, so that one which passes 2^64 stores at low addresses (DESIGN CHOICE, log 105), and word 3 of a fault is that address
(DESIGN CHOICE, log 106). -/
def storeV (i : Instr) (s : State) (d : Fin 32) (addr : Ctx → Word) (post : Ctx → Ctx) : Result :=
  issueLanes i s fun s =>
    let c := s.ctx
    let a := addr c
    match enabledSpan c.enabled 32 with
    | none => s.done i.size (post c)
    | some (lo, hi) =>
      let al := a + BitVec.ofNat 64 lo
      s.guard (checkLocal al (hi - lo + 1)) fun s =>
        s.guard ((s.me.badPart al.toNat (hi - lo + 1) fun j => c.enabled (lo + j)).map (eccTrap s.cycle)) fun s =>
          let t := s.writeAt a (enabledBytes c.enabled (c.vreg d) 32)
          t.done i.size (post t.ctx)

def execLdI8 (d a : Fin 32) (i : BitVec 13) (s : State) : Result := loadS (.ldI8 d a i) s 0 d (mAddr · a i) id
def execLdN8 (d a : Fin 32) (i : BitVec 13) (s : State) : Result := loadS (.ldN8 d a i) s 1 d (mAddr · a i) id
def execLdI16 (d a : Fin 32) (i : BitVec 13) (s : State) : Result := loadS (.ldI16 d a i) s 2 d (mAddr · a i) id
def execLdN16 (d a : Fin 32) (i : BitVec 13) (s : State) : Result := loadS (.ldN16 d a i) s 3 d (mAddr · a i) id
def execLdI32 (d a : Fin 32) (i : BitVec 13) (s : State) : Result := loadS (.ldI32 d a i) s 4 d (mAddr · a i) id
def execLdN32 (d a : Fin 32) (i : BitVec 13) (s : State) : Result := loadS (.ldN32 d a i) s 5 d (mAddr · a i) id
def execLdI64 (d a : Fin 32) (i : BitVec 13) (s : State) : Result := loadS (.ldI64 d a i) s 6 d (mAddr · a i) id
def execSt8 (d a : Fin 32) (i : BitVec 13) (s : State) : Result := storeS (.st8 d a i) s 1 d (mAddr · a i) id
def execSt16 (d a : Fin 32) (i : BitVec 13) (s : State) : Result := storeS (.st16 d a i) s 2 d (mAddr · a i) id
def execSt32 (d a : Fin 32) (i : BitVec 13) (s : State) : Result := storeS (.st32 d a i) s 4 d (mAddr · a i) id
def execSt64 (d a : Fin 32) (i : BitVec 13) (s : State) : Result := storeS (.st64 d a i) s 8 d (mAddr · a i) id
def execLv (d a : Fin 32) (i : BitVec 13) (s : State) : Result := loadV (.lv d a i) s d (mAddr · a i) id
def execSv (d a : Fin 32) (i : BitVec 13) (s : State) : Result := storeV (.sv d a i) s d (mAddr · a i) id

/-- LD and LV post-increment (R96). The base is written first, so a load into another register keeps its value. -/
def execLdPostinc (d a : Fin 32) (k : Fin 8) (i : BitVec 8) (s : State) : Result :=
  if k = 7 then loadV (.ldPostinc d a k i) s d (piAddr · a) (·.bump a i)
  else loadS (.ldPostinc d a k i) s k.val d (piAddr · a) (·.bump a i)

/-- ST and SV post-increment: the stored value is the old one when the base is stored. -/
def execStPostinc (d a : Fin 32) (k : Fin 32) (i : BitVec 8) (s : State) : Result :=
  if k = 4 then storeV (.stPostinc d a k i) s d (piAddr · a) (·.bump a i)
  else storeS (.stPostinc d a k i) s (2 ^ k.val) d (piAddr · a) (·.bump a i)

/-- The ECC trap of the lowest element that reads an uncorrectable word, with the element's address (R97, R333). -/
def State.elemTrap (s : State) (n bytes : Nat) (addr : Nat → Word) : Option Trap :=
  (List.range n).findSome? fun j => (s.me.badIn (addr j).toNat bytes).map fun _ => eccAt s.cycle (addr j)

/-- LVS and LVG: all checks before any byte moves (R97). -/
def gather (i : Instr) (s : State) (d : Fin 32) (w : Fin 4) (addr : Ctx → Nat → Word) : Result :=
  issueLanes i s fun s =>
    let c := s.ctx
    let b := elemBits w
    let n := 256 / b
    match (List.range n).findSome? fun j => checkLocal (addr c j) (b / 8) with
    | some t => s.raise t
    | none =>
      s.guard (s.elemTrap n (b / 8) (addr c)) fun s =>
        s.done i.size (c.setVm d (mkLanes b n fun j => s.readl (addr c j) (b / 8)))

def execLvs (d a b : Fin 32) (w : Fin 4) (s : State) : Result :=
  gather (.lvs d a b w) s d w fun c j => strideAddr (c.sreg a) (c.sreg b) j
def execLvg (d a b : Fin 32) (w : Fin 4) (s : State) : Result :=
  gather (.lvg d a b w) s d w fun c j => indexAddr (c.sreg a) (c.vreg b) (elemBits w) j

/-- SVX: elements in ascending order, each byte where it is enabled. Under a prefix the check of an element spans its enabled
bytes, and an element without one is not checked (R55, R75) (DEDUCED, log 9), with its lowest enabled byte's address modulo 2^64
(DESIGN CHOICE, log 105); the trap names the element's address (R97), also where its byte 0 is not enabled (DESIGN CHOICE, log 106). An
element that covers part of an uncorrectable word repairs it without a trap (DEDUCED, log 88). -/
def execSvx (d a b : Fin 32) (w : Fin 4) (s : State) : Result :=
  issueLanes (.svx d a b w) s fun s =>
    let c := s.ctx
    let bs := elemBits w / 8
    let addr := fun j => indexAddr (c.sreg a) (c.vreg b) (elemBits w) j
    let en := fun j k => c.enabled (j * bs + k)
    let trap := (List.range (32 / bs)).findSome? fun j =>
      match enabledSpan (en j) bs with
      | none => none
      | some (lo, hi) => (checkLocal (addr j + BitVec.ofNat 64 lo) (hi - lo + 1)).map fun t => { t with w3 := addr j }
    s.guard trap fun s =>
      let t := (List.range (32 / bs)).foldl (fun s j =>
        s.writeAt (addr j) (((List.range bs).filter (en j)).map fun k =>
          (k, BitVec.ofNat 8 (lane (c.vreg d) 8 (j * bs + k))))) s
      t.done 4 t.ctx

/-- Registers s8 to s15 of C.LD. -/
def cReg (x : Fin 8) : Fin 32 := ⟨8 + x.val, by omega⟩

def cLdAddr (a : Fin 8) (scale : Nat) (f : BitVec 5) (c : Ctx) : Word :=
  c.sreg (cReg a) + BitVec.ofNat 64 (scale * f.toNat)

def execCLd (d a : Fin 8) (o : Fin 4) (f : BitVec 5) (s : State) : Result :=
  match o.val with
  | 0 => loadS (.cLd d a o f) s 5 (cReg d) (cLdAddr a 4 f) id
  | 1 => loadS (.cLd d a o f) s 6 (cReg d) (cLdAddr a 8 f) id
  | 2 => storeS (.cLd d a o f) s 4 (cReg d) (cLdAddr a 4 f) id
  | _ => storeS (.cLd d a o f) s 8 (cReg d) (cLdAddr a 8 f) id

end Sys2Proof.Machine
end

