-- ==== Sys2Proof/Machine/Queue.lean ====
section
/-! DEFINITION. Sends and the outbox (R160 to R162, R277, R326), the architectural queues (R155 to R158, R163, R164), rings (R165,
R166), channel control (R167), remote records (R228). -/

namespace Sys2Proof.Machine

/-- The instruction at which context c of site t stands, behind its prefix if it has one. -/
def State.pending (s : State) (t : Nat) (c : Fin 4) : Option Instr :=
  let x := s.site t
  let a := (x.core.ctxs[c]).pc.toNat
  match x.instrAt a with
  | some (.pfx _ _) => x.instrAt (a + 2)
  | i => i

/-! The error ring (R354). -/

/-- An error record of 32 bytes; vector 16 is raised (R353). -/
def State.errRing (s : State) (tenant cause kind num addr : Nat) : State :=
  match mapGet? s.tenants tenant with
  | none => s
  | some n =>
    let bytes := leBytes 1 cause ++ leBytes 1 kind ++ leBytes 2 num ++ leBytes 4 0 ++ leBytes 8 addr ++ leBytes 8 s.cycle ++
      leBytes 8 0
    let n' := { n with errs := n.errs ++ [bytes], vectors := n.vectors ++ [16] }
    { s with tenants := mapPut s.tenants tenant n' }

/-! SEND and SENDM (R160, R161). -/

/-- Members of a multicast descriptor, ascending (R161). -/
def castMembers (x : Word) : List Nat :=
  ((List.range 32).filter fun i => bit x.toNat (16 + i)).map fun i => bits x.toNat 0 13 + i

def outBeats (o : List OutMsg) : Nat := (o.map fun m => m.beats.length).sum

/-- The body of SEND and SENDM. -/
def sendMsg (s : State) (targets : List Nat) (ch : Word) (a : Word) (n : Nat) : State :=
  let size := (s.membersOf s.cur.1).length
  let c := s.ctx
  let access := fun m : Nat => s.raise { cause := cACCESS, w4 := BitVec.ofNat 64 m, w5 := ch }
  match targets.find? fun m => decide (size ≤ m) with
  | some m => access m
  | none =>
    if 30 ≤ ch.toNat then access (targets.headD 0)
    else
      s.guard (checkLocal a (32 * n)) fun s =>
        if 64 < outBeats c.outbox + n || c.outbox.length = 16 then
          s.raise { cause := cOUTBOX, w4 := BitVec.ofNat 64 (outBeats c.outbox) }
        else
          s.guard (s.readTrap a (32 * n)) fun s =>
            let id := s.me.nextid
            let m : OutMsg := { targets := targets, chan := ch.toNat, id := id,
                                beats := toBeats n (memBytes s.me.mem a.toNat (32 * n)) }
            let s := s.modSite s.cur.1 fun x => { x with nextid := id + 1 }
            s.done 4 { s.ctx with outbox := s.ctx.outbox ++ [m], lastid := some id }

def execSend (d a b n : Fin 32) (s : State) : Result :=
  issue (.send d a b n) s fun s =>
    sendMsg s [(s.ctx.sreg d).toNat] (s.ctx.sreg a) (s.ctx.sreg b) (n.val + 1)

def execSendm (d a b n : Fin 32) (s : State) : Result :=
  issue (.sendm d a b n) s fun s =>
    let x := s.ctx.sreg d
    if bits x.toNat 48 16 != 0 || bits x.toNat 13 3 != 0 then
      s.raise { cause := cACCESS, w4 := BitVec.ofNat 64 (bits x.toNat 0 13) }
    else sendMsg s (castMembers x) (s.ctx.sreg a) (s.ctx.sreg b) (n.val + 1)

def execMsgid (d : Fin 32) (s : State) : Result :=
  wrS (.msgid d) s d fun c => match c.lastid with
    | some i => i.setWidth 64
    | none => BitVec.allOnes 64

/-- A posted request is acknowledged; any other is answered. -/
def FarOp.posted : FarOp → Bool
  | .store _ | .vrecl _ _ => true
  | _ => false

/-- A local posted reclaim that ca has not performed. -/
def FarReq.isOwnPost (r : FarReq) : Bool := !r.ni && r.op.posted

/-- The NI may inject the message: its context is EMPTY (R20, R180), its commit word is written (R324), and ca has performed the reclaims
that it releases (R277). -/
def Site.mayInject (x : Site) (p : PendMsg) : Bool :=
  p.ctx.isNone && (match p.gate with
    | some n => decide (n ≤ x.ballast.last)
    | none => true) && !x.halted && !(x.core.caq.any FarReq.isOwnPost)

/-- OUTBOX_INJECT: the NI injects the next copy of the oldest message handed to it; a PERSIST message only once its commit
word is written, with an injected record (R324); a copy for an OFF member is dropped and counted (R326). Of a message with an
uncorrectable word nothing is sent any more: the helm is told, and it goes (R333, R335) (DESIGN CHOICE, log 100). -/
def execOutboxInject (t : Nat) (s : State) : Result :=
  atSite t s fun s =>
    let x := s.site t
    match x.core.pend with
    | [] => s
    | p :: rest =>
      if !x.mayInject p then s
      else if p.msg.bad then (s.errRecord t 6 (p.ctx.getD 4)).modCore t fun k => { k with pend := rest }
      else
        match p.msg.targets with
        | [] => s.modCore t fun k => { k with pend := rest }
        | m :: ms =>
          let s := s.modCore t fun k => { k with pend := { p with msg := { p.msg with targets := ms } } :: rest }
          match s.memberTile t m with
          | none => s
          | some u =>
            if s.isOff u then
              let n := x.krn.tenant
              let s := match mapGet? s.tenants n with
                | some w => { s with tenants := mapPut s.tenants n { w with gateRec := w.gateRec + 1 } }
                | none => s
              s.errRing n 0x0F 2 u 0
            else
              let s := s.modSite t fun x =>
                { x with released := x.released + 1,
                         ballast := if p.persist then
                           { x.ballast with injected := x.ballast.injected ++ [(p.msg.id.toNat, m)] } else x.ballast }
              let k := srcKind t
              s.sendTo t u p.vc p.msg.beats.length
                (.msg (mkHdr p.msg.id.toNat k.1 k.2 p.msg.beats.length p.msg.chan) p.msg.beats)

/-! The architectural queues. -/

def depth (q : Nat) : Nat := if q < 4 then 8 else if q = 6 then 8 else 16

/-- Entries, pops and pushes of queue q. -/
def Core.qcount (k : Core) (q : Nat) : Nat × Nat × Nat :=
  let f := fun {w : Nat} (x : Fifo w) => (x.items.length, x.pops, x.pushes)
  match q with
  | 0 => f k.qs[0]
  | 1 => f k.qs[1]
  | 2 => f k.qs[2]
  | 3 => f k.qs[3]
  | 4 => f k.q45[0]
  | 5 => f k.q45[1]
  | 6 => f k.q6
  | _ => f k.q7

def Fifo.push {w : Nat} (f : Fifo w) (x : BitVec w) : Fifo w := { f with items := f.items ++ [x], pushes := f.pushes + 1 }
def Fifo.pop {w : Nat} (f : Fifo w) : Fifo w := { f with items := f.items.drop 1, pops := f.pops + 1 }

/-- QPUSH fails at site t (R163). Only a tile has a partner. -/
def State.qfullAt (s : State) (t q : Nat) : Bool :=
  let x := s.site t
  if q = 6 then x.frozen || x.core.free == 0 || !isTile t else decide (depth q ≤ (x.core.qcount q).1)

def State.qfull (s : State) (q : Nat) : Bool := s.qfullAt s.cur.1 q

/-- The trap of a read of the head of queue q, if that is an uncorrectable word (R332, R333). -/
def State.queueTrap (s : State) (q : Nat) : Option Trap :=
  let k := s.me.core
  let i := (k.qcount q).2.1
  if k.badQ.contains (q, i) then some (eccIn s.cycle 4 (qAddr q i)) else none

/-- A release at tile scope waits until ca has performed the context's own reclaims (R159, R199, R273, R282, R284). -/
def State.afterCa (s : State) (body : State → State) : State := if s.ctx.posted = 0 then body s else s.stall

/-- The push itself: into an own queue, or into the bond toward the partner (R158). -/
def State.qpush (s : State) (q : Nat) (d : Fin 32) : State :=
  if q = 6 then
    let v := s.ctx.vreg d
    let s := s.modCore s.cur.1 fun k => { k with free := k.free - 1, pushes6 := k.pushes6 + 1 }
    s.modSite (partnerOf s.cur.1) fun x => { x with vland := x.vland ++ [v] }
  else
    let v := s.ctx.sreg d
    let i : Fin 4 := ⟨q % 4, by omega⟩
    s.modCore s.cur.1 fun k => { k with qs := k.qs.set i (k.qs[i].push v) }.wake

/-- The head of queue q into register d; a vector register under the mask of a prefix (R55). -/
def Core.qhead (k : Core) (q : Nat) (d : Fin 32) (c : Ctx) : Ctx :=
  let v := fun (f : Fifo 256) => c.setVm d (f.items.headD 0)
  let s := fun (f : Fifo 64) => c.setS d (f.items.headD 0)
  match q with
  | 0 => s k.qs[0]
  | 1 => s k.qs[1]
  | 2 => s k.qs[2]
  | 3 => s k.qs[3]
  | 4 => v k.q45[0]
  | 5 => v k.q45[1]
  | 6 => v k.q6
  | _ => s k.q7

/-- Removes the head; a pop of q6 returns a credit (R158). -/
def State.qdrop (s : State) (q : Nat) : State :=
  let t := s.cur.1
  match q with
  | 4 => s.modCore t fun k => { k with q45 := k.q45.set 0 k.q45[0].pop }
  | 5 => s.modCore t fun k => { k with q45 := k.q45.set 1 k.q45[1].pop }
  | 6 => (s.modCore t fun k => { k with q6 := k.q6.pop }).modSite (partnerOf t) fun x => { x with vcred := x.vcred + 1 }
  | 7 => s.modCore t fun k => { k with q7 := k.q7.pop }
  | _ =>
    let i : Fin 4 := ⟨q % 4, by omega⟩
    s.modCore t fun k => { k with qs := k.qs.set i k.qs[i].pop }

def isVecQ (q : Nat) : Bool := 4 ≤ q && q ≤ 6

/-- Issue of a pop: a vector queue is popped under its mask, a scalar one in full or not at all (R55). -/
def issuePop (i : Instr) (s : State) (q : Nat) (body : State → State) : Result :=
  if isVecQ q then issueLanes i s body else issue i s body

/-- QPUSH never waits (R21, R163). What its entry, or that of a QPUSHW, releases (R159, R273) is performed before it issues:
State.settleLate. -/
def execQpush (d p q : Fin 32) (s : State) : Result :=
  issue (.qpush d p q) s fun s =>
    if s.qfull q.val then s.done 4 (s.ctx.setP p 0)
    else
      let t := s.qpush q.val d
      t.done 4 (t.ctx.setP p 0xFFFFFFFF)

def execQpop (d p q : Fin 32) (s : State) : Result :=
  issuePop (.qpop d p q) s q.val fun s =>
    if (s.me.core.qcount q.val).1 = 0 then s.done 4 (s.ctx.setP p 0)
    else
      s.guard (s.queueTrap q.val) fun s =>
        let k := s.me.core
        let t := s.qdrop q.val
        t.done 4 ((k.qhead q.val d t.ctx).setP p 0xFFFFFFFF)

def execQpeek (d p q : Fin 32) (s : State) : Result :=
  issuePop (.qpeek d p q) s q.val fun s =>
    if (s.me.core.qcount q.val).1 = 0 then s.done 4 (s.ctx.setP p 0)
    else s.guard (s.queueTrap q.val) fun s => s.done 4 ((s.me.core.qhead q.val d s.ctx).setP p 0xFFFFFFFF)

def execQcnt (d q : Fin 32) (s : State) : Result :=
  issue (.qcnt d q) s fun s => s.done 4 (s.ctx.setS d (BitVec.ofNat 64 (s.me.core.qcount q.val).1))

/-- QPUSHW and QPOPW: PRIV outside maintenance; where the plain form would fail they wait (R164). -/
def execQpushw (d q : Fin 32) (s : State) : Result :=
  issuePriv (.qpushw d q) s (!s.me.krn.maint) 0x45 fun s =>
    if s.qfull q.val then s.stall
    else
      let t := s.qpush q.val d
      t.done 4 t.ctx

def execQpopw (d q : Fin 32) (s : State) : Result :=
  let body := fun (s : State) =>
    if (s.me.core.qcount q.val).1 = 0 then s.stall
    else
      s.guard (s.queueTrap q.val) fun s =>
        let k := s.me.core
        let t := s.qdrop q.val
        t.done 4 (k.qhead q.val d t.ctx)
  if isVecQ q.val && s.me.krn.maint then issueLanes (.qpopw d q) s body
  else issuePriv (.qpopw d q) s (!s.me.krn.maint) 0x46 body

/-- QWAIT_EXPIRY: a context that cannot complete its operation within 65,536 cycles of waiting traps with QWAIT (R164). Cycles in which
its tile is halted count (DESIGN CHOICE, log 78). -/
def execQwaitExpiry (t c : Nat) (s : State) : Result :=
  atCtx t c s fun c s =>
    let y := s.ctxAt t c
    let k := (s.site t).core
    let fire := fun (q head tail : Nat) =>
      match y.st, y.wait with
      | .stalled, .retry since =>
        if s.cycle - since < 65536 then s
        else s.trapAt t c { cause := cQWAIT, w4 := BitVec.ofNat 64 q,
                            w5 := BitVec.ofNat 64 (tail * 2 ^ 32 + head) }
      | _, _ => s
    let push := fun (q : Nat) (f : State) => if s.qfullAt t q then f else s
    let plain := fun (q : Nat) => fire q ((k.qcount q).2.1 % (2 * depth q)) ((k.qcount q).2.2 % (2 * depth q))
    match s.pending t c with
    | some (.qpopw _ q) => if (k.qcount q.val).1 = 0 then plain q.val else s
    | some (.qpushw _ q) =>
      push q.val (if q.val = 6 then fire 6 ((k.pushes6 + 16 - (8 - k.free)) % 16) (k.pushes6 % 16) else plain q.val)
    | _ => s

/-- VFIFO_LANDING: the oldest entry in flight lands in q6 (R158). One pushed after a gate's quiesce point, at which q6 freezes (R156),
waits until the tile is ON again (DESIGN CHOICE, log 71), and one that is pushed toward a tile without power until its resume (DESIGN
CHOICE, log 77). -/
def execVfifoLanding (t : Nat) (s : State) : Result :=
  atSite t s fun s =>
    match (s.site t).vland with
    | [] => s
    | v :: r =>
      if (s.site t).gate.st = .committing then s
      else (s.modSite t fun x => { x with vland := r }).modCore t fun k => { k with q6 := k.q6.push v }.wake

/-- VFIFO_CREDIT_RETURN: FREE rises by a returned credit; it does not move while FROZEN. -/
def execVfifoCreditReturn (t : Nat) (s : State) : Result :=
  atSite t s fun s =>
    let x := s.site t
    if x.vcred = 0 || x.frozen then s
    else (s.modSite t fun x => { x with vcred := x.vcred - 1 }).modCore t fun k => { k with free := min 8 (k.free + 1) }

/-! Requests to ca and to owners. -/

/-- From a commit's request to its commit cycle no new instruction of these kinds issues (R319). -/
def State.commitHolds (s : State) : Bool :=
  match s.me.ballast.st with
  | .requested _ => true
  | _ => false

/-- The context waits for response id. -/
def State.await (s : State) (dest : Dest) (size : Nat) (owner : Option Nat) : State :=
  s.modCtx fun c => { c with st := .stalled, wait := .resp c.reqid dest size owner, reqid := c.reqid + 1 }

/-- A local operation joins ca's queue (R41); the context waits for its result. -/
def State.toCa (s : State) (op : FarOp) (a : Word) (dest : Dest) (size : Nat) : State :=
  let r : FarReq := { op := op, addr := a.toNat, site := s.cur.1, ctx := s.cur.2.val, id := s.ctx.reqid }
  (s.modCore s.cur.1 fun k => { k with caq := k.caq ++ [r] }).await dest size none

def execRpush (d p b : Fin 32) (s : State) : Result :=
  issue (.rpush d p b) s fun s =>
    if s.commitHolds then s.stall else s.toCa (.rpush (s.ctx.sreg d)) (s.ctx.sreg b) (.ring 0 p false) 4

def execRpop (d p b : Fin 32) (s : State) : Result :=
  issue (.rpop d p b) s fun s =>
    if s.commitHolds then s.stall else s.toCa .rpop (s.ctx.sreg b) (.ring d p true) 4

/-! Channel control (R167). -/

/-- Writes bit n of an entry of site t; channels 30 and 31 are left as they are. MASK is cleared on a channel that the header does not
mark valid as well (R28, R30, R167) (DESIGN CHOICE, log 67). -/
def State.setEnt (s : State) (t ch n : Nat) (b : Bool) : State :=
  if 30 ≤ ch then s
  else s.modCore t fun k => { k with htab := k.htab.set (chanFin ch) (setEntBit k.htab[chanFin ch] n b) }

/-- CHBLK and CHUNB: at once on the own tile, else by a packet on VC0. -/
def blockChan (s : State) (m ch : Word) (b : Bool) : State :=
  match s.memberTile s.cur.1 m.toNat with
  | none => s.raise { cause := cACCESS, w4 := m, w5 := ch }
  | some u =>
    if 31 < ch.toNat then s.raise { cause := cACCESS, w4 := m, w5 := ch }
    else
      let t := if u = s.cur.1 then s.setEnt u ch.toNat 26 b else s.sendTo s.cur.1 u 0 0 (.chctl ch.toNat b)
      t.done 4 t.ctx

def execChblk (d a : Fin 32) (s : State) : Result :=
  issue (.chblk d a) s fun s => blockChan s (s.ctx.sreg d) (s.ctx.sreg a) true

def execChunb (d a : Fin 32) (s : State) : Result :=
  issue (.chunb d a) s fun s => blockChan s (s.ctx.sreg d) (s.ctx.sreg a) false

def execChmask (a k : Fin 32) (s : State) : Result :=
  issue (.chmask a k) s fun s =>
    let ch := s.ctx.sreg a
    if 31 < ch.toNat then s.raise { cause := cACCESS, w5 := ch }
    else
      let t := s.setEnt s.cur.1 ch.toNat 27 (k.val == 1)
      t.done 4 t.ctx

def execChannelControlArrival (t : Nat) (s : State) : Result :=
  atNi t s fun s =>
    match (s.site t).rxCtl with
    | [] => s
    | p :: r =>
      let s := s.modSite t fun x => { x with rxCtl := r }
      match p.load with
      | .chctl ch b => s.setEnt t ch 26 b
      | _ => s

/-- REMOTE_RECORD_ARRIVAL: into the lowest free slot of 4 to 15, or dropped and counted (R142, R228). -/
def execRemoteRecordArrival (t : Nat) (s : State) : Result :=
  atNi t s fun s =>
    match (s.site t).rxRec with
    | [] => s
    | (r, src) :: rest =>
      let s := s.modSite t fun x => { x with rxRec := rest }
      match ((List.range 12).map (· + 4)).find? fun i => !(s.site t).core.slots.contains i with
      | some i => s.queueRecord t i r (0, src)
      | none => s.modSite t fun x => { x with tdrop := min 255 (x.tdrop + 1) }

end Sys2Proof.Machine
end

