-- ==== Sys2Proof/Machine/Retire.lean ====
section
/-! DEFINITION. The kernel header (R168, R169), RETIRE (R180), RETIRE.S with the checks of R179 (R181), KARG (R182). -/

namespace Sys2Proof.Machine

/-! The header (R168). -/

/-- n bytes of a list from i, little-endian; bytes beyond its end read zero. -/
def field (bs : List Byte) (i n : Nat) : Nat := leVal ((bs.drop i).take n)

end Sys2Proof.Machine

namespace Sys2Proof

def KernelFile.f (k : KernelFile) (i n : Nat) : Nat := Machine.field k.header i n
def KernelFile.ver (k : KernelFile) : Nat := k.f 4 1
def KernelFile.fallback (k : KernelFile) : Bool := Machine.bit (k.f 5 1) 0
def KernelFile.maint (k : KernelFile) : Bool := Machine.bit (k.f 5 1) 1
def KernelFile.imgSize (k : KernelFile) : Nat := k.f 8 4
def KernelFile.chValid (k : KernelFile) (i : Nat) : Bool := Machine.bit (k.f 12 4) i
def KernelFile.chTab (k : KernelFile) : Nat := k.f 16 4
def KernelFile.widths (k : KernelFile) : List Nat := (List.range 6).map fun i => k.f (20 + i) 1
def KernelFile.wdog (k : KernelFile) : Nat := k.f 26 2
def KernelFile.rows (k : KernelFile) : Nat := k.f 28 2
def KernelFile.cols (k : KernelFile) : Nat := k.f 30 2
def KernelFile.memberCount (k : KernelFile) : Nat := k.f 32 2
def KernelFile.kind (k : KernelFile) : Nat := k.f 34 1
def KernelFile.stkBase (k : KernelFile) : Nat := k.f 36 4
def KernelFile.stkSize (k : KernelFile) : Nat := k.f 40 4
def KernelFile.argBase (k : KernelFile) : Nat := k.f 44 4
def KernelFile.argSize (k : KernelFile) : Nat := k.f 48 4
def KernelFile.dataBase (k : KernelFile) : Nat := k.f 52 4
def KernelFile.dataSize (k : KernelFile) : Nat := k.f 56 4
def KernelFile.accept (k : KernelFile) : Nat := k.f 60 4
def KernelFile.offer (k : KernelFile) : Nat := k.f 64 4
def KernelFile.regBase (k : KernelFile) (i : Nat) : Nat := k.f (72 + 8 * i) 4
def KernelFile.regSize (k : KernelFile) (i : Nat) : Nat := k.f (76 + 8 * i) 4

/-- Entry i of the handler table in the image. -/
def KernelFile.entry (k : KernelFile) (i : Nat) : Word := BitVec.ofNat 64 (Machine.field k.image (k.chTab + 8 * i) 8)

end Sys2Proof

namespace Sys2Proof.Machine

/-- A registered kernel. -/
def State.kernel (s : State) (h : BitVec 32) : Option Kernel := s.kernels.find? fun k => k.handle == h

/-- E (R177): a region bit counts only when the region is present in both headers (R169). -/
def inheritMask (pred succ : KernelFile) : Nat :=
  let e := Nat.land succ.accept pred.offer
  ((List.range 30).map fun i =>
    if bit e i && (i < 13 || 20 < i || (pred.regSize (i - 13) != 0 && succ.regSize (i - 13) != 0)) then 2 ^ i else 0).sum

/-- The successor's shape is specific and differs from the running group's (R179). -/
def otherShape (l : Launch) (k : KernelFile) : Bool :=
  (k.rows != 0 && k.rows != l.rows) || (k.cols != 0 && k.cols != l.cols) ||
    (k.memberCount != 0 && k.memberCount != l.members.length) || (k.kind != 0xFF && k.kind != l.kind)

/-- Some inherited region has moved or shrunk (R179). -/
def regionsClash (pred succ : KernelFile) : Bool :=
  (List.range 8).any fun i => bit (inheritMask pred succ) (13 + i) &&
    (succ.regBase i != pred.regBase i || decide (succ.regSize i < pred.regSize i))

/-- RETIRE.S is refused (R179), as it is on a site that belongs to no launch (DESIGN CHOICE, log 109). -/
def State.refuses (s : State) (h : BitVec 32) : Bool :=
  let x := s.me
  match s.kernel h, x.krn.launch.bind (mapGet? s.launches), s.kernel x.krn.handle with
  | some k, some l, some p =>
    k.gone || k.tenant != x.krn.tenant ||
      (if otherShape l k.file then !k.file.fallback else regionsClash p.file k.file)
  | _, _, _ => true

/-! RETIRE (R180). -/

/-- The sequence of the first commit whose commit cycle is not before now (R286, R319). -/
def Ballast.nextSeq (b : Ballast) : Nat :=
  match b.st with
  | .writing n _ _ _ => n + 1
  | _ => b.last + 1

/-- The message of context c is CONSUMED (R153). -/
def consume (c now : Nat) (q : List Desc) : List Desc := markHead now (q.filter fun d => d.runBy != some c)

/-- At the end of a channel-31 activation: its record slot is free, and the message held for the record is released, or
discarded for DROP (R142). -/
def Core.endRecord (k : Core) (y : Ctx) (by' now : Nat) : Core :=
  let w := ((y.record.getD []).headD 0).toNat
  let slot := match k.chq[31].find? fun d => d.runBy == some by' with
    | some d => (d.addr - Config.recordSlots) / 64
    | none => 16
  let k := { k with slots := k.slots.filter (· != slot) }
  if bit w 15 then k
  else
    let ch := bits w 16 5
    let c := bits w 8 3
    let q := k.chq[chanFin ch]
    let q := if y.drop then q.filter fun d => d.heldBy != some c
      else q.map fun d => if d.heldBy = some c then { d with held := false, heldBy := none } else d
    { k with chq := k.chq.set (chanFin ch) (markHead now q) }

/-- The effects of RETIRE but for the context's own end. A PERSIST channel's messages wait for the commit `gate`, and go with the
activation if it traps before (R20, R141). -/
def State.retireEffects (s : State) (gate : Option Nat) : State :=
  let t := s.cur.1
  let c := s.cur.2
  let y := s.ctx
  let e := s.me.entry y.chan
  let s := s.dropStreams t c
  let s := s.modCore t fun k =>
    let k := if y.inTrap then k.endRecord y c.val s.cycle else k
    let out := y.outbox.map fun m =>
      ({ msg := m, vc := entVc e, persist := gate.isSome, gate := gate, ctx := gate.map fun _ => c.val } : PendMsg)
    { k with pend := k.pend ++ out,
             chq := k.chq.set (chanFin y.chan) (consume c.val s.cycle k.chq[chanFin y.chan]) }
  s

/-- The context after its activation has ended. -/
def Ctx.ended (y : Ctx) : Ctx :=
  { y.freeLoops with st := .empty, wait := .none, pfx := none, outbox := [], heldOvf := 0, persisted := none, ending := none,
                     counted := 0 }

/-- n held overflow increments are counted in SY.MXOVF (R244). -/
def Core.addOvf (k : Core) (n : Nat) : Core := { k with mxovf := BitVec.ofNat 32 (min (2 ^ 32 - 1) (k.mxovf.toNat + n)) }

/-- The messages of context c's RETIRE are the tile's. -/
def Core.handOver (k : Core) (c : Nat) : Core := { k with pend := k.pend.map fun p => if p.ctx = some c then { p with ctx := none } else p }

/-- The activation of the running context ends: its held increments count, its messages are the tile's, and it is the last to have
retired (R177). A trap before discards them (R141). -/
def State.endCtx (s : State) : State :=
  let c := s.cur.2.val
  let n := s.ctx.heldOvf
  (s.modCtx Ctx.ended).modCore s.cur.1 fun k => { (k.addOvf n).handOver c with lastCtx := c }

/-- The pc and loops stay; the context waits for commit n. -/
def Ctx.awaitCommit (y : Ctx) (n now : Nat) : Ctx :=
  { y with persisted := some n, st := .stalled, wait := y.wait.again now, pfx := none }

/-- The message that the running context handles. -/
def State.ownMsg (s : State) : Option Desc := (s.me.core.chq[chanFin s.ctx.chan]).find? fun d => d.runBy == some s.cur.2.val

/-- RETIRE: on a PERSIST channel the context ends when the commit that captures the retirement is written (R180, R324). Its held overflow
increments are counted before that fence; a trap in the wait takes them back (DEDUCED, log 99). -/
def State.retire (s : State) : State :=
  let y := s.ctx
  match y.persisted with
  | some n => if n ≤ s.me.ballast.last then s.endCtx else s.stall
  | none =>
    if entPersist (s.me.entry y.chan) then
      let n := s.me.ballast.nextSeq
      let d := s.ownMsg
      let m := s.me.core.mxovf.toNat
      let s := ((s.retireEffects (some n)).askCommit s.cur.1).modCore s.cur.1 fun k => k.addOvf y.heldOvf
      s.modCtx fun y => { (y.awaitCommit n s.cycle) with outbox := [], ending := d, heldOvf := 0, counted := s.me.core.mxovf.toNat - m }
    else (s.retireEffects none).endCtx

def execRetire (s : State) : Result := issue .retire s State.retire

def execRetireWord (s : State) : Result := issue .retireWord s State.retire

/-- RETIRE.S: the nomination, or its withdrawal, then RETIRE (R176, R181). -/
def execRetireS (a : Fin 32) (s : State) : Result :=
  issue (.retireS a) s fun s =>
    let h : BitVec 32 := (s.ctx.sreg a).setWidth 32
    let nominate := fun (s : State) (x : Option (BitVec 32)) =>
      match s.me.krn.launch with
      | some l =>
        { s with launches := s.launches.map fun (e : Nat × Launch) =>
            if e.1 = l then (e.1, { e.2 with nominee := x }) else e }
      | none => s
    if s.ctx.persisted.isSome then s.retire
    else if h = 0 then (nominate s none).retire
    else if s.refuses h then s.raise { cause := cINHERIT, w4 := h.setWidth 64 }
    else (nominate s (some h)).retire

/-- KARG (R182). On a site that belongs to no launch it reads 0 (DESIGN CHOICE, log 109). -/
def State.karg (s : State) (n : Nat) : Word :=
  let k := s.me.krn
  match k.launch.bind (mapGet? s.launches) with
  | none => 0
  | some l =>
    match n with
    | 8 => BitVec.ofNat 64 l.members.length
    | 9 => BitVec.ofNat 64 (l.rows + l.cols * 2 ^ 16 + l.kind * 2 ^ 32)
    | 10 => l.desc.idbase
    | 11 => BitVec.ofNat 64 l.pos
    | 12 => BitVec.ofNat 64 (min 255 k.chain)
    | 13 => k.pred.setWidth 64
    | 14 => k.inherit.setWidth 64
    | 15 => if k.fresh then 1 else 0
    | _ => l.desc.largs.getD n 0

def execKarg (d n : Fin 32) (s : State) : Result := wrS (.karg d n) s d fun _ => s.karg n.val

end Sys2Proof.Machine
end

