-- ==== Sys2Proof/Machine/Page.lean ====
section
/-! DEFINITION. Global memory: owners (R254), tables (R255 to R257), stations (R258, R260, R371), sealing (R261), the halyard
extension (R263, R264), TLBI.H (R265), table writes by the helm (R259); and the arrival of a response at its context. -/

namespace Sys2Proof.Machine

/-! Responses. -/

/-- The destination of a response. -/
def Ctx.fill (y : Ctx) (dest : Dest) (r : Resp) : Ctx :=
  let x : Word := r.val.setWidth 64
  match dest with
  | .none => y
  | .s d => y.setS d x
  | .v d m => y.putV d (mergeBytes (m.getLsbD ·) (y.vreg d) r.val) (m.getLsbD ·)
  | .p d => y.setP d (if r.pred then 0xFFFFFFFF else 0)
  | .xrd d => (y.setS d x).orFlags r.flags
  | .ring d p pop =>
    let y := if pop && r.pred then y.setS d x else y
    y.setP p (if r.pred then 0xFFFFFFFF else 0)

/-- A response reaches its context: a trap at the instruction that waits, or its result (R138). For a HALTED context it waits at the NI
until the tile resumes; one that no context waits for is discarded, and its request is no longer outstanding (R43). A phaser release sets
the latches (R150). -/
def State.respond (s : State) (t : Nat) (c : Fin 4) (id : Nat) (r : Resp) : State :=
  let s := if r.release then s.modCore t Core.wake else s
  let y := s.ctxAt t c
  if y.lost.contains id then s.setCtxAt t c { y with lost := y.lost.filter (· != id) }
  else match y.st, y.wait with
  | .stalled, .resp i dest size _ =>
    if i ≠ id then s
    else if r.again then s.setCtxAt t c { y with wait := .retry s.cycle }
    else match r.trap with
      | some tr => (s.setCtxAt t c { y with wait := .none }).trapAt t c tr
      | none => s.setCtxAt t c ((y.fill dest r).advance size)
  | .halted, .resp i _ _ _ =>
    if i ≠ id then s
    else s.modSite t fun x => { x with rxResp := x.rxResp ++ [{ src := t, dst := t, vc := 1, body := 0, load := .resp c.val id r }] }
  | _, _ => s

/-- The context as it stood at posted request num: its pc and its flags (R140, R142). -/
def Ctx.backTo (y : Ctx) (num : Nat) : Ctx :=
  match y.posts.find? fun p => p.1 == num with
  | some (_, pc, f) => { y with pc := pc, flags := f }
  | none => y

/-- A posted request of the running context, numbered as its next one. -/
def Ctx.post (y : Ctx) : Ctx := { y with posts := y.posts ++ [(y.reqid, y.pc, y.flags)], reqid := y.reqid + 1 }

/-- A fault of posted request num is raised in the activation that issued it, unless that is over (DEDUCED, log 38). The record names the
request's own instruction, and of the later ones nothing stays but what takes place at issue (R40, R140). -/
def State.postTrap (s : State) (t : Nat) (c : Fin 4) (num : Nat) (tr : Trap) : State :=
  let y := s.ctxAt t c
  match y.st with
  | .running | .stalled | .dormant =>
    if decide (y.reqBase ≤ num) && !y.retired (s.site t).ballast then (s.setCtxAt t c (y.backTo num)).trapAt t c tr else s
  | _ => s

/-- Posted request num has been performed or refused. -/
def Ctx.settlePost (y : Ctx) (num : Nat) : Ctx := { y with posts := y.posts.filter fun p => p.1 != num }

/-- An owner has acknowledged a posted request, or refused it with a fault. -/
def State.acked (s : State) (t : Nat) (c : Fin 4) (owner num : Nat) (tr : Option Trap) : State :=
  let y := s.ctxAt t c
  if !y.unacked.contains (owner, num) then s
  else
    let rest := y.unacked.filter (· != (owner, num))
    match tr with
    | none => s.setCtxAt t c { y.settlePost num with unacked := rest }
    | some tr => ((s.setCtxAt t c { y with unacked := rest }).postTrap t c num tr).modCtxAt t c (·.settlePost num)

def fin4 (c : Nat) : Fin 4 := ⟨c % 4, by omega⟩

/-! Addresses (R254, R257). -/

def vaMast (va : Nat) : Nat := bits va 30 2
def vaCore (va : Nat) : Nat := 48 * vaMast va + bits va 11 19 % 48

/-- n bytes at va lie in one chunk. -/
def oneChunk (va n : Nat) : Bool := va % 2048 + n ≤ 2048

/-- The range lies in the HBM of the masts. -/
def isHbm (pa n : Nat) : Bool := pa + n ≤ 0xC000000000
def isTier2 (pa n : Nat) : Bool := 0x10000000000 ≤ pa && pa + n ≤ 0x90000000000

/-! Entries (R256). -/

def eValid (e : Nat) : Bool := bit e 0 && bits e 1 2 != 3 && bits e 52 12 == 0 && bits e 8 8 == 0
def eSize (e : Nat) : Nat := bits e 1 2
def eLeaf (e : Nat) : Bool := bit e 3
def eW (e : Nat) : Bool := bit e 4
def eCxl (e : Nat) : Bool := bit e 5
def eMig (e : Nat) : Bool := bit e 6
def eSeal (e : Nat) : Bool := bit e 7
def ePa (e : Nat) : Nat := bits e 16 36 * 65536

/-- A page: base address, log2 of its size, leaf, address of its first leaf entry and number of entries, and the address of the entry
that the walk has read. -/
structure Page where
  base : Nat
  bits : Nat
  leaf : Nat
  tbl  : Nat
  runs : Nat
  read : Nat
  deriving DecidableEq, Repr

/-- The leaf e of a page of 2^n bytes at base is well formed where LOC decides (R257). -/
def leafOk (e base n : Nat) : Bool :=
  ePa e % 2 ^ n == 0 &&
    (eCxl e || (ePa e / 0x3000000000 == vaMast base && ePa e / 65536 % 3 == bits base 16 14 % 3))

/-- The stack whose channels hold the 2 KiB chunk at pa: that of the core which owns it (R257, R305), 16 cores to a stack (R14). -/
def stackOfPa (pa : Nat) : Nat := 3 * (pa / 0x3000000000) + pa / 2048 % 48 / 16

/-- A stack or the second tier that boot left out is not there (R350): its addresses are never mapped. The second tier is absent when
both its ports are (DESIGN CHOICE, log 82). -/
def State.absentAt (s : State) (pa : Nat) : Bool :=
  (decide (pa < 0xC000000000) && s.boot.hbmOut.contains (stackOfPa pa)) ||
    (decide (0x10000000000 ≤ pa) && s.boot.portOut.contains 16 && s.boot.portOut.contains 17)

/-- A table entry; one in memory that is not there is not valid. -/
def State.entryAt (s : State) (a : Nat) : Nat := if s.absentAt a then 0 else memRead s.phys a 8

/-- The entry addresses that a walk from the root entry at r reads, in order. -/
def State.walkReads (s : State) (r va : Nat) : List Nat :=
  let e0 := s.entryAt r
  if !eValid e0 || eLeaf e0 then [r]
  else
    let a1 := ePa e0 + 8 * bits va 41 13
    let e1 := s.entryAt a1
    if !eValid e1 || eLeaf e1 then [r, a1]
    else
      let a2 := ePa e1 + 8 * bits va 28 13
      let e2 := s.entryAt a2
      if !eValid e2 || eLeaf e2 then [r, a1, a2] else [r, a1, a2, ePa e2 + 8 * bits va 16 12]

/-- A bad HBM word of 32 bytes that n bytes at pa touch (R332). -/
def State.badWord (s : State) (pa n : Nat) : Option Nat := s.badPhys.find? fun w => decide (w < pa + n) && decide (pa < w + 32)

/-- The first table word of the walk from r that is uncorrectable: the walk has no value (R333) (DEDUCED, log 83). -/
def State.walkBadFrom (s : State) (r va : Nat) : Option Nat :=
  (s.walkReads r va).findSome? fun a => (s.badWord a 8).map fun _ => a
def State.walkBad (s : State) (pid : BitVec 16) (va : Nat) : Option Nat := s.walkBadFrom (s.root + 8 * pid.toNat) va

/-- The walk of R255 from the root entry at r; none for UNMAPPED. -/
def State.walkFrom (s : State) (r va : Nat) : Option Page :=
  let e0 := s.entryAt r
  if !eValid e0 || eLeaf e0 then none
  else
    let e1 := s.entryAt (ePa e0 + 8 * bits va 41 13)
    if !eValid e1 || eLeaf e1 then none
    else
      let i2 := bits va 28 13
      let e2 := s.entryAt (ePa e1 + 8 * i2)
      if !eValid e2 then none
      else if eLeaf e2 then
        let base := va / 2 ^ 30 * 2 ^ 30
        if eSize e2 = 2 && leafOk e2 base 30 then
          some { base := base, bits := 30, leaf := e2, tbl := ePa e1 + 8 * (i2 / 4 * 4), runs := 4, read := ePa e1 + 8 * i2 }
        else none
      else
        let i3 := bits va 16 12
        let e3 := s.entryAt (ePa e2 + 8 * i3)
        if !eValid e3 || !eLeaf e3 then none
        else
          match eSize e3 with
          | 0 =>
            let base := va / 2 ^ 16 * 2 ^ 16
            if leafOk e3 base 16 then
              some { base := base, bits := 16, leaf := e3, tbl := ePa e2 + 8 * i3, runs := 1, read := ePa e2 + 8 * i3 }
            else none
          | 1 =>
            let base := va / 2 ^ 21 * 2 ^ 21
            if leafOk e3 base 21 then
              some { base := base, bits := 21, leaf := e3, tbl := ePa e2 + 8 * (i3 / 32 * 32), runs := 32, read := ePa e2 + 8 * i3 }
            else none
          | _ => none

/-- The walk of the stations, from ROOTBASE (R255). -/
def State.walk (s : State) (pid : BitVec 16) (va : Nat) : Option Page := s.walkFrom (s.root + 8 * pid.toNat) va

/-- The root entry for a request: a helm core's own MMU walks the same format from a root of its own, which tiles and halyard cores never
use (R355) (DEDUCED, log 90). -/
def State.rootOf (s : State) (r : GReq) : Nat :=
  if isHelm r.site then mapGetD s.helmRoots r.site 0 else s.root + 8 * r.pid.toNat

/-- The walk for a request. -/
def State.walkOf (s : State) (r : GReq) : Option Page := s.walkFrom (s.rootOf r) r.va.toNat

/-- Physical address of va in a page. -/
def physOf (leaf n va : Nat) : Nat := ePa leaf / 2 ^ n * 2 ^ n + va % 2 ^ n

/-! Stations. -/

def State.station (s : State) (k : Nat) : Station := mapGetD s.stations k {}
def State.setStation (s : State) (k : Nat) (x : Station) : State := { s with stations := mapPut s.stations k x }

def GOp.writes : GOp → Bool
  | .read _ => false
  | _ => true

def GOp.size : GOp → Nat
  | .read n => n
  | .write bs => bs.length
  | .atomic _ w _ _ => w / 8
  | .seal _ => 0

/-- The seal point of the chunk at va has passed at station k and has not been cleared again (R261). -/
def State.sealedAt (s : State) (k : Nat) (pid : BitVec 16) (va leaf : Nat) : Bool :=
  ((s.station k).seals.any fun r => r.1 == pid && decide (r.2.1 ≤ va) && decide (va < r.2.1 + r.2.2)) ||
    (eSeal leaf && !(s.seals.any fun o => o.lifts && o.pid == pid && !o.left.isEmpty && !o.left.contains k &&
      decide (o.base ≤ va) && decide (va < o.base + o.len)))

/-- The checks of R258 on a mapped page. -/
def State.gcheck (s : State) (k : Nat) (r : GReq) (leaf : Nat) : Option Trap :=
  if r.op.writes && !eW leaf then some { cause := cACCESS, w3 := r.va }
  else if r.op.writes && s.sealedAt k r.pid r.va.toNat leaf then
    some { cause := cSEALED, w3 := r.va, w4 := r.pid.setWidth 64 }
  else none

def pageTrap (va : Word) (pid : BitVec 16) : Trap := { cause := cPAGE, w3 := va, w4 := pid.setWidth 64 }

/-- The answer of halyard core k to a request: to a copy engine, to a PUSHT, an acknowledgement of a posted store, or a response. -/
def State.ganswer (s : State) (k : Nat) (r : GReq) (bytes : List Byte) (a : Resp) : State :=
  let src := Config.tiles + k
  let cause := (a.trap.map (·.cause)).getD 0
  match r.piece, r.beat with
  | some (cmd, piece), _ =>
    if r.op.writes then s.sendTo src r.site 1 0 (.cpAck cmd piece cause)
    else s.sendTo src r.site r.vc ((bytes.length + 31) / 32) (.cpReply cmd piece bytes cause)
  | none, some j => s.sendTo src r.site 1 0 (.beat r.ctx r.id j a)
  | none, none =>
    match r.op with
    | .write _ => s.sendTo src r.site 1 0 (.ack r.ctx src r.id a.trap)
    | _ => s.sendTo src r.site 1 0 (.resp r.ctx r.id a)

/-- A bad word that a write of n bytes covers only in part (R334). -/
def State.badWordPart (s : State) (pa n : Nat) : Option Nat :=
  s.badPhys.find? fun w => decide (w < pa + n) && decide (pa < w + 32) && !(decide (pa ≤ w) && decide (w + 32 ≤ pa + n))

/-- Bytes into physical memory; whole bad words are repaired. -/
def State.physWrite (s : State) (pa : Nat) (bs : List Byte) : State :=
  { s with phys := memPut s.phys pa bs, badPhys := s.badPhys.filter fun w => !(decide (pa ≤ w) && decide (w + 32 ≤ pa + bs.length)) }

/-- An ECC error of global memory: its trap, and the tenant's error record (R333, R354). -/
def gecc (now : Nat) (va : Word) (pa : Nat) : Trap := { cause := cECC, w3 := va, w4 := Config.syndrome now pa }

/-- A store of a halyard context, which is posted (R263). -/
def GReq.posted (r : GReq) : Bool :=
  match r.op, r.piece, r.beat with
  | .write _, none, none => true
  | _, _, _ => false

/-- A write into part of a bad HBM word has no effect but its fault (R334). -/
def State.partBad (s : State) (r : GReq) (pa : Nat) : Option Nat := if r.posted then s.badWordPart pa r.op.size else none

/-- The tenant's error record of an HBM error at pa (R354). Halyard and helm programs belong to no tenant (R356). -/
def State.hbmError (s : State) (site : Nat) (pid : BitVec 16) (pa : Nat) : State :=
  if isHalyard site || isHelm site then s else s.errRing (pid.toNat / 4096) cECC.toNat 1 0 pa

/-- A translated request is taken into service, where a fault keeps its place among the answers (R371). The context of a posted store
that passes its checks goes on: its faults are precise (R258) (DEDUCED, log 22). An address in memory that is not there is not mapped
(R350), and an HBM error makes its record (R354). -/
def State.gplace (s : State) (k : Nat) (r : GReq) (pg : Option (Nat × Nat)) : State :=
  let st := s.station k
  let serve := fun (v : Svc) => s.setStation k { st with svc := st.svc ++ [(r, v)] }
  let unmapped := match s.walkBadFrom (s.rootOf r) r.va.toNat with
    | some a => (serve (.fault (gecc s.cycle r.va a))).hbmError r.site r.pid a
    | none => serve (.fault (pageTrap r.va r.pid))
  match pg with
  | none => unmapped
  | some (leaf, n) =>
    let pa := physOf leaf n r.va.toNat
    if s.absentAt pa then serve (.fault (pageTrap r.va r.pid))
    else match s.gcheck k r leaf, s.partBad r pa with
      | some tr, _ => serve (.fault tr)
      | none, some _ => (serve (.fault (gecc s.cycle r.va pa))).hbmError r.site r.pid pa
      | none, none => if r.posted then (serve (.place pa n)).respond r.site (fin4 r.ctx) r.id {} else serve (.place pa n)

/-- Request h is for the page of 2^n bytes at va. -/
def GReq.inPage (h : GReq) (pid : BitVec 16) (va n : Nat) : Bool := h.pid == pid && h.va.toNat / 2 ^ n == va / 2 ^ n

/-- A request of station k is held: its page is MIGRATING, or an earlier one of its page is held (R259, R260, R371). -/
def Station.mustHold (st : Station) (r : GReq) (pg : Option (Nat × Nat)) : Bool :=
  match pg with
  | some (leaf, n) => eMig leaf || st.held.any fun h => h.inPage r.pid r.va.toNat n
  | none => false

/-- A station holds up to 64 requests (R260). -/
def Station.full (st : Station) : Bool := decide (64 ≤ st.held.length)

/-- A newly translated request: held, or taken into service. -/
def State.gplaceNew (s : State) (k : Nat) (r : GReq) (pg : Option (Nat × Nat)) : State :=
  let st := s.station k
  if st.mustHold r pg then s.setStation k { st with held := st.held ++ [r] } else s.gplace k r pg

/-- A leaf entry that is MIGRATING: it says so, or it has been rewritten and no TLBI.H has ended the move yet (R259). -/
def State.entryMoves (s : State) (a : Nat) : Bool := eMig (s.entryAt a) || s.settling.contains a

/-- The walk has found a MIGRATING page: the walker uses the one entry that it reads (R257). The MMU of a helm core caches nothing, so the
entry alone tells (R355) (DEDUCED, log 90). -/
def State.pageMoves (s : State) (p : Page) : Bool := s.entryMoves p.read

/-- The leaf that a walk finds for a request, with MIG = 1 while its page is MIGRATING; none for UNMAPPED, and where a table word has no
value. -/
def State.leafFor (s : State) (r : GReq) : Option (Nat × Nat) :=
  if (s.walkBadFrom (s.rootOf r) r.va.toNat).isSome then none
  else (s.walkOf r).map fun p => (if !isHelm r.site && s.pageMoves p then Nat.lor p.leaf 0x40 else p.leaf, p.bits)

/-- A cached translation that covers va. -/
def Tlb.covers (e : Tlb) (pid : BitVec 16) (va : Nat) : Bool := e.pid == pid && e.base / 2 ^ e.bits == va / 2 ^ e.bits

/-- A cached translation serves a request of its process; a helm core's have its own MMU (R355). -/
def Tlb.serves (e : Tlb) (r : GReq) : Bool := !isHelm r.site && e.covers r.pid r.va.toNat

/-- The translation comes to the front; the least recently used leaves (R258). -/
def cacheAdd (e : Tlb) (c : List Tlb) : List Tlb := (e :: c.filter (· != e)).take 4096

def isSealOp : GOp → Bool
  | .seal _ => true
  | _ => false

/-- The first held request whose page has come to rest, its move ended by TLBI.H, and that no earlier one of its source or of its page
precedes (R259, R260). -/
def State.heldReady (s : State) (st : Station) : Option (Nat × GReq) :=
  (List.range st.held.length).findSome? fun i =>
    (st.held[i]?).bind fun r =>
      let p := s.leafFor r
      let n := (p.map (·.2)).getD 16
      if (st.held.take i).any fun h => h.site == r.site || h.inPage r.pid r.va.toNat n then none
      else if p.any fun e => eMig e.1 then none
      else some (i, r)

/-- The request that the station takes next: the first one, or, while 64 are held, the first that did not come on VC0 and that no
earlier one of its source precedes, held ones too (R260) (DESIGN CHOICE, log 65). A SEAL keeps its place before what came later. -/
def Station.next (st : Station) : Option (Nat × GReq) :=
  (List.range st.rxq.length).findSome? fun i =>
    (st.rxq[i]?).bind fun r =>
      let open' := !st.full
      if (st.rxq.take i).any fun h => open' || isSealOp h.op || h.site == r.site then none
      else if isSealOp r.op || !open' && (r.inVc == 0 || st.held.any fun h => h.site == r.site) then none else some (i, r)

/-- STATION_REQUEST (R371): a held request whose page has come to rest, else the next request in arrival order; none while 64 requests
are in service. One that must be held while 64 are waits where it is (R260). -/
def execStationRequest (k : Nat) (s : State) : Result :=
  atSite (Config.tiles + k) s fun s =>
    let st := s.station k
    if 64 ≤ st.svc.length then s
    else match s.heldReady st with
      | some (i, r) => (s.setStation k { st with held := st.held.eraseIdx i }).gplace k r (s.leafFor r)
      | none => takeNext s st
where
  takeNext (s : State) (st : Station) : State :=
    match st.walk, st.next with
    | none, some (i, r) =>
      let rest := st.rxq.eraseIdx i
      if st.held.any fun h => h.site == r.site then
        s.setStation k { st with rxq := rest, held := st.held ++ [r] }
      else
        match st.cache.find? fun e => e.serves r with
        | some e =>
          if st.full && st.mustHold r (some (e.leaf.toNat, e.bits)) then s
          else (s.setStation k { st with rxq := rest, cache := cacheAdd e st.cache }).gplaceNew k r (some (e.leaf.toNat, e.bits))
        | none => s.setStation k { st with rxq := rest, walk := some r }
    | _, _ => s

/-- TABLE_WALK_COMPLETE: the walk ends; a mapped page is cached. It waits while 64 requests are in service (R371), and one that must be
held while 64 are held (R260). -/
def execTableWalkComplete (k : Nat) (s : State) : Result :=
  atSite (Config.tiles + k) s fun s =>
    let st := s.station k
    match st.walk with
    | none => s
    | some r =>
      if 64 ≤ st.svc.length || (st.full && st.mustHold r (s.leafFor r)) then s
      else match s.leafFor r with
      | none => (s.setStation k { st with walk := none }).gplaceNew k r none
      | some (leaf, n) =>
        let e : Tlb := { pid := r.pid, base := r.va.toNat / 2 ^ n * 2 ^ n, bits := n, leaf := BitVec.ofNat 64 leaf }
        let cache := if isHelm r.site then st.cache else cacheAdd e st.cache
        (s.setStation k { st with walk := none, cache := cache }).gplaceNew k r (some (leaf, n))

/-- new of R188. Operations as R66 numbers them. -/
def atomicNew (op w : Nat) (old x cmp : Nat) : Nat :=
  let lt := decide (sext old w ≤ sext x w)
  match op with
  | 0 => (old + x) % 2 ^ w
  | 1 => Nat.land old x
  | 2 => Nat.lor old x
  | 3 => Nat.xor old x
  | 4 => if lt then old else x
  | 5 => if lt then x else old
  | 6 => min old x
  | 7 => max old x
  | 8 => x
  | _ => if old = cmp then x else old

/-- Performs a request at its physical address. -/
def State.gperform (s : State) (k : Nat) (r : GReq) (pa : Nat) : State :=
  let bad := match r.op with
    | .write bs => s.badWordPart pa bs.length
    | op => s.badWord pa op.size
  match bad with
  | some _ => (s.hbmError r.site r.pid pa).ganswer k r [] { trap := some (gecc s.cycle r.va pa) }
  | none =>
    match r.op with
    | .read n =>
      let bs := memBytes s.phys pa n
      s.ganswer k r bs { val := BitVec.ofNat 256 (leVal bs) }
    | .write bs => (s.physWrite pa bs).ganswer k r [] {}
    | .atomic op w x cmp =>
      let old := memRead s.phys pa (w / 8)
      let new := atomicNew op w old (x.toNat % 2 ^ w) (cmp.toNat % 2 ^ w)
      (s.physWrite pa (leBytes (w / 8) new)).ganswer k r [] { val := BitVec.ofNat 256 old }
    | .seal _ => s

/-- The oldest request in service is answered with its fault, or performed if its address lies where f says; one that no memory answers
stops the machine (DESIGN CHOICE, log 11). -/
def gcomplete (k : Nat) (s : State) (f : Nat → Nat → Bool) : Result :=
  if !isHalyard (Config.tiles + k) then .next s
  else
    let st := s.station k
    match st.svc with
    | [] => .next s
    | (r, .fault tr) :: rest => .next ((s.setStation k { st with svc := rest }).ganswer k r [] { trap := some tr })
    | (r, .place pa _) :: rest =>
      if !isHbm pa r.op.size && !isTier2 pa r.op.size then .fault .physHole
      else if f pa r.op.size then .next ((s.setStation k { st with svc := rest }).gperform k r pa)
      else .next s

/-- HBM_ACCESS_COMPLETE and SECOND_TIER_ACCESS_COMPLETE (R371, R260). -/
def execHbmAccessComplete (k : Nat) (s : State) : Result := gcomplete k s isHbm
def execSecondTierAccessComplete (k : Nat) (s : State) : Result := gcomplete k s isTier2

/-- A write of entry e at a: the rewritten leaf of a MIGRATING page is settling until TLBI.H (R259). -/
def State.noteMove (s : State) (a e : Nat) : State :=
  let old := s.entryAt a
  if eMig e then { s with settling := s.settling.filter (· != a) }
  else if eValid old && eLeaf old && eMig old then { s with settling := setAdd s.settling a }
  else s

/-- PAGE_TABLE_WRITE: the helm writes one table entry (R255, R259); one into a bad word writes nothing, and the helm, its writer, is told
(R334) by an error record of structure 7 (DESIGN CHOICE, log 100). -/
def execPageTableWrite (pa : Nat) (val : Word) (s : State) : Result :=
  if isHbm pa 8 || isTier2 pa 8 then
    .next (
      if s.absentAt pa then s
      else if (s.badWordPart pa 8).isSome then s.helmError 7 pa
      else (s.noteMove pa val.toNat).physWrite pa (leBytes 8 val.toNat))
  else .fault .physHole

/-! Requests of a context. -/

/-- Sends a global request of the running context, which waits for its answer. -/
def State.gsend (s : State) (op : GOp) (va : Word) (dest : Dest) (size : Nat) : State :=
  let k := vaCore va.toNat
  let body := match op with
    | .write bs => if bs.length = 32 then 1 else 0
    | _ => 0
  let r : GReq := { op := op, va := va, pid := s.me.krn.pid, site := s.cur.1, ctx := s.cur.2.val, id := s.ctx.reqid }
  (s.sendTo s.cur.1 (Config.tiles + k) 0 body (.global r)).await dest size (some (Config.tiles + k))

/-- The checks at the requester of R263. -/
def State.gaddr (s : State) (a : Word) (n : Nat) : Option Trap :=
  if 2 ^ 54 ≤ a.toNat then some (pageTrap a s.me.krn.pid)
  else if !oneChunk a.toNat n then some { cause := cSTRADDLE, w3 := a }
  else none

def execLgd (d a : Fin 32) (s : State) : Result :=
  issue (.lgd d a) s fun s =>
    let x := s.ctx.sreg a
    s.guard (s.gaddr x 8) fun s => s.gsend (.read 8) x (.s d) 4

/-- LGV: under a prefix it writes the enabled byte lanes (R55) (DEDUCED, log 17). -/
def execLgv (d a : Fin 32) (s : State) : Result :=
  issueLanes (.lgv d a) s fun s =>
    let x := s.ctx.sreg a
    let m := s.ctx.laneMask32
    s.guard (s.gaddr x 32) fun s => s.gsend (.read 32) x (.v d m) 4

/-- A posted global store, counted until acknowledged (R214, R263). Its faults are precise (R258), so its context goes on when its
station has checked it, in arrival order; the store is performed later (DEDUCED, log 22). -/
def gstore (s : State) (x : Word) (bs : List Byte) : State :=
  s.guard (s.gaddr x bs.length) fun s =>
    let k := vaCore x.toNat
    let n := s.ctx.reqid
    (s.gsend (.write bs) x .none 4).modCtx fun c =>
      { c with unacked := c.unacked ++ [(Config.tiles + k, n)], slices := c.slices ||| BitVec.ofNat 64 (2 ^ (k % 64)) }

def execSgd (a b : Fin 32) (s : State) : Result :=
  issue (.sgd a b) s fun s => gstore s (s.ctx.sreg a) (leBytes 8 (s.ctx.sreg b).toNat)

def execSgv (d a : Fin 32) (s : State) : Result :=
  issue (.sgv d a) s fun s => gstore s (s.ctx.sreg a) (leBytes 32 (s.ctx.vreg d).toNat)

/-! PUSHT (R264). -/

/-- The read of beat j at its owner; an address beyond the space has its answer at once. -/
def State.readBeat (s : State) (a : Word) (j : Nat) : State × Option Resp :=
  let x := a + BitVec.ofNat 64 (32 * j)
  let pid := s.me.krn.pid
  if 2 ^ 54 ≤ x.toNat then (s, some { trap := some (pageTrap x pid) })
  else
    let r : GReq := { op := .read 32, va := x, pid := pid, site := s.cur.1, ctx := s.cur.2.val, id := s.ctx.reqid, beat := some j }
    (s.sendTo s.cur.1 (Config.tiles + vaCore x.toNat) 0 0 (.global r), none)

/-- All reads of a PUSHT come first (R264); the context waits for them. Where no beat lies in the space, its fault comes at once. -/
def State.beginPush (s : State) (a : Word) (n : Nat) : State :=
  let f := fun (acc : State × List (Option Resp)) (j : Nat) => ((acc.1.readBeat a j).1, acc.2 ++ [(acc.1.readBeat a j).2])
  let (s', l) := (List.range n).foldl f (s, [])
  let e : Push := { site := s.cur.1, ctx := s.cur.2.val, id := s.ctx.reqid, beats := l }
  match (if l.all (·.isSome) then l.findSome? fun b => b.bind (·.trap) else none) with
  | some tr => s'.raise tr
  | none => ({ s' with pushes := s'.pushes ++ [e] }).await .none 4 none

/-- Beats of a queue that its target has room for, those on their way counted (R155). -/
def Site.pushRoom (x : Site) (sel : Nat) : Nat := 16 - ((x.core.qcount (4 + sel)).1 + x.owed45[sel % 2]'(by omega))

/-- The beats that have been read leave for the target, as many as its queue takes (R155); the context waits until the target has
accepted the last one. -/
def State.sendBeats (s : State) (e : Push) (tile vc : Nat) (queue : Bool) (sel addr : Nat) : State :=
  let vals := e.beats.map fun r => (r.map (·.val)).getD 0
  let n := if queue then min ((s.site tile).pushRoom sel) vals.length else vals.length
  let keep := s.pushes.filter fun p => p != e
  if n = 0 then s.stall
  else
    let i : Fin 2 := ⟨sel % 2, by omega⟩
    let s := if queue then s.modSite tile fun x => { x with owed45 := x.owed45.set i (x.owed45[i] + n) } else s
    let s := s.sendTo s.cur.1 tile vc n (.push queue sel addr (vals.take n) s.cur.1 s.cur.2.val s.ctx.reqid)
    if n = vals.length then ({ s with pushes := keep }).await .none 4 none
    else
      let e' := { e with beats := e.beats.drop n }
      ({ s with pushes := keep ++ [e'] } : State).modCtx (fun c => { c with reqid := c.reqid + 1 }) |>.stall

/-- The answer to the read of beat j: after the last one the PUSHT goes on, or takes the first trap among them. -/
def State.beatRead (s : State) (t : Nat) (c : Fin 4) (id j : Nat) (r : Resp) : State :=
  let mine := fun (p : Push) => p.site == t && p.ctx == c.val && p.id == id
  let s := { s with pushes := s.pushes.map fun p => if mine p then { p with beats := p.beats.set j (some r) } else p }
  match s.pushes.find? mine with
  | none => s
  | some e =>
    if e.beats.any (·.isNone) then s
    else match e.beats.findSome? fun b => b.bind (·.trap) with
      | some tr => s.trapAt t c tr
      | none => s.modCtxAt t c fun y => { y with wait := .retry s.cycle }

/-- A member of an ACTIVE group of a tenant. -/
def State.activeOf (s : State) (t tenant : Nat) : Bool :=
  match s.launchOf t with
  | some l => l.st == .running && l.tenant == tenant && isTile t
  | none => false

def execPusht (d a n : Fin 32) (s : State) : Result :=
  issue (.pusht d a n) s fun s =>
    let x := (s.ctx.sreg d).toNat
    let src := s.ctx.sreg a
    let k := n.val + 1
    let tile := bits x 0 13
    let addr := bits x 32 19
    let scratch := bit x 16
    let tw : Word := BitVec.ofNat 64 tile
    if src.toNat % 32 ≠ 0 then s.raise { cause := cALIGN, w3 := src }
    else if bits x 56 8 != 0 || bits x 51 3 != 0 || bits x 18 14 != 0 || bits x 13 3 != 0 ||
        !s.activeOf tile (s.me.krn.pid.toNat / 4096) then s.raise { cause := cACCESS, w4 := tw }
    else if scratch && (addr % 32 != 0 || decide (0x5C000 ≤ addr)) then
      s.raise { cause := cRANGE, w3 := BitVec.ofNat 64 addr }
    else if scratch && decide (0x5C000 < addr + 32 * k) then s.raise { cause := cSTRADDLE, w3 := BitVec.ofNat 64 addr }
    else if s.isOff tile then s.raise { cause := cGATED, w4 := tw }
    else match s.pushes.find? fun p => p.site == s.cur.1 && p.ctx == s.cur.2.val with
      | some e => s.sendBeats e tile (bits x 54 2) (!scratch) (bits x 17 1) addr
      | none => s.beginPush src k

/-- The first packet at the NI whose next beat has room, none of its source standing before it (R155, R264). -/
def Site.pushReady (x : Site) : Option (Nat × Pkt) :=
  (List.range x.rxPush.length).findSome? fun i =>
    (x.rxPush[i]?).bind fun p =>
      let full := match p.load with
        | .push queue sel _ _ _ _ _ => queue && decide (16 ≤ (x.core.qcount (4 + sel)).1)
        | _ => false
      if full || (x.rxPush.take i).any fun q => q.src == p.src then none else some (i, p)

/-- PUSH_BEAT_ARRIVAL: the next beat enters its queue or the scratchpad (R155, R264). -/
def execPushBeatArrival (t : Nat) (s : State) : Result :=
  atNi t s fun s =>
    match (s.site t).pushReady with
    | none => s
    | some (n, p) =>
      let rest := (s.site t).rxPush.eraseIdx n
      match p.load with
      | .push queue sel addr (b :: bs) site ctx id =>
        let i : Fin 2 := ⟨sel % 2, by omega⟩
        let s := if queue then
            (s.modSite t fun x => { x with owed45 := x.owed45.set i (x.owed45[i] - 1) }).modCore t fun k =>
              { k with q45 := k.q45.set i (k.q45[i].push b) }.wake
          else s.modSite t fun x => x.store addr (ofBeats [b])
        if bs.isEmpty then (s.modSite t fun x => { x with rxPush := rest }).sendTo t site 1 0 (.resp ctx id {})
        else
          let p' := { p with load := .push queue sel (addr + 32) bs site ctx id }
          s.modSite t fun x => { x with rxPush := x.rxPush.set n p' }
      | _ => s.modSite t fun x => { x with rxPush := rest }

/-! Sealing (R261). -/

/-- The first chunk of a page that lies in memory that is not there (R350): 48 neighbouring chunks have every stack. -/
def State.absentIn (s : State) (p : Page) : Option Nat :=
  (List.range (min 48 (2 ^ p.bits / 2048))).findSome? fun i =>
    let va := p.base + 2048 * i
    if s.absentAt (physOf p.leaf p.bits va) then some va else none

/-- The pages from va to stop, with the first unmapped address or page that leaves the range. -/
def State.pagesOf (s : State) (pid : BitVec 16) (lo stop : Nat) : Nat → Nat → List Page → Sum Trap (List Page)
  | 0, _, l => .inr l.reverse
  | n + 1, va, l =>
    if stop ≤ va then .inr l.reverse
    else if (s.walkBad pid va).isSome then .inl (gecc s.cycle (BitVec.ofNat 64 va) ((s.walkBad pid va).getD 0))
    else
      match s.walk pid va with
      | none => .inl (pageTrap (BitVec.ofNat 64 va) pid)
      | some p =>
        match s.absentIn p with
        | some x => .inl (pageTrap (BitVec.ofNat 64 x) pid)
        | none =>
          if p.base < lo || stop < p.base + 2 ^ p.bits then
            .inl { cause := cALIGN, w3 := BitVec.ofNat 64 p.base, w4 := pid.setWidth 64 }
          else s.pagesOf pid lo stop n (p.base + 2 ^ p.bits) (p :: l)

/-- An uncorrectable table word that the check of a range meets. -/
def State.rangeBad (s : State) (pid : BitVec 16) (base len : Nat) : Option Nat :=
  (List.range (len / 65536)).findSome? fun i => s.walkBad pid (base + 65536 * i)

/-- The cores that own a chunk of the range (R254): 48 neighbouring chunks of a region have all its cores. -/
def ownersOf (base len : Nat) : List Nat :=
  ((List.range ((base + len - 1) / 2 ^ 30 - base / 2 ^ 30 + 1)).flatMap fun j =>
    let g := base / 2 ^ 30 + j
    let lo := max base (g * 2 ^ 30) / 2048
    let hi := (min (base + len) ((g + 1) * 2 ^ 30) - 1) / 2048
    (List.range (min 48 (hi - lo + 1))).map fun i => vaCore ((lo + i) * 2048)).foldl setAdd []

/-- SEAL and UNSEAL: every check before any change; then requests to the owning stations. -/
def sealBody (s : State) (b l : Word) (lifts : Bool) : State :=
  let pid := s.me.krn.pid
  let tr := fun c => s.raise { cause := c, w3 := b, w4 := pid.setWidth 64 }
  if b.toNat % 65536 ≠ 0 || l.toNat % 65536 ≠ 0 then tr cALIGN
  else if l = 0 || 2 ^ 36 < l.toNat || 2 ^ 54 < b.toNat + l.toNat then tr cRANGE
  else
    match s.pagesOf pid b.toNat (b.toNat + l.toNat) (l.toNat / 65536) b.toNat [] with
    | .inl t => if t.cause = cECC then (s.hbmError s.cur.1 pid ((s.rangeBad pid b.toNat l.toNat).getD 0)).raise t else s.raise t
    | .inr ps =>
      let owners := ownersOf b.toNat l.toNat
      let op : SealOp := { num := s.fresh, lifts := lifts, pid := pid, base := b.toNat, len := l.toNat, site := s.cur.1,
                           ctx := s.cur.2.val, id := s.ctx.reqid, pages := ps.map fun p => (p.base, p.bits), left := owners,
                           acks := owners.length }
      let s := { s with seals := s.seals ++ [op], fresh := s.fresh + 1 }
      let r : GReq := { op := .seal op.num, va := b, pid := pid, site := s.cur.1, ctx := s.cur.2.val, id := 0 }
      (owners.foldl (fun s k => s.sendTo s.cur.1 (Config.tiles + k) 0 0 (.global r)) s).await .none 4 none

def execSeal (a b : Fin 32) (s : State) : Result :=
  issue (.seal a b) s fun s => sealBody s (s.ctx.sreg a) (s.ctx.sreg b) false

def execUnseal (a b : Fin 32) (s : State) : Result :=
  issue (.unseal a b) s fun s => sealBody s (s.ctx.sreg a) (s.ctx.sreg b) true

/-- The parts of a range outside another range. -/
def cutRange (r : BitVec 16 × Nat × Nat) (pid : BitVec 16) (base len : Nat) : List (BitVec 16 × Nat × Nat) :=
  let e := r.2.1 + r.2.2
  if r.1 ≠ pid || e ≤ base || base + len ≤ r.2.1 then [r]
  else (if r.2.1 < base then [(r.1, r.2.1, base - r.2.1)] else []) ++
    (if base + len < e then [(r.1, base + len, e - (base + len))] else [])

/-- The first leaf entry of a page that lies in a bad word. -/
def State.badLeaf (s : State) (p : Page) : Option Nat :=
  (List.range p.runs).findSome? fun i => (s.badWordPart (p.tbl + 8 * i) 8).map fun _ => p.tbl + 8 * i

/-- Writes the SEAL bit of every leaf entry of a page; an entry in a bad word stays as it is (R334). -/
def State.markLeaf (s : State) (b : Bool) (p : Page) : State :=
  (List.range p.runs).foldl (fun s i =>
    let a := p.tbl + 8 * i
    let e := setEntBit (BitVec.ofNat 64 (s.entryAt a)) 7 b
    if (s.badWordPart a 8).isSome then s else s.physWrite a (leBytes 8 e.toNat)) s

/-- Cached translations of the range carry the new leaf from now on. -/
def State.flushRange (s : State) (pid : BitVec 16) (base len : Nat) : State :=
  { s with stations := s.stations.map fun e =>
      (e.1, { e.2 with cache := e.2.cache.filter fun t =>
        t.pid != pid || decide (t.base + 2 ^ t.bits ≤ base) || decide (base + len ≤ t.base) }) }

/-- The pages of an operation that station k is the last of their owners to pass, with the walk of each as it stands (R261). -/
def SealOp.doneAt (o : SealOp) (k : Nat) : List (Nat × Nat) :=
  o.pages.filter fun p =>
    let ks := ownersOf p.1 (2 ^ p.2)
    ks.contains k && ks.all fun j => !o.left.contains j

/-- The page at base changes state, unless it is in the target state; one that is no longer mapped is left as it is (DEDUCED, log 112). A
word that cannot be read, or that keeps a leaf from being written, is noted for the requester (R333, R334). -/
def State.sealPage (o : SealOp) (a : State × SealOp) (base : Nat) : State × SealOp :=
  let note := fun (w : Option Nat) => { a.2 with bad := a.2.bad.orElse fun _ => w }
  match a.1.walkBad o.pid base, a.1.walk o.pid base with
  | some w, _ => (a.1, note (some w))
  | none, some p =>
    if eSeal p.leaf == o.lifts then
      ((a.1.markLeaf (!o.lifts) p).flushRange o.pid p.base (2 ^ p.bits), note (a.1.badLeaf p))
    else a
  | none, none => a

/-- The pages that change state with the seal point of station k (R261). -/
def State.sealPages (s : State) (o : SealOp) (k : Nat) : State × SealOp :=
  (o.doneAt k).foldl (fun a p => State.sealPage o a p.1) (s, o)

/-- A page of the operation is MIGRATING: the SEAL or UNSEAL waits for the end of the move (R259). -/
def State.sealMoves (s : State) (o : SealOp) : Bool := o.pages.any fun p => ((s.walk o.pid p.1).map s.pageMoves).getD false

/-- A station has acknowledged (R292); after the last one the context goes on, or takes the ECC trap of a leaf that could not be written
(R334). -/
def State.sealAcked (s : State) (num : Nat) : State :=
  match s.seals.find? fun o => o.num == num with
  | none => s
  | some o =>
    if 1 < o.acks then { s with seals := s.seals.map fun x => if x.num = num then { x with acks := x.acks - 1 } else x }
    else
      let s : State := { s with seals := s.seals.filter fun x => x.num != num }
      match o.bad with
      | some a => (s.hbmError o.site o.pid a).respond o.site (fin4 o.ctx) o.id { trap := some (gecc s.cycle (BitVec.ofNat 64 o.base) a) }
      | none => s.respond o.site (fin4 o.ctx) o.id {}

/-- SEAL_REQUEST_ARRIVAL: station k passes the seal point of the chunks that it owns, in its arrival order, once its earlier
writes are performed, the held ones too, and no page of the range is MIGRATING (DEDUCED, log 34), and acknowledges it. -/
def execSealRequestArrival (k : Nat) (s : State) : Result :=
  atSite (Config.tiles + k) s fun s =>
    let st := s.station k
    match st.rxq, st.walk, st.svc with
    | r :: rest, none, [] =>
      match r.op with
      | .seal num =>
        match s.seals.find? fun o => o.num == num with
        | none => s.setStation k { st with rxq := rest }
        | some o =>
          let earlier := st.held.any fun h => h.site == r.site ||
            (h.pid == o.pid && decide (o.base ≤ h.va.toNat) && decide (h.va.toNat < o.base + o.len))
          if s.sealMoves o || earlier then s
          else
            let cut := st.seals.flatMap fun x => cutRange x o.pid o.base o.len
            let seals := if o.lifts then cut else cut ++ [(o.pid, o.base, o.len)]
            let o' := { o with left := o.left.filter (· != k) }
            let s := s.setStation k { st with rxq := rest, seals := seals }
            let (s, o') := s.sealPages o' k
            ({ s with seals := s.seals.map fun x => if x.num = num then o' else x } : State).sendTo (Config.tiles + k) o.site 1 0 (.sealAck num)
      | _ => s
    | _, _, _ => s

/-! TLBI.H (R265). -/

/-- A request in service was translated with a translation that TLBI.H removes. -/
def Svc.under (v : Svc) (all : Bool) (va : Nat) (q : Word) : Bool :=
  match v with
  | .place _ n => all || va / 2 ^ n == q.toNat / 2 ^ n
  | .fault _ => false

/-- The table whose entries stand from a on holds entry e at its own level. -/
def inTable (a e : Nat) : Bool := decide (a ≤ e) && decide (e < a + 65536)

/-- The tables that the valid entries of the table at a point to. -/
def State.tablesAt (s : State) (a : Nat) : List Nat :=
  (List.range 8192).filterMap fun i =>
    let e := s.entryAt (a + 8 * i)
    if eValid e && !eLeaf e then some (ePa e) else none

/-- Leaf entry a belongs to the tables of process pid (R255). -/
def State.inTables (s : State) (pid : BitVec 16) (a : Nat) : Bool :=
  let e0 := s.entryAt (s.root + 8 * pid.toNat)
  eValid e0 && !eLeaf e0 && (s.tablesAt (ePa e0)).any fun t => inTable t a || (s.tablesAt t).any fun u => inTable u a

/-- The entries of the run to which leaf entry a belongs (R257). -/
def State.runOf (s : State) (a : Nat) : List Nat :=
  match eSize (s.entryAt a) with
  | 0 => [a]
  | 1 => (List.range 32).map fun i => a / 256 * 256 + 8 * i
  | _ => (List.range 4).map fun i => a / 32 * 32 + 8 * i

/-- TLBI.H for process pid, at the page of va or for all, covers leaf entry a. -/
def State.tlbiCovers (s : State) (pid : BitVec 16) (all : Bool) (va a : Nat) : Bool :=
  if all then s.inTables pid a
  else match s.walk pid va with
    | some p => decide (p.tbl ≤ a) && decide (a < p.tbl + 8 * p.runs)
    | none => false

/-- It ends the move of the pages that it covers and that no entry marks any more (R259). -/
def State.endMoves (s : State) (pid : BitVec 16) (all : Bool) (va : Nat) : State :=
  { s with settling := s.settling.filter fun a => !(s.tlbiCovers pid all va a && (s.runOf a).all fun b => !eMig (s.entryAt b)) }

/-- A request in service that was translated with one of the translations, and for which context `by'` waits from now on. -/
def markTlbi (pid : BitVec 16) (all : Bool) (va : Nat) (by' : Nat × Nat) (q : GReq × Svc) : GReq × Svc :=
  if q.1.pid == pid && q.2.under all va q.1.va then ({ q.1 with tlbi := by' :: q.1.tlbi }, q.2) else q

/-- TLBI.H at a station: the translations go, and the requests translated with them are marked. -/
def Station.invalidate (st : Station) (pid : BitVec 16) (all : Bool) (va : Nat) (by' : Nat × Nat) : Station :=
  { st with cache := st.cache.filter fun e => !(e.pid == pid && (all || e.covers pid va)),
            svc := st.svc.map (markTlbi pid all va by') }

/-- A request for which context `by'` waits in its TLBI.H is still in service. -/
def State.tlbiWaits (s : State) (by' : Nat × Nat) : Bool := s.stations.any fun st => st.2.svc.any fun q => q.1.tlbi.contains by'

/-- The context's instruction has issued before and waits. -/
def Wait.retries : Wait → Bool
  | .retry _ => true
  | _ => false

/-- TLBI.H: ILLEGAL comes before PRIV (R52) and whatever its condition (R55); the translations go at once, and it completes when every
request translated with them has been performed. -/
def execTlbiH (a b : Fin 32) (s : State) : Result :=
  let x := s.ctx.sreg b
  if 2 ^ 17 ≤ x.toNat && s.legal (.tlbiH a b) then .next (s.raise { cause := cILLEGAL })
  else
    issuePriv (.tlbiH a b) s (!(isHelm s.cur.1 && s.me.super)) 0x10 fun s =>
      let pid : BitVec 16 := x.setWidth 16
      let all := bit x.toNat 16
      let va := (s.ctx.sreg a).toNat
      let me := (s.cur.1, s.cur.2.val)
      let s := if s.ctx.wait.retries then s
        else { s.endMoves pid all va with stations := s.stations.map fun (st : Nat × Station) => (st.1, st.2.invalidate pid all va me) }
      if s.tlbiWaits me then s.stall else s.done 4 s.ctx

end Sys2Proof.Machine
end

