-- ==== Sys2Proof/Machine/Group.lean ====
section
/-! DEFINITION. The group: far loads and stores (R186, R187), atomics (R188), exact-sum words (R189), the service unit (R301), ca
(R41, R166, R188, R189, R212), copies (R190 to R193, R302, R303), folds (R194, R195). -/

namespace Sys2Proof.Machine

/-! Requests to a member. -/

/-- The owner set of PFENCE.G (R327). -/
def Ctx.addOwner (c : Ctx) (m : Nat) : Ctx :=
  if c.owners.contains m then c
  else if c.owners.length = 16 then { c with ownAll := true } else { c with owners := c.owners ++ [m] }

def State.ownerOf (s : State) (w : Word) : Nat := (s.memberTile s.cur.1 (winMember w)).getD 0

/-- Sends a far request on VC0 and waits for the answer; `note` adds the owner to PFENCE.G's set. -/
def State.toOwner (s : State) (op : FarOp) (w : Word) (body : Nat) (dest : Dest) (size : Nat) (note : Bool) : State :=
  let u := s.ownerOf w
  let r : FarReq := { op := op, addr := winOff w, site := s.cur.1, ctx := s.cur.2.val, id := s.ctx.reqid, ni := true }
  let s := s.sendTo s.cur.1 u 0 body (.far r)
  let s := if note then s.modCtx fun c => c.addOwner (winMember w) else s
  s.await dest size (some u)

/-- Sends a posted far request: counted as unacknowledged until its owner acknowledges it by its number. -/
def State.postFar (s : State) (op : FarOp) (w : Word) (body size : Nat) : State :=
  let u := s.ownerOf w
  let n := s.ctx.reqid
  let r : FarReq := { op := op, addr := winOff w, site := s.cur.1, ctx := s.cur.2.val, id := n, ni := true }
  let s := s.sendTo s.cur.1 u 0 body (.far r)
  s.done size { (s.ctx.addOwner (winMember w)).post with unacked := s.ctx.unacked ++ [(u, n)] }

/-! Far loads and stores (R187). -/

def farLoad (i : Instr) (s : State) (n : Nat) (a : Fin 32) (imm : BitVec 13) (dest : Dest) : Result :=
  issue i s fun s =>
    let w := mAddr s.ctx a imm
    s.guard (s.wcheck s.cur.1 w n) fun s => s.toOwner (.load n) w 0 dest 4 false

def execLdf32 (d a : Fin 32) (i : BitVec 13) (s : State) : Result := farLoad (.ldf32 d a i) s 4 a i (.s d)
def execLdf64 (d a : Fin 32) (i : BitVec 13) (s : State) : Result := farLoad (.ldf64 d a i) s 8 a i (.s d)
/-- LVF: under a prefix in full or not at all (R187) (DEDUCED, log 17). -/
def execLvf (d a : Fin 32) (i : BitVec 13) (s : State) : Result := farLoad (.lvf d a i) s 32 a i (.v d (BitVec.allOnes 32))

/-- Bytes with their offsets from the access's own address. -/
def offsets (bs : List Byte) : List (Nat × Byte) := (List.range bs.length).zip bs

def farStore (i : Instr) (s : State) (n : Nat) (d a : Fin 32) (imm : BitVec 13) : Result :=
  issue i s fun s =>
    let w := mAddr s.ctx a imm
    s.guard (s.wcheck s.cur.1 w n) fun s => s.postFar (.store (offsets (leBytes n (s.ctx.sreg d).toNat))) w 0 4

def execStf32 (d a : Fin 32) (i : BitVec 13) (s : State) : Result := farStore (.stf32 d a i) s 4 d a i
def execStf64 (d a : Fin 32) (i : BitVec 13) (s : State) : Result := farStore (.stf64 d a i) s 8 d a i

/-- SVF: under a prefix only the enabled bytes, checked from the lowest to the highest of them; word 3 of a fault is the address of the
lowest one (DESIGN CHOICE, log 106). -/
def execSvf (d a : Fin 32) (i : BitVec 13) (s : State) : Result :=
  issueLanes (.svf d a i) s fun s =>
    let c := s.ctx
    let w := mAddr c a i
    match enabledSpan c.enabled 32 with
    | none => s.done 4 c
    | some (lo, hi) =>
      let wl := w + BitVec.ofNat 64 lo
      let bs := (enabledBytes c.enabled (c.vreg d) 32).map fun b => (b.1 - lo, b.2)
      s.guard (s.wcheck s.cur.1 wl (hi - lo + 1)) fun s => s.postFar (.store bs) wl 1 4

/-! Atomics (R188). -/

/-- The body of an atomic: op as R66 numbers it, width code w, space code sp. -/
def atomic (i : Instr) (s : State) (op : Nat) (d a b : Fin 32) (w : Fin 2) (sp : Fin 4) : Result :=
  issue i s fun s =>
    let c := s.ctx
    let x := c.sreg a
    let n := 32 * (w.val + 1)
    let v := c.sreg b
    let cmp := c.sreg d
    if x.toNat % (n / 8) ≠ 0 then s.raise { cause := cALIGN, w3 := x }
    else
      let go := fun (t : Option Trap) (send : State → State) =>
        s.guard t fun s => if s.commitHolds then s.stall else send s
      match sp.val with
      | 0 => go (checkLocal x (n / 8)) fun s => s.toCa (.atomic op n v cmp) x (.s d) 4
      | 1 => go (s.wcheck s.cur.1 x (n / 8)) fun s => s.toOwner (.atomic op n v cmp) x 0 (.s d) 4 true
      | _ =>
        go (if 2 ^ 54 ≤ x.toNat then some (pageTrap x s.me.krn.pid) else none) fun s =>
          let s := s.modCtx fun c => { c with slices := c.slices ||| BitVec.ofNat 64 (2 ^ (vaCore x.toNat % 64)) }
          s.gsend (.atomic op n v cmp) x (.s d) 4

def execAadd (d a b : Fin 32) (w : Fin 2) (p : Fin 4) (s : State) : Result := atomic (.aadd d a b w p) s 0 d a b w p
def execAand (d a b : Fin 32) (w : Fin 2) (p : Fin 4) (s : State) : Result := atomic (.aand d a b w p) s 1 d a b w p
def execAor (d a b : Fin 32) (w : Fin 2) (p : Fin 4) (s : State) : Result := atomic (.aor d a b w p) s 2 d a b w p
def execAxor (d a b : Fin 32) (w : Fin 2) (p : Fin 4) (s : State) : Result := atomic (.axor d a b w p) s 3 d a b w p
def execAmin (d a b : Fin 32) (w : Fin 2) (p : Fin 4) (s : State) : Result := atomic (.amin d a b w p) s 4 d a b w p
def execAmax (d a b : Fin 32) (w : Fin 2) (p : Fin 4) (s : State) : Result := atomic (.amax d a b w p) s 5 d a b w p
def execAminu (d a b : Fin 32) (w : Fin 2) (p : Fin 4) (s : State) : Result := atomic (.aminu d a b w p) s 6 d a b w p
def execAmaxu (d a b : Fin 32) (w : Fin 2) (p : Fin 4) (s : State) : Result := atomic (.amaxu d a b w p) s 7 d a b w p
def execAswap (d a b : Fin 32) (w : Fin 2) (p : Fin 4) (s : State) : Result := atomic (.aswap d a b w p) s 8 d a b w p
def execAcas (d a b : Fin 32) (w : Fin 2) (p : Fin 4) (s : State) : Result := atomic (.acas d a b w p) s 9 d a b w p

/-! Exact-sum words (R189). -/

def alignTrap (a : Word) (n : Nat) : Option Trap := if a.toNat % n ≠ 0 then some { cause := cALIGN, w3 := a } else none

def execXaddf (a b : Fin 32) (t : Fin 2) (s : State) : Result :=
  issue (.xaddf a b t) s fun s =>
    let x := s.ctx.sreg a
    s.guard (alignTrap x 64) fun s =>
      s.guard (s.wcheck s.cur.1 x 64) fun s =>
        if s.commitHolds then s.stall
        else s.toOwner (.xadd (t.val == 1) ((s.ctx.sreg b).setWidth 32)) x 0 .none 4 true

def execXrd (d a : Fin 32) (t : Fin 2) (s : State) : Result :=
  issue (.xrd d a t) s fun s =>
    let x := s.ctx.sreg a
    s.guard (alignTrap x 64) fun s =>
      s.guard (checkLocal x 64) fun s => s.toCa (.xrd (t.val == 1)) x (.xrd d) 4

def execXclr (a : Fin 32) (s : State) : Result :=
  issue (.xclr a) s fun s =>
    let x := s.ctx.sreg a
    s.guard (alignTrap x 64) fun s =>
      s.guard (checkLocal x 64) fun s => if s.commitHolds then s.stall else s.toCa .xclr x .none 4

/-! The atomic context. -/

/-- The address that a report of site x names: a window address for a request that came through the NI. -/
def Site.reportAddr (x : Site) (r : FarReq) : Word :=
  if r.ni then winAddr (BitVec.ofNat 64 x.krn.member) (BitVec.ofNat 64 r.addr) else BitVec.ofNat 64 r.addr

def trapResp (c : BitVec 8) (a : Word) (w4 w5 : Word) : Resp := { trap := some { cause := c, w3 := a, w4 := w4, w5 := w5 } }

/-- Slot k of a versioned word (R211): RECL, FULL, TAG, VALUE. -/
def slotOf (x : Nat) : Bool × Bool × BitVec 16 × BitVec 32 :=
  (bit x 57, bit x 56, BitVec.ofNat 16 (bits x 32 16), BitVec.ofNat 32 x)

def mkSlot (recl full : Bool) (tag : BitVec 16) (v : BitVec 32) : Nat :=
  b2n recl * 2 ^ 57 + b2n full * 2 ^ 56 + tag.toNat * 2 ^ 32 + v.toNat

/-- m is newer than n (R211). -/
def newer (m n : BitVec 16) : Bool := 1 ≤ (m - n).toNat && (m - n).toNat ≤ 2 ^ 15

/-- What ca does: the site after it, the answer to the requester (none while a VLD is parked), and answers to parked VLDs. -/
structure CaRes where
  site : Site
  ans  : Option Resp
  more : List (FarReq × Resp) := []

/-- The ring operations (R166), in cycle now. -/
def caRing (now : Nat) (x : Site) (push : Option Word) (b : Nat) : CaRes :=
  let bw : Word := BitVec.ofNat 64 b
  let fail := fun (t : Trap) => ({ site := x, ans := some { trap := some t } } : CaRes)
  if b % 16 ≠ 0 then fail { cause := cALIGN, w3 := bw }
  else match checkLocal bw 16 with
    | some t => fail t
    | none =>
      match x.badIn b 16 with
      | some w => fail (eccTrap now w)
      | none =>
        let base := memRead x.mem b 4
        let size := memRead x.mem (b + 4) 4
        let head := memRead x.mem (b + 8) 4
        let tail := memRead x.mem (b + 12) 4
        let lg := size % 32
        if 32 ≤ size || lg = 0 || 13 < lg then fail { cause := cRANGE, w3 := bw }
        else if base % 8 ≠ 0 then fail { cause := cALIGN, w3 := BitVec.ofNat 64 base }
        else match checkLocal (BitVec.ofNat 64 base) (8 * 2 ^ lg) with
          | some t => fail t
          | none =>
            match push with
            | some v =>
              if (tail + 2 ^ 32 - head) % 2 ^ 32 = 2 ^ lg then { site := x, ans := some { pred := false } }
              else
                { site := (x.store (base + 8 * (tail % 2 ^ lg)) (leBytes 8 v.toNat)).store (b + 12)
                    (leBytes 4 ((tail + 1) % 2 ^ 32)), ans := some {} }
            | none =>
              if tail = head then { site := x, ans := some { pred := false } }
              else
                let a := base + 8 * (head % 2 ^ lg)
                match x.badIn a 8 with
                | some w => fail (eccTrap now w)
                | none =>
                  { site := x.store (b + 8) (leBytes 4 ((head + 1) % 2 ^ 32)),
                    ans := some { val := BitVec.ofNat 256 (memRead x.mem a 8) } }

/-- The slot of version n in the versioned word of v slots at a (R211). -/
def slotAddr (a : Nat) (n : BitVec 16) (v : Nat) : Nat := a + 8 * (n.toNat % v)

/-- The ECC trap of request r, which reads the bad word at w. -/
def Site.eccOf (x : Site) (now : Nat) (r : FarReq) (w : Nat) : Trap :=
  { cause := cECC, w3 := x.reportAddr { r with addr := w }, w4 := Config.syndrome now w }

/-- The answer to a parked VLD p of version n that a reclaim ends: VGONE with the version in its slot, or ECC of that slot. -/
def Site.goneAns (x : Site) (now : Nat) (p : FarReq) (n : BitVec 16) (v : Nat) : Resp :=
  let a := slotAddr p.addr n v
  match x.badIn a 8 with
  | some w => { trap := some (x.eccOf now p w) }
  | none => trapResp cVGONE (x.reportAddr p) (n.setWidth 64) ((slotOf (memRead x.mem a 8)).2.2.1.setWidth 64)

/-- VST, VLD and VRECL (R212, R213). A parked VLD and a VST or VRECL meet where they name one address, whatever number of slots each
takes from its own address word (DESIGN CHOICE, log 103). -/
def caVersion (now : Nat) (x : Site) (r : FarReq) : CaRes :=
  let a := x.reportAddr r
  let slotA := slotAddr r.addr
  let read := fun (n : BitVec 16) (v : Nat) => slotOf (memRead x.mem (slotA n v) 8)
  match r.op with
  | .vst n v k =>
    let (_, full, m, _) := read n k
    if full && m != n then { site := x, ans := some (trapResp cVFULL a (n.setWidth 64) (m.setWidth 64)) }
    else
      let hit := fun (p : FarReq) => p.addr == r.addr && (match p.op with
        | .vld n' _ => n' == n
        | _ => false)
      let x' := x.store (slotA n k) (leBytes 8 (mkSlot false true n v))
      { site := { x' with core := { x'.core with parked := x.core.parked.filter fun p => !hit p } }, ans := some {},
        more := (x.core.parked.filter hit).map fun p => (p, { val := v.setWidth 256 }) }
  | .vld n k =>
    let (recl, full, m, v) := read n k
    if full && m == n then { site := x, ans := some { val := v.setWidth 256 } }
    else if (full || recl) && (newer m n || m == n) then
      { site := x, ans := some (x.goneAns now r n k) }
    else if 64 ≤ x.core.parked.length then { site := x, ans := some { again := true } }
    else { site := { x with core := { x.core with parked := x.core.parked ++ [r] } }, ans := none }
  | .vrecl n k =>
    let (_, full, m, v) := read n k
    let hit := fun (p : FarReq) => p.addr == r.addr && (match p.op with
      | .vld n' _ => !newer n' n
      | _ => false)
    let x' := if full && !newer m n then x.store (slotA n k) (leBytes 8 (mkSlot true false m v)) else x
    { site := { x' with core := { x'.core with parked := x.core.parked.filter fun p => !hit p } }, ans := some {},
      more := (x.core.parked.filter hit).map fun p => match p.op with
        | .vld n' k' => (p, x'.goneAns now p n' k')
        | _ => (p, {}) }
  | _ => { site := x, ans := none }

/-- The bytes that a request reads: where, and how many. An operation on version n acts on its slot alone (R211, R212). -/
def FarReq.reads (r : FarReq) : Nat × Nat :=
  match r.op with
  | .atomic _ w _ _ => (r.addr, w / 8)
  | .xadd _ _ | .xrd _ => (r.addr, 64)
  | .vst n _ k | .vld n k | .vrecl n k => (slotAddr r.addr n k, 8)
  | _ => (r.addr, 0)

/-- The uncorrectable word that a request reads at its owner. -/
def Site.meets (x : Site) (r : FarReq) : Option Nat := x.badIn r.reads.1 r.reads.2

/-- One operation of ca at site x, in cycle now. -/
def caRun (now : Nat) (x : Site) (r : FarReq) : CaRes :=
  match x.meets r with
  | some w => { site := x, ans := some { trap := some (x.eccOf now r w) } }
  | none =>
    match r.op with
    | .atomic op w v cmp =>
      let old := memRead x.mem r.addr (w / 8)
      let new := atomicNew op w old (v.toNat % 2 ^ w) (cmp.toNat % 2 ^ w)
      let x' := if op = 9 && old ≠ cmp.toNat % 2 ^ w then x else x.store r.addr (leBytes (w / 8) new)
      { site := x', ans := some { val := BitVec.ofNat 256 old } }
    | .xadd bf v =>
      let old := memRead x.mem r.addr 64
      { site := x.store r.addr (leBytes 64 (xsAdd old (if bf then 8 else 24) (if bf then v.toNat % 65536 else v.toNat))),
        ans := some {} }
    | .xrd bf =>
      let (v, f) := xsRead (memRead x.mem r.addr 64) (if bf then 8 else 24)
      { site := x, ans := some { val := BitVec.ofNat 256 v, flags := f } }
    | .xclr => { site := x.store r.addr (List.replicate 64 0), ans := some {} }
    | .rpush v => caRing now x (some v) r.addr
    | .rpop => caRing now x none r.addr
    | _ => caVersion now x r

/-- ca has performed a posted request of context c of its own tile. A fault (R41) is raised as for one of another tile; while the tile is
halted it waits at the NI. -/
def State.ownPostDone (s : State) (t : Nat) (c : Fin 4) (num : Nat) (tr : Option Trap) : State :=
  match tr with
  | none => s.modCtxAt t c fun y => { y.settlePost num with posted := y.posted - 1 }
  | some tr =>
    let s := s.modCtxAt t c fun y => { y with posted := y.posted - 1 }
    if (s.ctxAt t c).st = .halted then
      (s.modCtxAt t c fun y => { y with unacked := y.unacked ++ [(t, num)] }).modSite t fun x =>
        { x with rxResp := x.rxResp ++ [{ src := t, dst := t, vc := 1, body := 0, load := .ack c.val t num (some tr) }] }
    else (s.postTrap t c num tr).modCtxAt t c (·.settlePost num)

/-- The answer of owner t: by packet on VC1 when the request came through the NI, else at once. A posted request is acknowledged with
the fault that it met (R41, R213). -/
def State.answer (s : State) (t : Nat) (r : FarReq) (a : Resp) : State :=
  if r.op.posted then
    if r.ni then s.sendTo t r.site 1 0 (.ack r.ctx t r.id a.trap)
    else s.ownPostDone t (fin4 r.ctx) r.id a.trap
  else if r.ni then
    s.sendTo t r.site 1 (match r.op with
      | .load 32 => 1
      | _ => 0) (.resp r.ctx r.id a)
  else s.respond t (fin4 r.ctx) r.id a

/-- The context that made a request still waits for its answer. -/
def State.awaited (s : State) (r : FarReq) : Bool :=
  match (s.ctxAt r.site (fin4 r.ctx)).wait with
  | .resp id _ _ _ => id == r.id
  | _ => false

/-- CA_OPERATION (R41, R368): ca performs the next operation in its order; the service unit is free again (DEDUCED, log 21). A VLD
would park whose context no longer waits for it is returned instead (DEDUCED, log 101). -/
def execCaOperation (t : Nat) (s : State) : Result :=
  atSite t s fun s =>
    let x := s.site t
    match x.core.caq with
    | [] => s
    | r :: rest =>
      let x := { x with core := { x.core with caq := rest },
                        svc := if r.ni then x.svc.drop 1 else x.svc }
      let res := caRun s.cycle x r
      let s := s.setSite t res.site
      let s := match x.meets r with
        | some w => s.errRecord t 0 w
        | none => s
      let s := (res.more.filter fun p => p.2.trap.any fun tr => tr.cause == cECC).foldl (fun (s : State) p => s.errRecord t 0 p.1.reads.1) s
      let s := res.more.foldl (fun s p => s.answer t p.1 p.2) s
      match res.ans with
      | some a => s.answer t r a
      | none => if s.awaited r then s else (s.endWait r.site (fin4 r.ctx) r.id false).answer t r { again := true }

/-- Writes bytes at their offsets. -/
def Site.storeAt (x : Site) (a : Nat) (bs : List (Nat × Byte)) : Site := bs.foldl (fun x b => x.store (a + b.1) [b.2]) x

/-- The landing of packet key still goes to tile t: its transfer goes on, and the tile is a member of an ACTIVE group of its tenant (R312).
One that reaches the tile after the group has ended is refused as one that reaches the device then (DESIGN CHOICE, log 114). -/
def State.landsAt (s : State) (t key : Nat) : Bool := s.incoming.any fun i => i.key == key && s.activeOf t (i.pid.toNat / 4096)

/-- FAR_REQUEST_SERVICE (R301): the service unit performs a far load or store or the next beat of a copy packet, or hands its request to
ca. -/
def execFarRequestService (t : Nat) (s : State) : Result :=
  atNi t s fun s =>
    let x := s.site t
    match x.svc with
    | [] => s
    | p :: rest =>
      let free := s.modSite t fun x => { x with svc := rest }
      match p.load with
      | .far r =>
        match r.op with
        | .load n =>
          match x.badIn r.addr n with
          | some w =>
            let tr : Trap := { cause := cECC, w3 := x.reportAddr { r with addr := w }, w4 := Config.syndrome s.cycle w }
            (free.errRecord t 0 w).answer t r { trap := some tr }
          | none => free.answer t r { val := BitVec.ofNat 256 (memRead x.mem r.addr n) }
        | .store bs => (free.modSite t fun x => x.storeAt r.addr bs).answer t r {}
        | _ => if x.core.caq.contains r then s else s.modCore t fun k => { k with caq := k.caq ++ [r] }
      | .cpWrite site cmd piece addr bytes =>
        if site = helmDie && !s.landsAt t cmd then free.sendTo t site 1 0 (.cpAck cmd piece cACCESS)
        else
          let s := s.modSite t fun x => x.store addr (bytes.take 32)
          if bytes.length ≤ 32 then (s.modSite t fun x => { x with svc := rest }).sendTo t site 1 0 (.cpAck cmd piece 0)
          else s.modSite t fun x => { x with svc := { p with load := .cpWrite site cmd piece (addr + 32) (bytes.drop 32) } :: rest }
      | .cpRead site cmd piece addr n got =>
        let a := addr + got.length
        let m := min 32 (n - got.length)
        match x.badIn a m with
        | some w => (free.errRecord t 0 w).sendTo t site p.vc 0 (.cpReply cmd piece [] 9)
        | none =>
          let got := got ++ memBytes x.mem a m
          if n ≤ got.length then free.sendTo t site p.vc ((n + 31) / 32) (.cpReply cmd piece got 0)
          else s.modSite t fun x => { x with svc := { p with load := .cpRead site cmd piece addr n got } :: rest }
      | _ => free

/-! The copy engine (R190, R191). -/

/-- The check of one copy address at issue. -/
def State.copyCheck (s : State) (x : Word) (n : Nat) : Option Trap :=
  match copySpace x with
  | .bad => some { cause := cACCESS, w3 := x }
  | .scratch a => checkLocal a n
  | .window w => s.wcheck s.cur.1 w n
  | .global _ => none

def execCpy (d a b : Fin 32) (v : Fin 4) (s : State) : Result :=
  issue (.cpy d a b v) s fun s =>
    let c := s.ctx
    let n := (c.sreg d).toNat
    if n = 0 || 2 ^ 24 < n then s.raise { cause := cRANGE, w4 := c.sreg d }
    else
      s.guard (s.copyCheck (c.sreg a) n) fun s => s.guard (s.copyCheck (c.sreg b) n) fun s => s.afterCa fun s =>
        if 8 ≤ s.me.core.copyq.length then s.stall
        else
          let cmd : CpCmd := { len := n, src := c.sreg a, dst := c.sreg b, vc := v.val, ctx := s.cur.2.val, tag := c.cpycount }
          let s := s.modCore s.cur.1 fun k => { k with copyq := k.copyq ++ [cmd] }
          s.done 4 { s.ctx with cpycount := c.cpycount + 1 }

def isScratch (x : Word) : Bool :=
  match copySpace x with
  | .scratch _ => true
  | _ => false

/-- Pieces of n bytes: a source that is read by packets is cut into 256-byte-aligned ranges, one read to each (R302); a local source
at the ranges of the destination, one write packet to each (R292, R303) (DESIGN CHOICE, log 23). -/
def cutPieces (src dst : Word) : Nat → Nat → List Piece
  | 0, _ => []
  | fuel + 1, n =>
    if n = 0 then []
    else
      let k := min n (256 - (if isScratch src then dst else src).toNat % 256)
      { src := src, dst := dst, len := k } :: cutPieces (src + BitVec.ofNat 64 k) (dst + BitVec.ofNat 64 k) fuel (n - k)

/-- The write packets of a piece, each to one 256-byte-aligned range (R292): offsets and lengths. -/
def Piece.writes (p : Piece) : List (Nat × Nat) :=
  let k := min p.len (256 - p.dst.toNat % 256)
  if k = p.len then [(0, k)] else [(0, k), (k, p.len - k)]

/-- The cause for a copy address that names nothing: past the end of global memory PAGE (R253), else ACCESS (R190). -/
def badSpace (x : Word) : BitVec 8 := if bits x.toNat 62 2 = 2 then cPAGE else cACCESS

/-- Source and destination lie in one scratchpad and overlap (R191). -/
def State.overlaps (s : State) (t : Nat) (c : CpCmd) : Bool :=
  let home := fun x => match copySpace x with
    | .scratch a => some (t, a.toNat)
    | .window w => (s.memberTile t (winMember w)).map fun u => (u, winOff w)
    | _ => none
  match home c.src, home c.dst with
  | some (u, a), some (v, b) => u == v && decide (a < b + c.len) && decide (b < a + c.len)
  | _, _ => false

/-- A fault has stopped the copy at or before piece i (R191). -/
def CpCmd.stoppedAt (c : CpCmd) (i : Nat) : Bool := c.cause != 0 && decide (c.stop ≤ i)

/-- Every write packet has been sent that the copy will send. -/
def CpCmd.sent (c : CpCmd) : Bool :=
  (List.range c.pieces.length).all fun i => c.stoppedAt i || (c.pieces[i]?.map fun p => p.st == .writing || p.st == .acked).getD true

/-- No piece is on its way, and all are done or a fault has stopped the copy. -/
def CpCmd.finished (c : CpCmd) : Bool :=
  (List.range c.pieces.length).all fun i => (c.pieces[i]?.map fun p => p.st == .acked || (c.stoppedAt i && p.st == .todo)).getD true

/-- The engine itself reads the piece, beat by beat. -/
def Piece.readsOwn (p : Piece) : Bool := p.st == .reading && isScratch p.src

/-- The first piece that is still to be read: none from the fault on that has stopped the copy. -/
def CpCmd.nextRead (c : CpCmd) : Option Nat :=
  (List.range c.pieces.length).find? fun i => !c.stoppedAt i && (c.pieces[i]?.map fun p => p.st == .todo || p.readsOwn).getD false

def CpCmd.setPiece (c : CpCmd) (i : Nat) (p : Piece) : CpCmd := { c with pieces := c.pieces.set i p }

/-- A fault at piece i: the copy stops there, and what has been read from there on is dropped. The completion reports the fault that
is met first (DESIGN CHOICE, log 23). -/
def CpCmd.fail (c : CpCmd) (i : Nat) (cause : BitVec 8) : CpCmd :=
  let c' := if c.cause = 0 then { c with cause := cause, stop := i } else { c with stop := min c.stop i }
  { c' with pieces := (List.range c'.pieces.length).zip c'.pieces |>.map fun x =>
      if c'.stop ≤ x.1 && (x.2.st == .ready || x.2.readsOwn) then { x.2 with st := .todo, data := [] } else x.2 }

/-- Changes command num of tile t. -/
def State.modCopy (s : State) (t num : Nat) (f : CpCmd → CpCmd) : State :=
  s.modCore t fun k => { k with copies := k.copies.map fun c => if c.num = num then f c else c }

/-- Reads the next beat of the source of piece i, or asks its home for it. -/
def State.copyRead (s : State) (t : Nat) (c : CpCmd) (i : Nat) (p : Piece) : State :=
  let upd := fun (s : State) (q : Piece) => s.modCopy t c.num fun c => c.setPiece i q
  match copySpace p.src with
  | .scratch a =>
    let x := s.site t
    let lo := a.toNat + p.data.length
    let n := min 32 (p.len - p.data.length)
    match x.badIn lo n with
    | some w => (s.errRecord t 0 w).modCopy t c.num fun c => c.fail i cECC
    | none =>
      let d := p.data ++ memBytes x.mem lo n
      upd s { p with st := if p.len ≤ d.length then .ready else .reading, data := d }
  | .window w =>
    match s.memberTile t (winMember w) with
    | none => s.modCopy t c.num fun c => c.fail i cACCESS
    | some u =>
      if s.isOff u then s.modCopy t c.num fun c => c.fail i cGATED
      else (upd s { p with st := .reading }).sendTo t u c.vc 0 (.cpRead t c.num i (winOff w) p.len)
  | .global g =>
    let r : GReq := { op := .read p.len, va := g, pid := (s.site t).krn.pid, site := t, ctx := c.ctx, id := 0,
                      piece := some (c.num, i), vc := c.vc }
    (upd s { p with st := .reading }).sendTo t (Config.tiles + vaCore g.toNat) c.vc 0 (.global r)
  | .bad => s.modCopy t c.num fun c => c.fail i (badSpace p.src)

/-- Sends write packet j of piece i, numbered 2i + j: n bytes from offset o. -/
def State.copyPacket (s : State) (t : Nat) (c : CpCmd) (i j o n : Nat) (p : Piece) : State :=
  let x := p.dst + BitVec.ofNat 64 o
  let bs := (p.data.drop o).take n
  let beats := (n + 31) / 32
  let sent := fun (s : State) => s.modCopy t c.num fun c => c.setPiece i (match c.pieces[i]? with
    | some q => { q with out := q.out ++ [2 * i + j] }
    | none => p)
  match copySpace x with
  | .window w =>
    match s.memberTile t (winMember w) with
    | none => s.modCopy t c.num fun c => c.fail i cACCESS
    | some u =>
      if s.isOff u then s.modCopy t c.num fun c => c.fail i cGATED
      else (sent s).sendTo t u c.vc beats (.cpWrite t c.num (2 * i + j) (winOff w) bs)
  | .global g =>
    let r : GReq := { op := .write bs, va := g, pid := (s.site t).krn.pid, site := t, ctx := c.ctx, id := 0,
                      piece := some (c.num, 2 * i + j) }
    (sent s).sendTo t (Config.tiles + vaCore g.toNat) c.vc beats (.global r)
  | _ => s.modCopy t c.num fun c => c.fail i (badSpace x)

/-- A piece of which no write packet is on its way any more is over. -/
def Piece.settled (p : Piece) : Piece := if p.st == .writing && p.out.isEmpty then { p with st := .acked } else p

/-- A beat of piece i into the own scratchpad, behind those that are written; `left` is what is still to be written of what was read. -/
def State.copyBeat (s : State) (t : Nat) (c : CpCmd) (i : Nat) (p : Piece) (a : Nat) (beat left : List Byte) : State :=
  let n := p.good + beat.length
  (s.modSite t fun x => x.store (a + p.good) beat).modCopy t c.num fun c =>
    c.setPiece i { p with st := if p.len ≤ n then .acked else p.st, data := left, good := n }

/-- Writes the next beat of piece i, which has been read, or sends it. -/
def State.copyWrite (s : State) (t : Nat) (c : CpCmd) (i : Nat) (p : Piece) : State :=
  match copySpace p.dst with
  | .scratch a => s.copyBeat t c i p a.toNat (p.data.take 32) (p.data.drop 32)
  | _ =>
    let s := s.modCopy t c.num fun c => c.setPiece i { p with st := .writing, data := [] }
    let s := ((List.range p.writes.length).zip p.writes).foldl
      (fun (s : State) x => s.copyPacket t c i x.1 x.2.1 x.2.2 p) s
    s.modCopy t c.num fun c => { c with pieces := c.pieces.modify i Piece.settled }

/-- A copy onto its own source has not read the whole of it yet, so it writes nothing (R191). -/
def State.stillReads (s : State) (t : Nat) (c : CpCmd) : Bool :=
  s.overlaps t c && (c.nextRead.isSome || c.pieces.any fun p => p.st == .reading)

/-- The piece that the engine works on next: data to write, else a source to read. -/
def State.copyNext (s : State) (t : Nat) (c : CpCmd) : Option State :=
  match (if s.stillReads t c then none else c.pieces.findIdx? fun p => p.st == .ready), c.nextRead with
  | some i, _ => (c.pieces[i]?).map fun p => s.copyWrite t c i p
  | none, some i => (c.pieces[i]?).map fun p => s.copyRead t c i p
  | none, none => none

/-- The next beat of the reply to the read of piece i: it is written as it arrives (R302, R303), unless a fault has stopped the copy
before it; a copy onto its own source, and one to another home, keeps it until its piece is whole. -/
def State.copyReply (s : State) (t num i : Nat) (bytes : List Byte) (cause : BitVec 8) : State :=
  match (s.site t).core.copies.find? fun c => c.num == num with
  | none => s
  | some c =>
    match c.pieces[i]? with
    | none => s
    | some p =>
      if cause ≠ 0 then s.modCopy t num fun c => (c.setPiece i { p with st := .todo }).fail i cause
      else if c.stoppedAt i then s.modCopy t num fun c => c.setPiece i { p with st := .todo }
      else match copySpace p.dst, s.overlaps t c with
        | .scratch a, false => s.copyBeat t c i p a.toNat bytes []
        | _, over' =>
          let d := p.data ++ bytes
          let p' := { p with st := if p.len ≤ d.length then .ready else p.st, data := d }
          let s' := s.modCopy t num fun c => c.setPiece i p'
          if over' || d.length < p.len then s' else s'.copyWrite t c i p'

/-- The acknowledgement of write packet n of a copy. -/
def CpCmd.gotAck (c : CpCmd) (n : Nat) (cause : BitVec 8) : CpCmd :=
  let i := n / 2
  match c.pieces[i]? with
  | none => c
  | some p =>
    let len := ((p.writes[n % 2]?).map (·.2)).getD 0
    let p' := { p with out := p.out.filter (· != n), good := if cause = 0 then p.good + len else p.good }
    let c' := c.setPiece i p'.settled
    if cause = 0 then c' else c'.fail i cause

/-- COPY_COMMAND_START: the engine takes the next step of the command that it sends, else starts the next command of its FIFO
once the previous one has sent its last packet (R191, R303). -/
def execCopyCommandStart (t : Nat) (s : State) : Result :=
  atSite t s fun s =>
    let k := (s.site t).core
    match k.copies.findSome? fun c => if c.sent then none else s.copyNext t c with
    | some s' => s'
    | none =>
      let blocked := (k.copies.any fun c => !c.sent) || ((k.copies.head?.map CpCmd.finished).getD false &&
        decide (16 ≤ k.q7.items.length))
      match k.copyq with
      | [] => s
      | c :: rest =>
        if blocked then s
        else
          let c' := { c with num := k.copyNum, pieces := cutPieces c.src c.dst c.len c.len }
          s.modCore t fun k => { k with copyq := rest, copies := k.copies ++ [c'], copyNum := k.copyNum + 1 }

/-- A completion entry (R192). -/
def completion (kind ctx : Nat) (sat : Bool) (cause : BitVec 8) (tag count : Nat) : Word :=
  BitVec.ofNat 64 (kind * 2 ^ 60 + ctx * 2 ^ 58 + b2n sat * 2 ^ 57 + cause.toNat * 2 ^ 48 + tag % 65536 * 2 ^ 32 +
    count % 2 ^ 32)

/-- COPY_COMPLETION: the oldest copy posts its completion when every write is acknowledged and q7 has room. -/
def execCopyCompletion (t : Nat) (s : State) : Result :=
  atSite t s fun s =>
    let k := (s.site t).core
    match k.copies with
    | [] => s
    | c :: rest =>
      if !c.finished || decide (16 ≤ k.q7.items.length) then s
      else
        let n := (c.pieces.map (·.good)).sum
        let e := completion 1 c.ctx false c.cause c.tag.toNat n
        s.modCore t fun k => { k with copies := rest, q7 := k.q7.push e }.wake

/-- Takes entry i out of q7; entries before it keep their places, so their numbers rise with the pops. -/
def Core.take7 (k : Core) (i : Nat) : Core :=
  let n := k.q7.pops + i
  { k with q7 := { k.q7 with items := k.q7.items.eraseIdx i, pops := k.q7.pops + 1 },
           badQ := k.badQ.map fun b => if b.1 = 7 && decide (b.2 < n) then (7, b.2 + 1) else b }

/-- CPYPOP: the oldest entry of the issuing context leaves q7 (R193). -/
def execCpypop (d : Fin 32) (s : State) : Result :=
  issue (.cpypop d) s fun s =>
    let q := s.me.core.q7
    match q.items.findIdx? fun e => bits e.toNat 58 2 == s.cur.2.val with
    | none => s.done 4 (s.ctx.setS d 0)
    | some i =>
      if s.me.core.badQ.contains (7, q.pops + i) then s.raise (eccIn s.cycle 4 (qAddr 7 (q.pops + i)))
      else
        let s := s.modCore s.cur.1 fun k => k.take7 i
        s.done 4 (s.ctx.setS d (q.items.getD i 0))

/-! The fold engine (R194). -/

def foldSlotOf (x : Word) : Fin 4 := fin4 (bits x.toNat 16 2)
def foldOp (x : Word) : Nat := bits x.toNat 18 2

def execFold (d a b : Fin 32) (s : State) : Result :=
  let bad :=
    let x := s.ctx.sreg d
    foldOp x = 3 || (!bit x.toNat 20 && s.me.core.foldSeen[foldSlotOf x] != some (foldOp x))
  issueIll (.fold d a b) s bad fun s =>
    let c := s.ctx
    let x := c.sreg d
    let k := s.me.core
    let i := foldSlotOf x
    if 8 ≤ k.foldq.length then s.stall
    else
      let seen := if bit x.toNat 21 then none else some (foldOp x)
      let cmd : FoldCmd := { desc := x, m := c.sreg a, e := (c.sreg b).setWidth 16, ctx := s.cur.2.val }
      let s := s.modCore s.cur.1 fun k => { k with foldq := k.foldq ++ [cmd], foldSeen := k.foldSeen.set i seen }
      s.done 4 s.ctx

def floorShift (x : Int) (n : Nat) : Int := x / 2 ^ n

/-- An arrival (m, e) at a slot (R115, R117). -/
def FoldSlot.add (f : FoldSlot) (m e : Int) : FoldSlot :=
  let acc := f.acc.toInt
  match f.mode with
  | 0 =>
    let d := e - f.exp
    if d ≤ 0 then { f with acc := BitVec.ofInt 128 (acc + floorShift m (min 64 d.natAbs)), had := true }
    else
      let t := m * 2 ^ d.toNat
      let u := Sys2Proof.Machine.sat t (-2 ^ 127) (2 ^ 127 - 1)
      { f with acc := BitVec.ofInt 128 (acc + u), sat := f.sat || u != t, had := true }
  | 1 =>
    if !f.had then { f with exp := e, acc := BitVec.ofInt 128 m, had := true }
    else if f.exp < e then
      { f with exp := e, acc := BitVec.ofInt 128 (floorShift acc (min 128 (e - f.exp).toNat) + m) }
    else { f with acc := BitVec.ofInt 128 (acc + floorShift m (min 64 (f.exp - e).toNat)) }
  | _ => { f with acc := BitVec.ofInt 128 (if acc < e then e else acc), had := true }

/-- An empty slot in a mode. -/
def FoldSlot.fresh (mode : Nat) (f : Int) : FoldSlot :=
  { mode := mode, exp := if mode = 0 then f else 0, acc := if mode = 2 then BitVec.ofInt 128 (-32768) else 0, sat := false,
    had := false }

/-- FOLD_PERFORM: the engine performs the oldest command; a CLOSE waits for room in q7. -/
def execFoldPerform (t : Nat) (s : State) : Result :=
  atSite t s fun s =>
    let k := (s.site t).core
    match k.foldq with
    | [] => s
    | c :: rest =>
      let x := c.desc.toNat
      let i := foldSlotOf c.desc
      let closes := bit x 21
      if closes && decide (16 ≤ k.q7.items.length) then s
      else
        let f0 := if bit x 20 then FoldSlot.fresh (foldOp c.desc) (sext x 16)
          else (k.folds[i]).getD (FoldSlot.fresh (foldOp c.desc) (sext x 16))
        let f := if bit x 22 then f0 else f0.add c.m.toInt c.e.toInt
        if closes then
          let tag := trunc (if f.mode = 2 then 0 else f.exp) 16
          let e := completion 2 c.ctx f.sat 0 tag i.val
          (s.modCore t fun k =>
            { k with foldq := rest, folds := k.folds.set i none, q7 := k.q7.push e }.wake).modCtxAt t (fin4 c.ctx)
              fun y => { y with fr := f.acc }
        else s.modCore t fun k => { k with foldq := rest, folds := k.folds.set i (some f) }

def execFoldrd (d k : Fin 32) (s : State) : Result :=
  wrS (.foldrd d k) s d fun c => BitVec.ofNat 64 (bits c.fr.toNat (64 * k.val) 64)

/-! Responses at the NI. -/

/-- Removes one occurrence. -/
def removeOne (l : List Nat) (x : Nat) : List Nat := l.eraseP (· == x)

/-- An acknowledgement for a link engine goes its own way (DELIVERY_ACK). -/
def Load.isDelAck : Load → Bool
  | .delAck _ _ => true
  | _ => false

/-- An owner's answer to a request of PFENCE.G counts for the instruction that asked (R327). -/
def Ctx.ownerDone (y : Ctx) (m num : Nat) : Ctx :=
  if y.persisted.isSome && y.fenceId == num then { y with owners := removeOne y.owners m } else y

/-- An answer to the copy engine, which works on while its tile is halted. -/
def Load.isCopy : Load → Bool
  | .cpReply _ _ _ _ | .cpAck _ _ _ => true
  | _ => false

/-- FAR_RESPONSE_ARRIVAL (R186): the oldest response or acknowledgement of the tile's own requests, or its next beat, goes to its context
or engine; of a halted tile only the engine takes any (R338). -/
def execFarResponseArrival (t : Nat) (s : State) : Result :=
  atSite t s fun s =>
    let x := s.site t
    let takes := fun (p : Pkt) => !p.load.isDelAck && (!x.halted || p.load.isCopy)
    match x.rxResp.find? takes with
    | none => s
    | some p =>
      let more := match p.load with
        | .cpReply num i bytes cause => if bytes.length ≤ 32 then none else some { p with load := .cpReply num i (bytes.drop 32) cause }
        | _ => none
      let s' := s.modSite t fun x => { x with rxResp := match more with
        | some q => x.rxResp.set (x.rxResp.findIdx takes) q
        | none => x.rxResp.eraseP takes }
      match p.load with
      | .resp c id r => s'.respond t (fin4 c) id r
      | .ack c owner num tr => s'.acked t (fin4 c) owner num tr
      | .beat c id j r => s'.beatRead t (fin4 c) id j r
      | .sealAck num => s'.sealAcked num
      | .persisted c m num => s'.modCtxAt t (fin4 c) fun y => y.ownerDone m num
      | .cpReply num i bytes cause => s'.copyReply t num i (bytes.take 32) cause
      | .cpAck num n cause => s'.modCopy t num fun c => c.gotAck n cause
      | _ => s'

end Sys2Proof.Machine
end

