-- ==== Sys2Proof/Machine/Barrier.lean ====
section
/-! DEFINITION. Semaphores (R197 to R199), ratline barriers (R200 to R205), phasers (R206 to R209), versioned words (R210 to
R213), FENCE (R214, R215). -/

namespace Sys2Proof.Machine

/-! Semaphores. -/

/-- sat(sem + n) with the latches of an increase (R197), then the waiters. -/
def Core.semAdd (k : Core) (i : Fin 16) (n : Nat) : Core :=
  ({ k with sem := k.sem.set i (BitVec.ofNat 32 (min (2 ^ 32 - 1) (k.sem[i].toNat + n))) }.wake).semServe

def semNo (d : Fin 32) : Fin 16 := ⟨d.val % 16, by omega⟩

def execSemset (d a : Fin 32) (s : State) : Result :=
  issue (.semset d a) s fun s =>
    let x : BitVec 32 := (s.ctx.sreg a).setWidth 32
    let i := semNo d
    s.afterCa fun s =>
      let s := s.setCtx (s.ctx.advance 4)
      s.modCore s.cur.1 fun k =>
        let k' := { k with sem := k.sem.set i x }
        (if k.sem[i].toNat < x.toNat then k'.wake else k').semServe

def execSemadd (d n : Fin 32) (s : State) : Result :=
  issue (.semadd d n) s fun s =>
    s.afterCa fun s =>
      let s := s.setCtx (s.ctx.advance 4)
      s.modCore s.cur.1 fun k => k.semAdd (semNo d) n.val

/-- SEMWAIT: completes when no waiter is ahead and the value suffices, else joins the waiters; no count is taken yet. -/
def execSemwait (d n : Fin 32) (s : State) : Result :=
  issue (.semwait d n) s fun s =>
    let i := semNo d
    let k := s.me.core
    if !(k.waiters.any fun w => w.1 == i.val) && decide (n.val ≤ k.sem[i].toNat) then
      let s := s.modCore s.cur.1 fun k => { k with sem := k.sem.set i (k.sem[i] - BitVec.ofNat 32 n.val) }
      s.done 4 s.ctx
    else
      let s := s.modCore s.cur.1 fun k => { k with waiters := k.waiters ++ [(i.val, s.cur.2.val, n.val)] }
      s.modCtx fun c => { c with st := .stalled, wait := .none }

/-! Tokens (R200). -/

/-- What a wait for token t meets when phase c is open. -/
inductive Tok where
  | wait | future | stale
  deriving DecidableEq, Repr

def token (t c : BitVec 16) : Tok :=
  let d := (t - c).toNat
  if d ≤ 1 then .wait else if d < 2 ^ 15 then .future else .stale

/-! Ratline barriers. -/

/-- One more arrival at barrier n (R202), unless the member is AHEAD. -/
def Core.ahead (k : Core) (n : Fin 4) : Bool := (k.barA[n] - k.barC[n]).toNat = 2
def Core.arrive (k : Core) (n : Fin 4) : Core := { k with barA := k.barA.set n (k.barA[n] + 1) }

def barNo (d : Fin 32) : Fin 4 := fin4 d.val

/-- BAR (R205). On a site without a group it arrives at the core's own barrier, which nothing releases; so do BARA and BARW (DESIGN CHOICE,
log 110). -/
def execBar (d : Fin 32) (s : State) : Result :=
  issue (.bar d) s fun s =>
    let n := barNo d
    let k := s.me.core
    if !s.ctx.b[n].pend && k.ahead n then s.stall
    else
      let s :=
        if s.ctx.b[n].pend then s
        else (s.modCore s.cur.1 fun k => k.arrive n).modCtx fun c =>
          { c with b := c.b.set n { pend := true, token := k.barA[n] } }
      match token (s.ctx.b[n].token) k.barC[n] with
      | .stale => s.done 4 { s.ctx with b := s.ctx.b.set n { s.ctx.b[n] with pend := false } }
      | _ => s.stall

/-- BARA: arrives and gives the token (log 110 for a site without a group). -/
def execBara (d a : Fin 32) (s : State) : Result :=
  issue (.bara d a) s fun s =>
    let n := barNo a
    let k := s.me.core
    if k.ahead n then s.stall
    else
      let t := k.barA[n]
      let s := s.modCore s.cur.1 fun k => k.arrive n
      s.done 4 ({ s.ctx with b := s.ctx.b.set n { pend := false, token := t } }.setS d (t.setWidth 64))

/-- The context has waited in this instruction. -/
def Ctx.waited (c : Ctx) : Bool := match c.wait with
  | .retry _ => true
  | _ => false

/-- BARW: all ones after a wait, zero for a phase that had already completed. -/
def execBarw (d a b : Fin 32) (s : State) : Result :=
  issue (.barw d a b) s fun s =>
    let n := barNo a
    let t : BitVec 16 := (s.ctx.sreg b).setWidth 16
    let c := s.me.core.barC[n]
    match token t c with
    | .wait => s.stall
    | .future => s.raise { cause := cPHASE, w4 := t.setWidth 64, w5 := c.setWidth 64 }
    | .stale => s.done 4 (s.ctx.setP d (if s.ctx.waited then 0xFFFFFFFF else 0))

/-- A member's arrival line for the open phase r is up: it is ARRIVED or AHEAD (R202), or an OFF gate has raised it (R204). -/
def State.lineUp (s : State) (la : Launch) (t : Nat) (n : Fin 4) (r : BitVec 16) : Bool :=
  let k := (s.site t).core
  la.raised.contains t || (k.barC[n] == r && (k.barA[n] == r + 1 || k.barA[n] == r + 2))

/-- RATLINE_RELEASE (R203): the corner of launch l releases barrier n when every line is up; a release on its way reaches
member m, whose copy of the open phase advances, that of a SLEEP member too (DESIGN CHOICE, log 111). -/
def execRatlineRelease (l n m : Nat) (s : State) : Result :=
  match mapGet? s.launches l with
  | none => .next s
  | some la =>
    let i := fin4 n
    let r := la.barOpen[i]
    let t? := la.members[m]?
    match t? with
    | none => .next s
    | some t =>
      if (s.site t).core.barC[i] != r then
        .next (s.modCore t fun k => { k with barC := k.barC.set i (k.barC[i] + 1) }.wake)
      else if la.members.all fun u => s.lineUp la u i r then
        .next { s with launches := mapPut s.launches l { la with barOpen := la.barOpen.set i (r + 1) } }
      else .next s

/-! Phasers. -/

def PhMember.signals (m : PhMember) : Bool := m.mode != 1
def PhMember.waits (m : PhMember) : Bool := m.mode != 0

/-- Registered for phase c. -/
def PhMember.countsFor (m : PhMember) (c : BitVec 16) : Bool := m.signals && decide ((c - m.start).toNat < 2 ^ 15)

/-- Has signalled phase c. -/
def PhMember.signalled (m : PhMember) (c : BitVec 16) : Bool := 1 ≤ (m.nextS - c).toNat && (m.nextS - c).toNat < 2 ^ 15

def Phaser.find (p : Phaser) (m : Nat) : Option PhMember := p.regs.find? fun r => r.member == m

/-- Phase c completes (R208). -/
def Phaser.complete (p : Phaser) : Bool :=
  let l := p.regs.filter (·.countsFor p.phase)
  !l.isEmpty && l.all (·.signalled p.phase)

/-- A signal may be counted: s_m is at most c + 1. -/
def Phaser.maySignal (p : Phaser) (m : PhMember) : Bool := (p.phase + 1 - m.nextS).toNat < 2 ^ 15

/-- A registration after phase c: one that counted in it counts in the next. -/
def PhMember.passed (m : PhMember) (c : BitVec 16) : PhMember := if m.countsFor c then { m with start := c + 1 } else m

def Phaser.count (p : Phaser) (m : Nat) : Phaser :=
  { p with regs := p.regs.map fun r => if r.member = m then { r with nextS := r.nextS + 1 } else r }

/-- Requests that wait and can be answered now, with the phaser after them: a PHSIG that may be counted, a PHWAIT whose phase has
completed. Of a member that has been dropped meanwhile a PHSIG is refused when a phase next completes, and a PHWAIT waits on (DESIGN
CHOICE, log 97). -/
def Phaser.sweep (p : Phaser) : List PhReq → Phaser × List (PhReq × Resp)
  | [] => (p, [])
  | q :: r =>
    let keep := fun (p : Phaser) => { p with queue := p.queue ++ [q] }
    match q.op with
    | .sig =>
      match p.find q.member with
      | some m =>
        if p.maySignal m then
          let (p', a) := (p.count q.member).sweep r
          (p', (q, { val := m.nextS.setWidth 256 }) :: a)
        else (keep p).sweep r
      | none =>
        let (p', a) := p.sweep r
        (p', (q, { trap := some { cause := cACCESS, w4 := BitVec.ofNat 64 q.phaser } }) :: a)
    | .wait t =>
      match token t p.phase with
      | .stale =>
        let (p', a) := p.sweep r
        (p', (q, {}) :: a)
      | _ => (keep p).sweep r
    | _ => p.sweep r

/-- Completes phases while they are complete, answering what waits. -/
def Phaser.settle : Nat → Phaser → Phaser × List (PhReq × Resp)
  | 0, p => (p, [])
  | n + 1, p =>
    if p.complete then
      let (p1, a) := { p with phase := p.phase + 1, regs := p.regs.map (PhMember.passed · p.phase), queue := [] }.sweep p.queue
      let (p2, b) := p1.settle n
      (p2, a ++ b)
    else (p, [])

/-- One request at the sync engine: the phaser after it and the answers that it brings. -/
def Phaser.serve (p : Phaser) (q : PhReq) : Phaser × List (PhReq × Resp) :=
  let refuse := (p, [(q, ({ trap := some { cause := cACCESS, w4 := BitVec.ofNat 64 q.phaser } } : Resp))])
  let fuel := p.queue.length + 4
  match q.op, p.find q.member with
  | .reg _, some _ => refuse
  | .reg mode, none =>
    let start := if mode = 1 then p.phase else if p.regs.any (·.signals) then p.phase + 1 else p.phase
    ({ p with regs := p.regs ++ [{ member := q.member, mode := mode, start := start, nextS := start }] },
      [(q, { val := start.setWidth 256 })])
  | .drop, some _ =>
    let (p', a) := Phaser.settle fuel { p with regs := p.regs.filter fun r => r.member != q.member }
    (p', (q, {}) :: a)
  | .drop, none => refuse
  | .sig, some m =>
    if !m.signals then refuse
    else if p.maySignal m then
      let (p', a) := Phaser.settle fuel (p.count q.member)
      (p', (q, { val := m.nextS.setWidth 256 }) :: a)
    else ({ p with queue := p.queue ++ [q] }, [])
  | .sig, none => refuse
  | .wait t, some m =>
    if !m.waits then refuse
    else match token t p.phase with
      | .wait => ({ p with queue := p.queue ++ [q] }, [])
      | .future => (p, [(q, { trap := some { cause := cPHASE, w4 := t.setWidth 64, w5 := p.phase.setWidth 64 } })])
      | .stale => (p, [(q, { pred := false })])
  | .wait _, none => refuse
  | .next, _ => (p, [(q, { val := p.phase.setWidth 256 })])

def ph8 (i : Nat) : Fin 8 := ⟨i % 8, by omega⟩

/-- The sync engine of mast m answers on VC2; an answer that a completed phase brings is a release (R150). -/
def State.phAnswer (s : State) (m : Nat) (own : Option PhReq) (x : PhReq × Resp) : State :=
  s.sendTo (8400 + m) x.1.site 2 0 (.resp x.1.ctx x.1.id { x.2 with release := own != some x.1 && x.2.trap.isNone })

/-- PHASER_REQUEST (R206): the sync engine of mast m serves its oldest request. -/
def execPhaserRequest (m : Nat) (s : State) : Result :=
  if 4 ≤ m then .next s
  else
    match mapGetD s.phq m [] with
    | [] => .next s
    | q :: rest =>
      let s := { s with phq := mapPut s.phq m rest }
      match mapGet? s.launches q.launch with
      | none => .next s
      | some la =>
        let (p', a) := (la.phasers[ph8 q.phaser]).serve q
        let s := { s with launches := mapPut s.launches q.launch { la with phasers := la.phasers.set (ph8 q.phaser) p' } }
        .next (a.foldl (fun (s : State) x => s.phAnswer m (some q) x) s)

/-- Sends a phaser request on VC2; the context waits for the engine's answer. A site without a group has no phaser: ACCESS (DESIGN CHOICE,
log 97). -/
def phaserOp (i : Instr) (s : State) (a : Fin 32) (op : Ctx → PhOp) (dest : Dest) : Result :=
  issue i s fun s =>
    let x := s.ctx.sreg a
    match s.me.krn.launch with
    | none => s.raise { cause := cACCESS, w4 := x }
    | some l =>
      if 7 < x.toNat then s.raise { cause := cACCESS, w4 := x }
      else
        let r : PhReq := { op := op s.ctx, launch := l, phaser := x.toNat, member := s.me.krn.member, site := s.cur.1,
                           ctx := s.cur.2.val, id := s.ctx.reqid }
        let m := (s.membersOf s.cur.1).headD 0 / 2048
        (s.sendTo s.cur.1 (8400 + m) 2 0 (.phaser r)).await dest 4 none

def execPhreg (d a m : Fin 32) (s : State) : Result := phaserOp (.phreg d a m) s a (fun _ => .reg m.val) (.s d)
def execPhdrop (a : Fin 32) (s : State) : Result := phaserOp (.phdrop a) s a (fun _ => .drop) .none
def execPhsig (d a : Fin 32) (s : State) : Result := phaserOp (.phsig d a) s a (fun _ => .sig) (.s d)
def execPhwait (d a b : Fin 32) (s : State) : Result :=
  phaserOp (.phwait d a b) s a (fun c => .wait ((c.sreg b).setWidth 16)) (.p d)
def execPhnext (d a : Fin 32) (s : State) : Result := phaserOp (.phnext d a) s a (fun _ => .next) (.s d)

/-! Versioned words. -/

/-- The checks of R210 and R213 on a versioned address: its place, or a trap. -/
def State.verCheck (s : State) (x : Word) : Sum Trap (Bool × Word × Nat) :=
  match verAddr x with
  | none => .inl { cause := cACCESS, w3 := x }
  | some (win, a, v) =>
    let m := winMember a
    if win && decide ((s.membersOf s.cur.1).length ≤ m) then .inl { cause := cACCESS, w3 := a, w4 := BitVec.ofNat 64 m }
    else if a.toNat % (8 * v) ≠ 0 then .inl { cause := cALIGN, w3 := a }
    else match (if win then s.wcheck s.cur.1 a (8 * v) else checkLocal a (8 * v)) with
      | some t => .inl t
      | none => .inr (win, a, v)

def execVst (d a b : Fin 32) (s : State) : Result :=
  issue (.vst d a b) s fun s =>
    match s.verCheck (s.ctx.sreg a) with
    | .inl t => s.raise t
    | .inr (win, x, v) =>
      let op : FarOp := .vst ((s.ctx.sreg d).setWidth 16) ((s.ctx.sreg b).setWidth 32) v
      if s.commitHolds then s.stall
      else if win then s.toOwner op x 0 .none 4 true else s.toCa op x .none 4

def execVld (d a b : Fin 32) (s : State) : Result :=
  issue (.vld d a b) s fun s =>
    match s.verCheck (s.ctx.sreg a) with
    | .inl t => s.raise t
    | .inr (win, x, v) =>
      let op : FarOp := .vld ((s.ctx.sreg b).setWidth 16) v
      if win then s.toOwner op x 0 (.s d) 4 false else s.toCa op x (.s d) 4

/-- VRECL is posted. -/
def execVrecl (a b : Fin 32) (s : State) : Result :=
  issue (.vrecl a b) s fun s =>
    match s.verCheck (s.ctx.sreg a) with
    | .inl t => s.raise t
    | .inr (win, x, v) =>
      let op : FarOp := .vrecl ((s.ctx.sreg b).setWidth 16) v
      if win then s.postFar op x 0 4
      else
        let r : FarReq := { op := op, addr := x.toNat, site := s.cur.1, ctx := s.cur.2.val, id := s.ctx.reqid }
        let s := s.modCore s.cur.1 fun k => { k with caq := k.caq ++ [r] }
        s.done 4 { s.ctx.post with posted := s.ctx.posted + 1 }

/-- VLD_RESEND: a returned VLD is sent again after 64 cycles (R213). -/
def execVldResend (t c : Nat) (s : State) : Result :=
  atCtx t c s fun c s =>
    let y := s.ctxAt t c
    match y.st, y.wait, s.pending t c with
    | .stalled, .retry since, some (.vld _ _ _) =>
      if s.cycle - since < 64 then s else s.setCtxAt t c { y with st := .running, wait := .none, pfx := none }
    | _, _, _ => s

/-! FENCE (R214): a posted request keeps a fence whose scope lists it waiting. -/

def execFence (d : Fin 32) (s : State) : Result :=
  issue (.fence d) s fun s =>
    let c := s.ctx
    let waits := (1 ≤ d.val && c.posted != 0) || (2 ≤ d.val && !c.unacked.isEmpty)
    if waits then s.stall else s.done 4 (if 3 ≤ d.val then { c with slices := 0 } else c)

end Sys2Proof.Machine
end

