-- ==== Sys2Proof/Machine/Vector.lean ====
section
/-! DEFINITION. Vector instructions (R118 to R136). A lane is a number below 2^w; results go to the destination under the mask of
R55, and flags are those of the lanes that have an enabled byte (R119). -/

namespace Sys2Proof.Machine

/-- A lane has at least one enabled byte (R119). -/
def laneOn (c : Ctx) (w j : Nat) : Bool := (List.range (w / 8)).any fun k => c.enabled (j * (w / 8) + k)

/-- The flags of the lanes that compute. -/
def laneFlags (n : Nat) (on : Nat → Bool) (f : Nat → FRes) : BitVec 5 :=
  (List.range n).foldl (fun acc j => if on j then acc ||| (f j).2 else acc) 0

/-- A lane-wise instruction: lane j of vd becomes f j. -/
def lanewise (i : Instr) (s : State) (d : Fin 32) (w : Nat) (f : Ctx → Nat → FRes) : Result :=
  issueLanes i s fun s =>
    let c := s.ctx
    let n := 256 / w
    s.done i.size ((c.setVm d (mkLanes w n fun j => (f c j).1)).orFlags (laneFlags n (laneOn c w) (f c)))

/-- A reduction, permutation or pack: sources in full, flags of the full computation (R119). -/
def whole (i : Instr) (s : State) (d : Fin 32) (f : Ctx → VWord × BitVec 5) : Result :=
  issueLanes i s fun s => s.done i.size ((s.ctx.setVm d (f s.ctx).1).orFlags (f s.ctx).2)

/-- An integer lane as signed or unsigned by its type. -/
def laneInt (t : Fin 16) (x : Nat) : Int := if isSigned t then sext x (laneBits t) else x

/-- The six operations of R122 on one lane; c is the old lane of vd. -/
inductive VOp where
  | add | sub | mul | fma | min | max
  deriving DecidableEq, Repr

def vopLane (op : VOp) (r : Fin 4) (t : Fin 16) (a b c : Nat) : FRes :=
  let w := laneBits t
  if isFloat t then
    let p := fmtP t
    let rm := rmOf r
    match op with
    | .add => fadd p rm a b
    | .sub => fsub p rm a b
    | .mul => fmul p rm a b
    | .fma => ffma p rm a b c
    | .min => fmin p a b
    | .max => fmax p a b
  else
    (match op with
      | .add => trunc (a + b) w
      | .sub => trunc ((a : Int) - b) w
      | .mul => trunc (a * b) w
      | .fma => trunc (a * b + c) w
      | .min => if laneInt t b < laneInt t a then b else a
      | .max => if laneInt t a < laneInt t b then b else a, 0)

def vop (i : Instr) (op : VOp) (r : Fin 4) (d a b : Fin 32) (t : Fin 16) (s : State) : Result :=
  let w := laneBits t
  lanewise i s d w fun c j => vopLane op r t (lane (c.vreg a) w j) (lane (c.vreg b) w j) (lane (c.vreg d) w j)

def execVadd (r : Fin 4) (d a b : Fin 32) (t : Fin 16) (s : State) : Result := vop (.vadd r d a b t) .add r d a b t s
def execVsub (r : Fin 4) (d a b : Fin 32) (t : Fin 16) (s : State) : Result := vop (.vsub r d a b t) .sub r d a b t s
def execVmul (r : Fin 4) (d a b : Fin 32) (t : Fin 16) (s : State) : Result := vop (.vmul r d a b t) .mul r d a b t s
def execVfma (r : Fin 4) (d a b : Fin 32) (t : Fin 16) (s : State) : Result := vop (.vfma r d a b t) .fma r d a b t s
def execVmin (r : Fin 4) (d a b : Fin 32) (t : Fin 16) (s : State) : Result := vop (.vmin r d a b t) .min r d a b t s
def execVmax (r : Fin 4) (d a b : Fin 32) (t : Fin 16) (s : State) : Result := vop (.vmax r d a b t) .max r d a b t s

/-- VABS and VNEG (R123). -/
def absLane (t : Fin 16) (x : Nat) : Nat :=
  let w := laneBits t
  if isFloat t then x % 2 ^ (w - 1) else trunc ((sext x w).natAbs : Int) w

def negLane (t : Fin 16) (x : Nat) : Nat :=
  let w := laneBits t
  if isFloat t then (x + 2 ^ (w - 1)) % 2 ^ w else trunc (-(x : Int)) w

def execVabs (d a : Fin 32) (t : Fin 16) (s : State) : Result :=
  lanewise (.vabs d a t) s d (laneBits t) fun c j => (absLane t (lane (c.vreg a) (laneBits t) j), 0)
def execVneg (d a : Fin 32) (t : Fin 16) (s : State) : Result :=
  lanewise (.vneg d a t) s d (laneBits t) fun c j => (negLane t (lane (c.vreg a) (laneBits t) j), 0)

/-- Logic on all 256 bits and shifts by the lane amount mod w (R124). -/
def execVand (d a b : Fin 32) (s : State) : Result := whole (.vand d a b) s d fun c => (c.vreg a &&& c.vreg b, 0)
def execVor (d a b : Fin 32) (s : State) : Result := whole (.vor d a b) s d fun c => (c.vreg a ||| c.vreg b, 0)
def execVxor (d a b : Fin 32) (s : State) : Result := whole (.vxor d a b) s d fun c => (c.vreg a ^^^ c.vreg b, 0)

def vshift (i : Instr) (d a b : Fin 32) (t : Fin 16) (s : State) (f : Nat → Nat → Nat) : Result :=
  let w := laneBits t
  lanewise i s d w fun c j => (f (lane (c.vreg a) w j) (lane (c.vreg b) w j % w), 0)

def execVshl (d a b : Fin 32) (t : Fin 16) (s : State) : Result :=
  vshift (.vshl d a b t) d a b t s fun x n => x * 2 ^ n % 2 ^ laneBits t
def execVshr (d a b : Fin 32) (t : Fin 16) (s : State) : Result :=
  vshift (.vshr d a b t) d a b t s fun x n => x / 2 ^ n
def execVsha (d a b : Fin 32) (t : Fin 16) (s : State) : Result :=
  vshift (.vsha d a b t) d a b t s fun x n => trunc (sext x (laneBits t) / 2 ^ n) (laneBits t)

/-! Compares and selection (R125, R126): executed in full or not at all under a prefix. -/

def cmpLane (kind : Nat) (t : Fin 16) (a b : Nat) : Bool × BitVec 5 :=
  if isFloat t then fcmp (fmtP t) kind a b
  else
    let x := laneInt t a
    let y := laneInt t b
    (match kind with
      | 0 => x == y
      | 1 => decide (x < y)
      | _ => decide (x ≤ y), 0)

/-- Predicate bits from lanes: all w/8 bits of a lane alike. -/
def laneMask (w : Nat) (f : Nat → Bool) : BitVec 32 :=
  BitVec.ofNat 32 (ofLanes (w / 8) (fun j => if f j then 2 ^ (w / 8) - 1 else 0) (256 / w))

def vcmp (i : Instr) (kind : Nat) (d a b : Fin 32) (t : Fin 16) (s : State) : Result :=
  simple i s fun c =>
    let w := laneBits t
    let f := fun j => cmpLane kind t (lane (c.vreg a) w j) (lane (c.vreg b) w j)
    (c.setP d (laneMask w fun j => (f j).1)).orFlags (laneFlags (256 / w) (fun _ => true) fun j => (0, (f j).2))

def execVcmpeq (r : Fin 4) (d a b : Fin 32) (t : Fin 16) (s : State) : Result := vcmp (.vcmpeq r d a b t) 0 d a b t s
def execVcmplt (r : Fin 4) (d a b : Fin 32) (t : Fin 16) (s : State) : Result := vcmp (.vcmplt r d a b t) 1 d a b t s
def execVcmple (r : Fin 4) (d a b : Fin 32) (t : Fin 16) (s : State) : Result := vcmp (.vcmple r d a b t) 2 d a b t s

def execVsel (d a b : Fin 32) (p : Fin 8) (s : State) : Result :=
  whole (.vsel d a b p) s d fun c => (mergeBytes ((c.pval p).getLsbD ·) (c.vreg b) (c.vreg a), 0)

/-! Lane movement (R127). -/

def execVbcast (d a : Fin 32) (t : Fin 16) (s : State) : Result :=
  whole (.vbcast d a t) s d fun c => (mkLanes (laneBits t) (256 / laneBits t) fun _ => (c.sreg a).toNat, 0)

def execVext (d a n : Fin 32) (t : Fin 16) (s : State) : Result :=
  wrS (.vext d a n t) s d fun c => word (laneInt t (lane (c.vreg a) (laneBits t) n.val))

def execVperm (d a b : Fin 32) (t : Fin 16) (s : State) : Result :=
  let w := laneBits t
  let e := 256 / w
  whole (.vperm d a b t) s d fun c => (mkLanes w e fun j => lane (c.vreg a) w (lane (c.vreg b) w j % e), 0)

def execVshuf (d a b : Fin 32) (t : Fin 16) (s : State) : Result :=
  let w := laneBits t
  let e := 256 / w
  whole (.vshuf d a b t) s d fun c =>
    (mkLanes w e fun j =>
      let k := lane (c.vreg d) w j % (2 * e)
      if k < e then lane (c.vreg a) w k else lane (c.vreg b) w (k - e), 0)

/-! Reductions (R128). -/

/-- One level of the pairwise tree. -/
def pairUp (f : Nat → Nat → FRes) : List FRes → List FRes
  | x :: y :: r => ((f x.1 y.1).1, x.2 ||| y.2 ||| (f x.1 y.1).2) :: pairUp f r
  | l => l

/-- n levels. -/
def treeFold (f : Nat → Nat → FRes) : Nat → List FRes → List FRes
  | 0, l => l
  | n + 1, l => treeFold f n (pairUp f l)

def reduceF (f : Nat → Nat → FRes) (l : List Nat) : FRes :=
  ((treeFold f 5 (l.map fun x => (x, 0))).head?).getD (0, 0)

/-- kind 0 ADD, 1 MAX, 2 MIN. -/
def vredVal (kind : Nat) (r : Fin 4) (t : Fin 16) (v : VWord) : VWord × BitVec 5 :=
  let w := laneBits t
  let ls := (List.range (256 / w)).map (lane v w)
  if isFloat t then
    let p := fmtP t
    let (x, f) := reduceF (match kind with
      | 0 => fadd p (rmOf r)
      | 1 => fmax p
      | _ => fmin p) ls
    (BitVec.ofNat 256 x, f)
  else
    let xs := ls.map (laneInt t)
    let x := match kind with
      | 0 => xs.foldl (· + ·) 0
      | 1 => xs.tail.foldl max (xs.headD 0)
      | _ => xs.tail.foldl min (xs.headD 0)
    (BitVec.ofNat 256 (trunc x 64), 0)

def execVredAdd (r : Fin 4) (d a : Fin 32) (t : Fin 16) (s : State) : Result :=
  whole (.vredAdd r d a t) s d fun c => vredVal 0 r t (c.vreg a)
def execVredMax (r : Fin 4) (d a : Fin 32) (t : Fin 16) (s : State) : Result :=
  whole (.vredMax r d a t) s d fun c => vredVal 1 r t (c.vreg a)
def execVredMin (r : Fin 4) (d a : Fin 32) (t : Fin 16) (s : State) : Result :=
  whole (.vredMin r d a t) s d fun c => vredVal 2 r t (c.vreg a)

/-! Conversions (R129 to R132). -/

/-- Range of an integer type. -/
def intLo (t : Fin 16) : Int := if isSigned t then -(2 ^ (laneBits t - 1)) else 0
def intHi (t : Fin 16) : Int := if isSigned t then 2 ^ (laneBits t - 1) - 1 else 2 ^ laneBits t - 1

/-- An integer saturated to a type, with IV if it clamps. -/
def satLane (t : Fin 16) (x : Int) : FRes :=
  (trunc (sat x (intLo t) (intHi t)) (laneBits t), if x < intLo t ∨ intHi t < x then fIV else 0)

/-- VCVT from type st to type t. -/
def cvtLane (r : Fin 4) (st t : Fin 16) (x : Nat) : FRes :=
  let rm := rmOf r
  if isFloat t then ofIntF (fmtP t) rm (laneInt st x)
  else if isFloat st then
    let (y, f) := toIntF (fmtP st) rm (intLo t) (intHi t) x
    (trunc y (laneBits t), f)
  else if t = tDP then dptEnc .rne (if st = tDP then dpt8val x else laneInt st x) 0
  else satLane t (dpt8val x)

def execVcvt (r : Fin 4) (d a : Fin 32) (st t : Fin 16) (s : State) : Result :=
  lanewise (.vcvt r d a st t) s d (laneBits t) fun c j => cvtLane r st t (lane (c.vreg a) (laneBits t) j)

/-- VPACK: element from twice the width. -/
def packLane (r : Fin 4) (t : Fin 16) (x : Nat) : FRes :=
  if t = tBF then
    let v := unpack 24 x
    let (y, f) := pack 8 (rmOf r) v
    (y, f ||| sigFlag v)
  else if t = tDP then dptOfF 8 (rmOf r) x
  else satLane t (sext x (2 * laneBits t))

def execVpack (r : Fin 4) (d a b : Fin 32) (t : Fin 16) (s : State) : Result :=
  let w := laneBits t
  let h := 128 / w
  whole (.vpack r d a b t) s d fun c =>
    let f := fun j => packLane r t (if j < h then lane (c.vreg a) (2 * w) j else lane (c.vreg b) (2 * w) (j - h))
    (mkLanes w (2 * h) fun j => (f j).1, laneFlags (2 * h) (fun _ => true) f)

/-- VUNPK: element from half the width. -/
def unpkLane (t : Fin 16) (x : Nat) : FRes :=
  if t = tF32 then
    match unpack 8 x with
    | .nan g => (qnan 24, if g then fIV else 0)
    | _ => (x * 65536, 0)
  else if t = tBF then ofIntF 8 .rne (dpt8val x)
  else (if isSigned t then trunc (sext x (laneBits t / 2)) (laneBits t) else x, 0)

/-- VUNPK (R132): lane-wise under a prefix (DEDUCED, log 87). -/
def execVunpk (d a h : Fin 32) (t : Fin 16) (s : State) : Result :=
  let w := laneBits t
  lanewise (.vunpk d a h t) s d w fun c j => unpkLane t (lane (c.vreg a) (w / 2) (h.val * (256 / w) + j))

/-! Dot products and block scales (R133 to R135). -/

/-- Σ of four products of lanes 4j to 4j + 3. -/
def dot4 (f g : Nat → Int) (j : Nat) : Int :=
  f (4 * j) * g (4 * j) + f (4 * j + 1) * g (4 * j + 1) + f (4 * j + 2) * g (4 * j + 2) + f (4 * j + 3) * g (4 * j + 3)

/-- VDOT; a prefixed one computes the enabled lanes of its destination, and raises their flags only, as a lane-wise instruction does:
R119 does not name it (DEDUCED, log 87). -/
def execVdot (r : Fin 4) (d a b : Fin 32) (t : Fin 16) (s : State) : Result :=
  let w := if t = tI16 then 64 else 32
  lanewise (.vdot r d a b t) s d w fun c j =>
    let x := c.vreg a
    let y := c.vreg b
    let old := lane (c.vreg d) w j
    if t = tBF then
      fdot2 (rmOf r) (lane x 16 (2 * j)) (lane y 16 (2 * j)) (lane x 16 (2 * j + 1)) (lane y 16 (2 * j + 1)) old
    else
      let u := laneBits t
      let f := fun k => if t = tDP then dpt8val (lane x 8 k) else laneInt t (lane x u k)
      let g := fun k => if t = tDP then sext (lane y 8 k) 8 else laneInt t (lane y u k)
      (trunc (old + dot4 f g j) w, 0)

def execVscale (r : Fin 4) (d a b : Fin 32) (t : Fin 16) (s : State) : Result :=
  let w := laneBits t
  lanewise (.vscale r d a b t) s d w fun c j => fscale (fmtP t) (rmOf r) (lane (c.vreg a) w j) (lane (c.vreg b) 8 j)

def maxExp (t : Fin 16) (v : VWord) : Nat :=
  let w := laneBits t
  ((List.range (256 / w)).map fun j => bits (lane v w j) (fmtP t - 1) 8).foldl max 0

def execVmaxexp (d a : Fin 32) (t : Fin 16) (s : State) : Result :=
  whole (.vmaxexp d a t) s d fun c => (mkLanes 8 32 fun _ => maxExp t (c.vreg a), 0)

/-! Approximations (R136). -/

def approx (i : Instr) (d a : Fin 32) (t : Fin 16) (s : State) (f : Nat → Nat → FRes) : Result :=
  lanewise i s d (laneBits t) fun c j => f (fmtP t) (lane (c.vreg a) (laneBits t) j)

def execVrcp (d a : Fin 32) (t : Fin 16) (s : State) : Result := approx (.vrcp d a t) d a t s frcp
def execVrsq (d a : Fin 32) (t : Fin 16) (s : State) : Result := approx (.vrsq d a t) d a t s frsq
def execVexp2 (d a : Fin 32) (t : Fin 16) (s : State) : Result := approx (.vexp2 d a t) d a t s fexp2

end Sys2Proof.Machine
end

