-- ==== Sys2Proof/Machine/Matrix.lean ====
section
/-! DEFINITION. Link engines (R216 to R231, R107 to R112) and the matrix instructions (R232 to R248). -/

namespace Sys2Proof.Machine

/-! The configuration word (R218, R219). -/

def cfgRmem (w : Word) : Nat := bits w.toNat 36 13
def cfgK (w : Word) : Nat := bits w.toNat 20 16
def cfgRsem (w : Word) : Nat := bits w.toNat 16 4
def cfgRbank (w : Word) : Nat := bits w.toNat 12 4
def cfgMode (w : Word) : Nat := bits w.toNat 10 2
def cfgP (w : Word) : Nat := 8 * 2 ^ bits w.toNat 8 2
def cfgTr (w : Word) : Nat := bits w.toNat 4 4
def cfgTl (w : Word) : Nat := bits w.toNat 0 4

def isIntFmt (t : Nat) : Bool := t = 0 || t = 10
def isBsFmt (t : Nat) : Bool := t = 11 || t = 12
def isBfFmt (t : Nat) : Bool := t = 8

def cfgInt (w : Word) : Bool := isIntFmt (cfgTl w) && isIntFmt (cfgTr w)
def cfgBs (w : Word) : Bool := isBsFmt (cfgTl w) && isBsFmt (cfgTr w)
def cfgBf (w : Word) : Bool := isBfFmt (cfgTl w) && isBfFmt (cfgTr w)

/-- Validity of a word (R219), with the versions of the two ends' kernels (R236). -/
def cfgValid (w : Word) (verL verR : Nat) : Bool :=
  bits w.toNat 49 15 == 0 && cfgK w != 0 &&
    ((cfgInt w && decide (cfgMode w ≤ 1)) ||
     (cfgBf w && (cfgMode w == 0 || cfgMode w == 2)) ||
     (cfgBs w && (cfgMode w == 0 || cfgMode w == 2) && bits w.toNat 8 2 == 2 && decide (3 ≤ verL) && decide (3 ≤ verR)))

def Beat.isScale : Beat → Bool
  | .scale _ => true
  | _ => false

/-! Walking a skip list (R225, R238, R240). -/

/-- The next kept index, with the addresses of the entries that the walk reads for it, and the end after it. -/
def EngEnd.next (m : List Host.Cell) : Nat → EngEnd → Nat × List Nat × EngEnd
  | 0, e => (e.nextk, [], { e with nextk := e.nextk + 1 })
  | fuel + 1, e =>
    if e.list.count ≤ e.entry then (e.nextk, [], { e with nextk := e.nextk + 1 })
    else
      let a := e.list.addr.toNat + 2 * e.entry
      let x := memRead m a 2
      if e.keep < x / 256 then (e.nextk, [a], { e with keep := e.keep + 1, nextk := e.nextk + 1 })
      else
        let r := EngEnd.next m fuel { e with entry := e.entry + 1, keep := 0, nextk := e.nextk + x % 256 }
        (r.1, a :: r.2.1, r.2.2)

def EngEnd.step (m : List Host.Cell) (e : EngEnd) : Nat × List Nat × EngEnd := e.next m (e.list.count + 1)

/-- The walk over n kept indices. -/
def EngEnd.walkN (m : List Host.Cell) : Nat → EngEnd → EngEnd
  | 0, e => e
  | n + 1, e => (e.step m).2.2.walkN m n

/-- The configuration word of an end, also while its MXCFG is on its way to the engine (R234). -/
def EngEnd.config (e : EngEnd) : Option Word :=
  e.cfg.orElse fun _ => e.cmds.findSome? fun c => match c.2 with
    | .cfg w _ => some w
    | _ => none

/-- Indices that one data beat takes: two of an 8-bit format, one of BF16 (R240). A beat that is pushed before any MXCFG counts as one of
an 8-bit format (DESIGN CHOICE, log 104). -/
def EngEnd.perBeat (e : EngEnd) : Nat := match e.config with
  | some w => if isBfFmt (cfgTl w) then 1 else 2
  | none => 2

/-- Entries of the list that number the beat pushed next. -/
def EngEnd.entriesFor (m : List Host.Cell) (e : EngEnd) : List Nat :=
  let before := ((e.fifo.map fun b => match b with
    | .data _ => e.perBeat
    | _ => 0)).sum
  let e0 := e.walkN m before
  let r1 := e0.step m
  r1.2.1 ++ (if e.perBeat = 2 then (r1.2.2.step m).2.1 else [])

/-! Engines of a tile. -/

/-- A tile's ACTIVE launch. -/
def State.activeLaunch (s : State) (t : Nat) : Option Nat :=
  match s.launchOf t with
  | some l => if l.st == .running && !l.draining then (s.site t).krn.launch else none
  | none => none

/-- The end on port p of the running tile: engine number and side. -/
def State.myEnd (s : State) (p : Fin 4) : Nat × Bool := (portEngine s.cur.1 p.val, portLeft p.val)

def State.holdsEnd (s : State) (p : Fin 4) : Bool :=
  match portTile s.cur.1 p.val with
  | none => false
  | some _ =>
    let (e, l) := s.myEnd p
    let y := (s.engine e).fin l
    let me := some (s.cur.1, s.cur.2.val)
    (y.held == me && !y.orphan) || y.claim == me

def portWord (p : Fin 4) : Word := BitVec.ofNat 64 p.val

/-- MXOPEN (R222, R235): the end is claimed at issue, and held when the MXOPEN reaches the engine (R250). A tile that has been migrated opens
no engine (R216), and none is opened toward such a tile, which stands no longer beside the link (DEDUCED, log 98). -/
def execMxopen (p : Fin 4) (s : State) : Result :=
  issue (.mxopen p) s fun s =>
    let t := s.cur.1
    let access := s.raise { cause := cACCESS, w4 := portWord p }
    match portTile t p.val with
    | none => access
    | some u =>
      if !isTile t then access
      else
        let (e, left) := s.myEnd p
        let x := s.engine e
        let y := x.fin left
        let rank := portRank t p.val
        let rw : Word := BitVec.ofNat 64 rank
        if y.held.isSome || y.claim.isSome then s.raise { cause := cRANK, w4 := rw, w5 := rw }
        else if rank < s.ctx.floor then s.raise { cause := cRANK, w4 := rw, w5 := BitVec.ofNat 64 s.ctx.floor }
        else if (s.activeLaunch t).isNone || s.activeLaunch u != s.activeLaunch t || s.me.migrated || (s.site u).migrated then access
        else
          let f := { freshEnd none s.ctx.k[p] s.me.krn.ver with claim := some (t, s.cur.2.val), cmds := [(s.cycle + 2, .opens)] }
          let s := s.setEngine e (x.setFin left f)
          let st : StreamStat := { rank := rank, st := .halfOpen }
          s.done 4 { s.ctx with floor := rank, status := s.ctx.status.set p st }

/-- endcheck of R233: a dropped command, a trap, or the held end. -/
inductive EndCk where
  | dropped | trap | held
  deriving DecidableEq, Repr

def State.endcheck (s : State) (p : Fin 4) : EndCk :=
  if s.ctx.status[p].st.broken then .dropped else if s.holdsEnd p then .held else .trap

def noEnd (s : State) (p : Fin 4) : State := s.raise { cause := cACCESS, w4 := portWord p, w5 := 1 }

/-- A push that meets a broken stream (R221). -/
def Ctx.dropPush (c : Ctx) (p : Fin 4) : Ctx :=
  { c with status := c.status.set p { c.status[p] with dropped := min 255 (c.status[p].dropped + 1) }, pushed := 0 }

/-- A command of the running context's end on port p is on its way to the engine (R250). -/
def State.sendCmd (s : State) (p : Fin 4) (c : EngCmd) : State :=
  let (e, left) := s.myEnd p
  let x := s.engine e
  let y := x.fin left
  s.setEngine e (x.setFin left { y with cmds := y.cmds ++ [(s.cycle + 2, c)] })

/-- MXCFG (R236): the mask is captured at issue. -/
def execMxcfg (d : Fin 32) (p : Fin 4) (s : State) : Result :=
  issue (.mxcfg d p) s fun s =>
    match s.endcheck p with
    | .dropped => s.done 4 s.ctx
    | .trap => noEnd s p
    | .held =>
      let c := s.ctx
      (s.sendCmd p (.cfg (c.sreg d) (if (s.myEnd p).2 then c.mrow else c.mcol))).done 4 c

/-- Pushes one beat, or tells that the FIFO is full, or traps on a bad list entry: its address. -/
inductive PushRes where
  | ok (s : State)
  | full
  | ecc (a : Nat)

def State.pushBeat (s : State) (p : Fin 4) (b : Beat) : PushRes :=
  let (e, left) := s.myEnd p
  let x := s.engine e
  let y := x.fin left
  if 8 ≤ y.fifo.length then .full
  else
    match (if b.isScale then [] else y.entriesFor s.me.mem).find? fun a => (s.me.badIn a 2).isSome with
    | some a => .ecc a
    | none => .ok (s.setEngine e (x.setFin left { y with fifo := y.fifo ++ [b] }))

/-- The operand FIFO of the end on port p is full. -/
def State.fifoFull (s : State) (p : Fin 4) : Bool :=
  let (e, left) := s.myEnd p
  decide (8 ≤ ((s.engine e).fin left).fifo.length)

/-- MXPUSH and MXSCL. -/
def pushOne (s : State) (p : Fin 4) (b : Ctx → Beat) : State :=
  match s.endcheck p with
  | .dropped => s.done 4 (s.ctx.dropPush p)
  | .trap => noEnd s p
  | .held =>
    match s.pushBeat p (b s.ctx) with
    | .ok t => t.done 4 t.ctx
    | .full => s.stall
    | .ecc a => s.raise (eccTrap s.cycle a)

/-- The end on port p walks a skip list. -/
def State.walksList (s : State) (p : Fin 4) : Bool :=
  let (e, left) := s.myEnd p
  ((s.engine e).fin left).list.count != 0

/-- MXPUSH. The entries of a skip list that number its beat are read after the context's earlier ca operations (R238, R284). -/
def execMxpush (a : Fin 32) (p : Fin 4) (s : State) : Result :=
  issue (.mxpush a p) s fun s =>
    let push := fun (s : State) => pushOne s p fun c => .data (c.vreg a)
    if s.endcheck p = .held && s.walksList p then s.afterCa push else push s

def execMxscl (a : Fin 32) (p : Fin 4) (s : State) : Result :=
  issue (.mxscl a p) s fun s => pushOne s p fun c => .scale (c.vreg a)

/-- Reads the next of n beats from a and pushes it, once the FIFO has room for it: one beat in a cycle, and the context stalls until the
last one is in the FIFO (R234, R239). `pushed` keeps how far the instruction is. -/
def pushNext (p : Fin 4) (a : Word) (n : Nat) (post : Ctx → Ctx) (s : State) : State :=
  let j := s.ctx.pushed
  let x := a + BitVec.ofNat 64 (32 * j)
  if s.fifoFull p then s.stall
  else
    match s.readTrap x 32 with
    | some t => s.raise t
    | none =>
      match s.pushBeat p (.data (BitVec.ofNat 256 (s.readl x 32))) with
      | .ok t => if n ≤ j + 1 then t.done 4 { (post t.ctx) with pushed := 0 } else (t.modCtx fun c => { c with pushed := j + 1 }).stall
      | .full => s.stall
      | .ecc a => s.raise (eccTrap s.cycle a)

/-- MXPUSHM (R239). Its beats are read after the context's earlier ca operations (R284). -/
def execMxpushm (a n : Fin 32) (p : Fin 4) (s : State) : Result :=
  issue (.mxpushm a n p) s fun s =>
    let k := n.val + 1
    let post := fun (c : Ctx) => c.setS a (c.sreg a + BitVec.ofNat 64 (32 * k))
    match s.endcheck p with
    | .dropped => s.done 4 (post (s.ctx.dropPush p))
    | .trap => noEnd s p
    | .held =>
      s.guard (checkLocal (s.ctx.sreg a) (32 * k)) fun s => s.afterCa fun s =>
        pushNext p (s.ctx.sreg a) k post s

/-- MXCLOSE (R242): it marks its end closed 2 cycles after it issues (R250), and waits. -/
def execMxclose (p : Fin 4) (s : State) : Result :=
  issue (.mxclose p) s fun s =>
    if !s.holdsEnd p then s.done 4 s.ctx
    else
      let (e, left) := s.myEnd p
      let x := s.engine e
      let y := x.fin left
      if x.st.broken && y.claim.isNone then
        let s := s.releaseEnd e left
        s.done 4 s.ctx
      else if y.closed || y.cmds.any (fun c => c.2 == .close) then s.stall
      else (s.sendCmd p .close).stall

/-- STATE of R221. -/
def StreamSt.code : StreamSt → Nat
  | .idle => 0
  | .halfOpen => 1
  | .streaming => 2
  | .closing => 3
  | .closed => 4
  | .config => 8
  | .skip => 9
  | .preempt => 10
  | .abort => 11
  | .length => 12

def StreamStat.word (x : StreamStat) : Word :=
  BitVec.ofNat 64 (x.rank * 2 ^ 48 + x.kdone * 2 ^ 32 + x.dropped * 2 ^ 24 + x.rcause.toNat * 2 ^ 16 +
    b2n x.recvfault * 2 ^ 10 + b2n x.parted * 2 ^ 9 + b2n x.ovf * 2 ^ 8 + x.st.code)

def execMxstat (d : Fin 32) (p : Fin 4) (s : State) : Result := wrS (.mxstat d p) s d fun c => c.status[p].word

/-- MSETM (R237). -/
def execMsetm (a : Fin 32) (s : State) : Result :=
  simple (.msetm a) s fun c => { c with mrow := (c.sreg a).setWidth 16, mcol := ((c.sreg a) >>> 16).setWidth 16 }

/-- SKLD (R238). -/
def execSkld (d a : Fin 32) (s : State) : Result :=
  issue (.skld d a) s fun s =>
    let x := s.ctx.sreg a
    if x.toNat % 4 ≠ 0 then s.raise { cause := cALIGN, w3 := x }
    else
      s.guard (s.readTrap x 4) fun s =>
        let h := (s.readl x 4)
        if 4096 ≤ h then s.raise { cause := cRANGE, w3 := x }
        else
          s.guard (if h = 0 then none else checkLocal (x + 4) (2 * h)) fun s =>
            s.done 4 { s.ctx with k := s.ctx.k.set (fin4 d.val) { addr := x + 4, count := h } }

/-! Accumulator banks (R245, R246). Cell (row, col) of bank b is number 256 b + 16 row + col. -/

def Core.cell (k : Core) (n : Nat) : BitVec 32 := mapGetD k.acc n 0
def Core.setCell (k : Core) (n : Nat) (x : BitVec 32) : Core :=
  { k with acc := if x = 0 then mapErase k.acc n else mapPut k.acc n x }

/-- Words whose two cells are both written are repaired (R334). -/
def Core.repair (k : Core) (written : Nat → Bool) : Core :=
  { k with badAcc := k.badAcc.filter fun w => !(written (2 * w) && written (2 * w + 1)) }

def bankTrap (b r : Nat) : Option Trap :=
  if 7 < b then some { cause := cACC, w4 := BitVec.ofNat 64 b }
  else if 15 < r then some { cause := cACC, w4 := BitVec.ofNat 64 r }
  else none

def execAccz (d : Fin 32) (s : State) : Result :=
  issue (.accz d) s fun s =>
    s.guard (bankTrap d.val 0) fun s =>
      let s := s.modCore s.cur.1 fun k => { k with acc := k.acc.filter fun e => e.1 / 256 ≠ d.val, badAcc := k.badAcc.filter fun w => w / 128 ≠ d.val }
      s.done 4 s.ctx

/-- Eight cells from number n as a vector register. -/
def Core.cells8 (k : Core) (n : Nat) : VWord := mkLanes 32 8 fun j => (k.cell (n + j)).toNat

def nextReg (v : Fin 32) : Fin 32 := v + 1

def execAccrd (v k r : Fin 32) (s : State) : Result :=
  issueLanes (.accrd v k r) s fun s =>
    s.guard (bankTrap k.val r.val) fun s =>
      let n := 256 * k.val + 16 * r.val
      let c := s.me.core
      s.done 4 ((s.ctx.setVm v (c.cells8 n)).setVm (nextReg v) (c.cells8 (n + 8)))

/-- ACCWR writes the bytes whose source byte is enabled. -/
def execAccwr (k v r : Fin 32) (s : State) : Result :=
  issueLanes (.accwr k v r) s fun s =>
    s.guard (bankTrap k.val r.val) fun s =>
      let n := 256 * k.val + 16 * r.val
      let c := s.ctx
      let put := fun (co : Core) (m : Nat) (x : VWord) =>
        let y := mergeBytes c.enabled (co.cells8 m) x
        (List.range 8).foldl (fun co j => co.setCell (m + j) (BitVec.ofNat 32 (lane y 32 j))) co
      let whole := fun (q : Nat) => decide (n ≤ q) && decide (q < n + 16) && (List.range 4).all fun j => c.enabled (4 * ((q - n) % 8) + j)
      let s := s.modCore s.cur.1 fun co => (put (put co n (c.vreg v)) (n + 8) (c.vreg (nextReg v))).repair whole
      s.done 4 s.ctx

/-- ACCCVT on cell x to type t. -/
def acccvtLane (t : Fin 16) (x : BitVec 32) : FRes :=
  if t = tBF then packLane 0 tBF x.toNat
  else if t = tDP then dptEnc .rne x.toInt 0
  else satLane t x.toInt

def execAcccvt (v k r : Fin 32) (t : Fin 16) (s : State) : Result :=
  issueLanes (.acccvt v k r t) s fun s =>
    s.guard (bankTrap k.val r.val) fun s =>
      let n := 256 * k.val + 16 * r.val
      let w := laneBits t
      let c := s.ctx
      let f := fun j => acccvtLane t (s.me.core.cell (n + j))
      s.done 4 ((c.setVm v (mkLanes w 16 fun j => (f j).1)).orFlags (laneFlags 16 (laneOn c w) f))

/-! Engine arithmetic (R107 to R112). -/

def clamp20 (x : Int) : Int := sat x (-(2 ^ 19 - 1)) (2 ^ 19 - 1)

/-- Value of an 8-bit element. -/
def elemVal (t : Nat) (b : Nat) : Int := if t = 10 || t = 12 then dpt8val b else sext b 8

/-- Element i of one k-step of an end: its half of the beat, zero where masked (R224). -/
def kElem (w : VWord) (up : Bool) (mask : BitVec 16) (i : Nat) : Nat :=
  if mask.getLsbD i then lane w 8 (i + (if up then 16 else 0)) else 0

def kElem16 (w : VWord) (mask : BitVec 16) (i : Nat) : Nat := if mask.getLsbD i then lane w 16 i else 0

def fillInner (l : List Int) : List Int := if l.isEmpty then List.replicate 256 0 else l
def fillOuter (l : List (BitVec 32)) : List (BitVec 32) := if l.isEmpty then List.replicate 256 0 else l

/-- inner · 2^(sA + sB − 254) added to an FP32 cell (R110). -/
def bsOuter (outer : BitVec 32) (inner : Int) (sa sb : Nat) : BitVec 32 :=
  if sa = 255 || sb = 255 || isNan (unpack 24 outer.toNat) then BitVec.ofNat 32 (qnan 24)
  else
    let v := (faddX .rne (unpack 24 outer.toNat) (FVal.ofInt inner ((sa : Int) + sb - 254) false)).1
    BitVec.ofNat 32 (pack 24 .rne v).1

/-- Promotion at the close of block or interval j (R108 to R110). -/
def Engine.promote (x : Engine) (w : Word) (j : Nat) : Engine :=
  if cfgBf w then x
  else
    let inn := fillInner x.inner
    let out := fillOuter x.outer
    let sl := (x.left.scales[j]?).getD 0
    let sr := (x.right.scales[j]?).getD 0
    let cells := (List.range 256).zip (inn.zip out)
    let res := cells.map fun (n, i, o) =>
      if cfgBs w then (n, bsOuter o i (lane sl 8 (n / 16)) (lane sr 8 (n % 16)), false)
      else
        let y := o.toInt + i
        let z := sat y (-2 ^ 31) (2 ^ 31 - 1)
        (n, BitVec.ofInt 32 z, z != y)
    let hit := res.filter fun r => r.2.2 || x.clamped.contains r.1
    { x with inner := List.replicate 256 0, outer := res.map fun r => r.2.1, clamped := [], ovfs := x.ovfs + hit.length,
             anyOvf := x.anyOvf || !hit.isEmpty }

/-- Promotion points p · (i + 1) with lo < p · (i + 1) ≤ hi, in order. -/
def points (p lo hi : Nat) : List Nat := ((List.range (hi / p)).filter fun i => decide (lo < p * (i + 1)))

/-- Counts the skipped k-steps up to k, with the promotions at their points. -/
def Engine.skipTo (x : Engine) (w : Word) (k : Nat) : Engine :=
  { (points (cfgP w) x.k k).foldl (fun x i => x.promote w i) x with k := k }

/-- Adds the products of one k-step. -/
def Engine.products (x : Engine) (w : Word) (l r : VWord) (upL upR : Bool) : Engine :=
  let ml := x.left.mask
  let mr := x.right.mask
  if cfgBf w then
    let out := (List.range 256).zip (fillOuter x.outer)
    { x with outer := out.map fun (n, o) =>
        let p := (fmulX (unpack 8 (kElem16 l ml (n / 16))) (unpack 8 (kElem16 r mr (n % 16)))).1
        BitVec.ofNat 32 (pack 24 .rne (faddX .rne p (unpack 24 o.toNat)).1).1 }
  else
    let inn := (List.range 256).zip (fillInner x.inner)
    let res := inn.map fun (n, i) =>
      let y := i + elemVal (cfgTl w) (kElem l upL ml (n / 16)) * elemVal (cfgTr w) (kElem r upR mr (n % 16))
      (n, y)
    let hit := (res.filter fun q => clamp20 q.2 != q.2).map (·.1)
    { x with inner := res.map fun q => clamp20 q.2, clamped := hit.foldl setAdd x.clamped }

/-! A stream's progress. -/

def nBlocks (w : Word) : Nat := (cfgK w + 31) / 32

/-- The engine takes up the scale beats at the front, also behind a half beat (R217, R241). -/
def absorb : Nat → EngEnd → EngEnd
  | 0, e => e
  | n + 1, e =>
    match e.fifo with
    | .scale w :: r => absorb n { e with fifo := r, scales := e.scales ++ [w] }
    | .upper u k :: .scale w :: r => absorb n { e with fifo := .upper u k :: r, scales := e.scales ++ [w] }
    | _ => e

/-- What an end offers next: its word, half, logical index and the end after it; none when its FIFO is empty. -/
def EngEnd.offer (m : List Host.Cell) (w : Word) (e : EngEnd) : Option (VWord × Bool × Nat × EngEnd) :=
  match e.fifo with
  | .data x :: r =>
    let (k0, _, e1) := e.step m
    if cfgBf w then some (x, false, k0, { e1 with fifo := r })
    else
      let (k1, _, e2) := e1.step m
      some (x, false, k0, if k1 < cfgK w then { e2 with fifo := .upper x k1 :: r } else { e2 with fifo := r })
  | .upper x k :: r => some (x, true, k, { e with fifo := r })
  | _ => none

/-- The end still owes a kept k-step below K. -/
def EngEnd.owes (m : List Host.Cell) (w : Word) (e : EngEnd) : Bool := (e.step m).1 < cfgK w

/-- Outcome of looking at a stream; `missing`: both ends have closed, and the scale beat of the block from k on is missing. -/
inductive Look where
  | idle
  | broken (st : StreamSt)
  | missing (k : Nat)
  | consume (w : VWord × VWord) (up : Bool × Bool) (k : Nat) (l r : EngEnd)
  | finish

/-- The engine after it has taken up the scale beats that stand first at its ends. -/
def Engine.absorbed (x : Engine) : Engine :=
  { x with left := absorb (x.left.fifo.length + 1) x.left, right := absorb (x.right.fifo.length + 1) x.right }

/-- What an engine that has taken up its scale beats does next with a configured stream; ml and mr are the scratchpads of the two
tiles (DEDUCED, log 36). The upper half of a beat whose block has no scale beat yet waits for it, whatever stands behind it in the FIFO,
until both ends have closed (DESIGN CHOICE, log 104). -/
def Engine.look (x : Engine) (w : Word) (ml mr : List Host.Cell) : Look :=
  let l := x.left
  let r := x.right
  let k := cfgK w
  if !cfgBs w && (!l.scales.isEmpty || !r.scales.isEmpty) then .broken .config
  else if nBlocks w < l.scales.length || nBlocks w < r.scales.length then .broken .length
  else
    let late := fun (e : EngEnd) (o : Option (VWord × Bool × Nat × EngEnd)) => match o with
      | some (_, up, i, _) => (!up && decide (k ≤ i)) || (!up && cfgBs w && decide (e.scales.length < i / 32 + 1))
      | none => false
    let waits := fun (e : EngEnd) (o : Option (VWord × Bool × Nat × EngEnd)) => match o with
      | some (_, _, i, _) => cfgBs w && decide (e.scales.length < i / 32 + 1)
      | none => false
    let ol := l.offer ml w
    let or' := r.offer mr w
    if late l ol || late r or' then .broken .length
    else
      let dry := fun (e : EngEnd) (m : List Host.Cell) (o : Option (VWord × Bool × Nat × EngEnd)) =>
        o.isNone && e.closed && e.owes m w
      if dry l ml ol || dry r mr or' then .broken .length
      else
        match ol, or' with
        | some (xl, ul, kl, l'), some (xr, ur, kr, r') =>
          if kl % 256 ≠ kr % 256 then .broken .skip
          else if waits l ol || waits r or' then (if l.closed && r.closed then .broken .length else .idle)
          else .consume (xl, xr) (ul, ur) kl l' r'
        | some _, none => if r.closed then .broken .skip else .idle
        | none, some _ => if l.closed then .broken .skip else .idle
        | none, none =>
          if !l.closed || !r.closed then .idle
          else if cfgBs w && (l.scales.length < nBlocks w || r.scales.length < nBlocks w) then
            .missing (32 * min l.scales.length r.scales.length)
          else .finish

/-- Cells, flags and address of a delivery. -/
def Engine.delivery (x : Engine) (e : Nat) (w : Word) (parted : Bool) : Nat × Delivery :=
  (cfgRmem w, { engine := e, bank := cfgRbank w, sem := cfgRsem w, mode := cfgMode w, mrow := x.left.mask, mcol := x.right.mask,
                cells := fillOuter x.outer, parted := parted, ovf := x.anyOvf, kdone := x.kdone })

/-- The overflow count goes to the held increments of an end's activation (R244). -/
def State.creditOvf (s : State) (e : Nat) (left : Bool) (n : Nat) : State :=
  let y := (s.engine e).fin left
  match y.held with
  | some (t, c) => if y.orphan then s else s.modCtxAt t (fin4 c) fun x => { x with heldOvf := x.heldOvf + n }
  | none => s

/-- Both ends' statuses move with the stream (R221). -/
def State.tellProgress (s : State) (e : Nat) : State :=
  let x := s.engine e
  s.tellEnds e fun y => { y with kdone := x.kdone, ovf := x.overflowed }

/-- K_STEP_CONSUME (R217, R220): after what reaches the engine in this cycle (R250), a configured stream starts; else the engine takes
up scale beats and consumes the next k-step, breaks the stream, or ends it with its final promotion. -/
def execKStepConsume (e : Nat) (s : State) : Result :=
  if 15872 ≤ e then .next s
  else
    let s := s.engineArrivals s.cycle e
    let x := s.engine e
    match x.left.cfg, x.right.cfg with
    | some wl, some wr =>
      if x.st = .halfOpen then
        let scaled := (x.left.fifo ++ x.right.fifo).any Beat.isScale
        if wl != wr || !cfgValid wl x.left.ver x.right.ver || (scaled && !cfgBs wl) then .next (s.breakStream e .config)
        else
          let st := if x.left.closed || x.right.closed then .closing else .streaming
          .next ((s.setEngine e { x with st := st }).tellEnds e fun y => { y with st := st })
      else if (x.st = .streaming || x.st = .closing) && x.pending.isNone && x.parting.isNone then
        let x := x.absorbed
        match x.look wl (s.site (engLeft e)).mem (s.site (engRight e)).mem with
        | .idle => .next (s.setEngine e x)
        | .broken st => .next ((s.setEngine e x).breakStream e st)
        | .missing k =>
          let x := { x.skipTo wl k with kdone := max x.kdone k }
          .next ((s.setEngine e x).breakStream e .length)
        | .consume w up k l r =>
          let x := { (x.skipTo wl k) with left := l, right := r }
          let x := { ((x.products wl w.1 w.2 up.1 up.2).skipTo wl (k + 1)) with kdone := k + 1 }
          .next ((s.setEngine e x).tellProgress e)
        | .finish =>
          let kk := cfgK wl
          let x := x.skipTo wl kk
          let x := if kk % cfgP wl = 0 then x else x.promote wl (kk / cfgP wl)
          let x := { x with kdone := kk }
          let s := (s.setEngine e { x with pending := some (x.delivery e wl false) }).tellProgress e
          .next (s.creditOvf e true x.ovfs)
      else .next s
    | _, _ => .next s

/-! Deliveries (R226 to R228). -/

/-- The stream ends CLOSED: both ends are told and released. -/
def State.closeStream (s : State) (e : Nat) (rcause : BitVec 8) : State :=
  let x := s.engine e
  let f := fun (y : StreamStat) =>
    { y with st := .closed, kdone := x.kdone, ovf := x.overflowed, recvfault := rcause != 0, rcause := rcause }
  (s.tellEnds e f).setEngine e {}

/-- The remote record of R228. -/
def remoteRecord (bank rank cycle : Nat) : Rec :=
  [BitVec.ofNat 64 (30 * 2 ^ 16 + 2 ^ 15 + 7 * 2 ^ 8 + 0x0E), 0, 0, 0, BitVec.ofNat 64 bank, BitVec.ofNat 64 rank, 0,
   BitVec.ofNat 64 cycle]

/-- The receiver check of R228: the cause, if the result is discarded, and the state with the receiver told. -/
def State.recvCheck (s : State) (e m : Nat) (d : Delivery) : BitVec 8 × Option Nat × State :=
  let left := engLeft e
  match s.memberTile left m with
  | none => (cACCESS, none, s)
  | some u =>
    if s.isOff u then (cGATED, none, s)
    else if 7 < d.bank then (cACC, none, s.sendTo left u 1 2 (.remote (remoteRecord d.bank (engRank e) s.cycle) left))
    else (0, some u, s)

/-- A delivery leaves under a fresh number, from the west or north end's router (R226). -/
def State.sendDelivery (s : State) (e u : Nat) (d : Delivery) : State :=
  ({ s with fresh := s.fresh + 1 } : State).sendTo (engLeft e) u 1 32 (.delivery { d with num := s.fresh })

/-- DELIVERY_SEND: the result of a finished stream is sent, or discarded by the receiver check. -/
def execDeliverySend (e : Nat) (s : State) : Result :=
  if 15872 ≤ e then .next s
  else
    let x := s.engine e
    match x.pending with
    | none => .next s
    | some (m, d) =>
      if x.sent then .next s
      else
        match s.recvCheck e m d with
        | (_, some u, s) => .next ((s.setEngine e { x with sent := true, num := s.fresh }).sendDelivery e u d)
        | (cause, none, s) => .next (s.closeStream e cause)

/-- One cell of a delivery (R226). -/
def deliverCell (mode : Nat) (old new : BitVec 32) : BitVec 32 :=
  match mode with
  | 1 => old + new
  | 2 => BitVec.ofNat 32 (fadd 24 .rne old.toNat new.toNat).1
  | _ => new

/-- The masks of a delivery let cell n of the bank through (R226). -/
def Delivery.on (d : Delivery) (n : Nat) : Bool := d.mrow.getLsbD (n / 16) && d.mcol.getLsbD (n % 16)

/-- Cells of a delivery's next beat (R226): beats 2i and 2i + 1 carry row i. -/
def Delivery.row (d : Delivery) : List Nat := ((List.range 8).map fun j => 8 * d.beat + j).filter d.on

/-- The next beat of a delivery at the receiver's bank. -/
def Core.deliver (k : Core) (d : Delivery) : Core :=
  let k := d.row.foldl (fun k n =>
    let a := 256 * d.bank + n
    k.setCell a (deliverCell d.mode (k.cell a) ((d.cells[n]?).getD 0))) k
  if d.mode = 1 || d.mode = 2 then k else k.repair fun q => q / 256 == d.bank && d.row.contains (q % 256)

/-- An uncorrectable bank word that the next beat of an accumulating delivery reads (R332). -/
def Core.deliverBad (k : Core) (d : Delivery) : Option Nat :=
  if d.mode = 1 || d.mode = 2 then k.badAcc.find? fun w => d.row.any fun n => (256 * d.bank + n) / 2 == w else none

/-- DELIVERY_APPLY (R226, R227): the next beat of the oldest delivery is written; after the last its semaphore is raised unless it is
PARTIAL, and it is acknowledged. A beat added to an uncorrectable word leaves it so and makes an error record; R333 names no one to
tell (DESIGN CHOICE, log 100). -/
def execDeliveryApply (t : Nat) (s : State) : Result :=
  atSite t s fun s =>
    match (s.site t).rxDel with
    | [] => s
    | p :: rest =>
      match p.load with
      | .delivery d =>
        let s := match (s.site t).core.deliverBad d with
          | some w => s.errRecord t 3 w
          | none => s
        let s := s.modCore t fun k => k.deliver d
        if d.beat < 31 then s.modSite t fun x => { x with rxDel := { p with load := .delivery { d with beat := d.beat + 1 } } :: rest }
        else
          let s := s.modSite t fun x => { x with rxDel := rest }
          let s := s.modCore t fun k => if d.parted then k.wake else k.wake.semAdd ⟨d.sem % 16, by omega⟩ 1
          s.sendTo t p.src 1 0 (.delAck d.engine d.num)
      | _ => s.modSite t fun x => { x with rxDel := rest }

/-- The number of the delivery of engine e that a packet acknowledges. -/
def delAckFor (e : Nat) (p : Pkt) : Option Nat := match p.load with
  | .delAck n num => if n = e then some num else none
  | _ => none

/-- A pre-empted stream breaks, with the receiver's answer to its PARTIAL delivery; the quiescing end is released (R229, R251). -/
def State.endPreempt (s : State) (e : Nat) (left : Bool) (cause : BitVec 8) : State :=
  let s := s.tellEnds e fun y => { y with parted := true, recvfault := cause != 0, rcause := cause }
  (s.breakStream e .preempt).releaseEnd e left

/-- The delivery of engine e with number num is acknowledged, or refused with a cause. -/
def State.delivered (s : State) (e num : Nat) (cause : BitVec 8) : State :=
  let x := s.engine e
  if x.num ≠ num then s
  else if x.sent then s.closeStream e cause
  else match x.parting with
    | some left => s.endPreempt e left cause
    | none => s

/-- DELIVERY_ACK: the acknowledgement ends the stream that sent the delivery, and the pre-emption that waits for it (R251). -/
def execDeliveryAck (e : Nat) (s : State) : Result :=
  if 15872 ≤ e then .next s
  else
    let t := engLeft e
    match (s.site t).rxResp.findSome? (delAckFor e) with
    | some num =>
      .next ((s.modSite t fun x => { x with rxResp := x.rxResp.eraseP fun p => (delAckFor e p).isSome }).delivered e num 0)
    | none => .next s

/-! Pre-emption (R229). -/

/-- The stream at an end whose context quiesces; an end of a broken stream is held on (R220). Of any other, consumption stops and the
beats left are discarded; the cells are flushed PARTIAL, and the stream breaks and the quiescing end is released once the receiver has
acknowledged them, or at once when nothing is sent (R251). -/
def State.preempt (s : State) (e : Nat) (left : Bool) : State :=
  let x := s.engine e
  if x.st.broken || x.parting.isSome then s
  else
    match x.left.cfg, x.kdone with
    | some w, k + 1 =>
      let x1 := if (k + 1) % cfgP w = 0 then x else x.promote w (k / cfgP w)
      let (m, d) := x1.delivery e w true
      let s := (s.setEngine e x1).creditOvf e (!left) x1.ovfs
      let (cause, to', s) := s.recvCheck e m d
      match to' with
      | some u =>
        let y := s.engine e
        (s.setEngine e { y with left := { y.left with fifo := [] }, right := { y.right with fifo := [] }, parting := some left,
                                num := s.fresh }).sendDelivery e u d
      | none => s.endPreempt e left cause
    | _, _ => (s.breakStream e .preempt).releaseEnd e left

end Sys2Proof.Machine
end

