-- ==== Sys2Proof/Machine/Ballast.lean ====
section
/-! DEFINITION. The ballast shadow (R317 to R324, R370), PFENCE, PSTAT, PGATE (R327 to R329), the quiesce point (R145), gates
(R325, R326, R330, R331), and the halt-hold buffer's deliveries (R299, R369). -/

namespace Sys2Proof

/-- An instruction that hands over its context's outbox (R180) (DEDUCED, log 61). -/
def Instr.readsOutbox : Instr → Bool
  | .retire | .retireWord | .retireS _ => true
  | _ => false

end Sys2Proof

namespace Sys2Proof.Machine

/-! Contexts at rest. -/

/-- A context restored from its record: a STALLED one executes its instruction again (R138, R145); one that waits in a WFI, or at a BRK
for its halt, keeps the prefix of that instruction. -/
def Ctx.restored (y : Ctx) : Ctx :=
  let y := { y with st := y.rest, pfx := if y.rest = .dormant || y.atBrk then y.pfx else none }
  if y.st = .stalled then { y with st := .running, wait := .none, pushed := 0 } else y

/-- The phaser requests of a context that its engine has not counted or answered are withdrawn (R209). -/
def State.withdraw (s : State) (t : Nat) (c : Option Nat) : State :=
  let mine := fun (q : PhReq) => q.site == t && (c.map fun n => q.ctx == n).getD true
  { s with launches := s.launches.map fun (e : Nat × Launch) =>
      (e.1, { e.2 with phasers := vmap (fun p => { p with queue := p.queue.filter fun q => !mine q }) e.2.phasers }) }

/-- A request of context c waits in a phaser's queue. -/
def State.parkedPh (s : State) (t c id : Nat) : Bool :=
  s.launches.any fun e => e.2.phasers.toList.any fun p => p.queue.any fun q => q.site == t && q.ctx == c && q.id == id

/-! Commits. -/

/-- Bytes of the instruction at which context c of site t stands, with its prefix. -/
def State.pairSize (s : State) (t : Nat) (c : Fin 4) : Nat :=
  let x := s.site t
  match x.instrAt (x.core.ctxs[c]).pc.toNat with
  | some (.pfx _ _) => 6
  | _ => 4

/-- A context whose instruction is i waits in the RETIRE of a PERSIST channel that the next commit ends (R180, R324). -/
def Ctx.retiring (y : Ctx) (i : Option Instr) : Bool := y.persisted.isSome && (i.map Instr.readsOutbox).getD false

/-- What a commit captures of a context whose instruction, of n bytes, is i (R319): as it will stand after a PFENCE.T or after the
RETIRE of a PERSIST channel that this commit ends; before its instruction when it waits in one; else between instructions. -/
def Ctx.captured (y : Ctx) (i : Option Instr) (n : Nat) : Ctx :=
  let z := { y with st := y.rest }
  if y.retiring i then z.ended
  else match y.persisted, i with
    | some _, some .pfenceT => { z.advance n with persisted := none }
    | _, _ => { z.restored with persisted := none }

/-- The engines' progress as a commit records it: pieces not acknowledged are to be done again (R370). -/
def CpCmd.captured (c : CpCmd) : CpCmd :=
  { c with pieces := c.pieces.map fun p => if p.st = .acked then p else { src := p.src, dst := p.dst, len := p.len } }

/-- The state of a member at its group's phasers: phaser and registration (R317). -/
def Launch.memberPh (la : Launch) (m : Nat) : List (Nat × PhMember) :=
  (List.range 8).filterMap fun i => ((la.phasers[ph8 i]).find m).map fun r => (i, r)

/-- Member m of launch la has these registrations, and no others; phases that this completes are answered for (R208). -/
def Launch.withPh (la : Launch) (m : Nat) (l : List (Nat × PhMember)) : Launch × List (PhReq × Resp) :=
  let one := fun (i : Fin 8) =>
    let p := la.phasers[i]
    let mine := (l.filter fun e => e.1 == i.val).map (·.2)
    Phaser.settle (p.queue.length + 4) { p with regs := (p.regs.filter fun r => r.member != m) ++ mine }
  ({ la with phasers := Vector.ofFn fun i => (one i).1 }, (List.finRange 8).flatMap fun i => (one i).2)

/-- The registrations of the member at tile t become l. -/
def State.setPh (s : State) (t : Nat) (l : List (Nat × PhMember)) : State :=
  let x := s.site t
  match x.krn.launch with
  | none => s
  | some n =>
    match mapGet? s.launches n with
    | none => s
    | some la =>
      let (la', a) := la.withPh x.krn.member l
      a.foldl (fun (s : State) e => s.phAnswer (la.members.headD 0 / 2048) none e) { s with launches := mapPut s.launches n la' }

/-- A core in which the RETIRE of context c, which this commit ends, has taken effect (R244, R319); its activation is the last to have
retired (R177). -/
def Core.retireNow (k : Core) (c : Fin 4) : Core := { (k.addOvf k.ctxs[c].heldOvf).handOver c with lastCtx := c }

/-- The ports on which context c of tile t holds or claims an end: a resume shows their streams broken (R322). -/
def State.holdsPort (s : State) (t : Nat) (c : Fin 4) (p : Fin 4) : Bool :=
  match portTile t p.val with
  | none => false
  | some _ =>
    let y := (s.engine (portEngine t p.val)).fin (portLeft p.val)
    (y.held == some (t, c.val) && !y.orphan) || y.claim == some (t, c.val)

/-- The status of a context as a resume from this commit shows it: every end that it holds now reads BROKEN.ABORT (R322). -/
def State.lostStatus (s : State) (t : Nat) (c : Fin 4) (y : Ctx) : Ctx :=
  { y with status := Vector.ofFn fun p => if s.holdsPort t c p then { y.status[p] with st := .abort } else y.status[p] }

/-- The state block of site t (R317). Of two RETIREs that the same commit ends, that of the higher context counts as the last one
(DESIGN CHOICE, log 108). -/
def State.capture (s : State) (t : Nat) : Core :=
  let k := (s.site t).core
  let k := ((List.finRange 4).filter fun c => k.ctxs[c].retiring (s.pending t c)).foldl Core.retireNow k
  { k with ctxs := Vector.ofFn fun c => s.lostStatus t c (k.ctxs[c].captured (s.pending t c) (s.pairSize t c)),
           ph := ((s.launchOf t).map fun la => la.memberPh (s.site t).krn.member).getD [],
           waiters := [], copies := k.copies.map CpCmd.captured,
           caq := k.caq.filter FarReq.isOwnPost, parked := k.parked.filter fun r => r.ni }

/-- The committed copy of line l: its slot with the largest SEQ not newer than n (R318, R322). -/
def slotFor (a b : Option LineSlot) (n : Nat) : Option LineSlot :=
  let ok := fun (x : Option LineSlot) => x.filter fun y => y.ok && decide (y.seq ≤ n)
  match ok a, ok b with
  | some x, some y => if x.seq < y.seq then some y else some x
  | some x, none => some x
  | none, y => y

/-- Slot A holds the latest committed copy of line l, so B is its uncommitted slot. -/
def Ballast.inA (b : Ballast) (l : Nat) : Bool :=
  let x := mapGet? b.slotA l
  x.isSome && slotFor x (mapGet? b.slotB l) b.last == x

/-- Writes line l into its uncommitted slot, tagged n. -/
def Ballast.putLine (b : Ballast) (l n : Nat) (data : List Byte) : Ballast :=
  let x : LineSlot := { seq := n, data := data, ok := true }
  if b.inA l then { b with slotB := mapPut b.slotB l x } else { b with slotA := mapPut b.slotA l x }

/-- The first bad word of line l. -/
def Site.badLine (x : Site) (l : Nat) : Option Nat := x.badIn (256 * l) 256

/-- An error that a commit or a trickle meets: the record, and a rollback whatever the policy (R333, R335). -/
def State.condemn (s : State) (t : Nat) (e : Nat × Nat) : State := (s.errRecord t e.1 e.2).modSite t fun x => { x with rollback := true }

/-- TRICKLE (R318): the lowest dirty line goes to its uncommitted slot and is clean. A bad line writes no slot, and the tile
is rolled back (R333). -/
def execTrickle (t : Nat) (s : State) : Result :=
  atSite t s fun s =>
    let x := s.site t
    match x.ballast.st, x.ballast.dirty with
    | .writing _ _ _ _, _ => s
    | _, [] => s
    | _, l :: rest =>
      if x.rollback then s
      else
        match x.badLine l with
        | some w => s.condemn t (0, w)
        | none =>
          let b := x.ballast.putLine l (x.ballast.last + 1) (memBytes x.mem (256 * l) 256)
          s.modSite t fun x => { x with ballast := { b with dirty := rest } }

/-- An instruction that keeps the commit cycle off while a context waits in it (R319). -/
def holdsCommit (i : Instr) : Bool :=
  match i with
  | .aadd .. | .aand .. | .aor .. | .axor .. | .amin .. | .amax .. | .aminu .. | .amaxu .. | .aswap .. | .acas .. => true
  | .xaddf .. | .vst .. | .rpush .. | .rpop .. | .xclr .. => true
  | _ => false

def State.commitBlocked (s : State) (t : Nat) : Bool :=
  (List.finRange 4).any fun c => (match (s.ctxAt t c).st, (s.ctxAt t c).wait with
    | .stalled, .resp _ _ _ _ => true
    | .halted, .resp _ _ _ _ => true
    | _, _ => false) && ((s.pending t c).map holdsCommit).getD false

/-- The commit cycle of site t: the state block goes to slot n mod 2 and every dirty line to its uncommitted slot, as they stand
now (DESIGN CHOICE, log 41). -/
def State.commitNow (s : State) (t : Nat) : State :=
  let x := s.site t
  let b := x.ballast
  let n := b.last + 1
  let b1 := b.dirty.foldl (fun b l => b.putLine l n (memBytes x.mem (256 * l) 256)) b
  let blk : Block := { seq := n, core := s.capture t, ok := true }
  let b2 := if n % 2 = 0 then { b1 with blkA := some blk } else { b1 with blkB := some blk }
  s.modSite t fun x =>
    { x with ballast := { b2 with st := .writing n s.cycle b.dirty.length b.journal.length, dirty := [] } }

/-- The uncorrectable words of a context: structure and address (R332). -/
def Ctx.badWords (y : Ctx) (c : Nat) : List (Nat × Nat) :=
  y.badS.map (fun i => (1, 32 * c + i)) ++ y.badV.map (fun w => (2, 128 * c + w)) ++ if y.outbox.any (·.bad) then [(6, c)] else []

/-- The uncorrectable words of the state block (R332). -/
def Core.badWords (k : Core) : List (Nat × Nat) :=
  (List.finRange 4).flatMap (fun c => k.ctxs[c].badWords c) ++ k.badAcc.map (fun w => (3, w)) ++ k.badQ.map (fun q => (4, qAddr q.1 q.2)) ++
    ((List.finRange 32).filter fun ch => k.chq[ch].any (·.bad)).map (fun ch => (5, ch.val)) ++
    k.pend.filterMap fun p => if p.msg.bad then some (6, p.ctx.getD 4) else none

/-- Nothing is left at the NI of tile t, on its way into or out of it. -/
def State.niIdle (s : State) (t : Nat) : Bool :=
  let x := s.site t
  x.svc.isEmpty && x.rxMsg.isEmpty && x.rxDel.isEmpty && x.rxPush.isEmpty && x.rxCtl.isEmpty && x.rxRec.isEmpty && x.rxPst.isEmpty &&
    x.rxResp.isEmpty && !(s.router t).entering (fun _ => true) t && (s.router t).inj.toList.all (fun q => q.isEmpty)

/-- The commit of a gate waits until what the tile has accepted is performed, so that the commit captures it (R325). -/
def State.commitEarly (s : State) (t : Nat) : Bool :=
  (s.site t).gate.st == .committing && !(s.niIdle t && (s.site t).core.caq.isEmpty)

/-- COMMIT (R319). A bad line or a bad word of the state block leaves the commit unwritten and the tile to its rollback (R333). -/
def execCommit (t : Nat) (s : State) : Result :=
  atSite t s fun s =>
    let x := s.site t
    match x.ballast.st with
    | .requested _ =>
      if s.commitBlocked t || s.commitEarly t || x.rollback then s
      else match x.core.badWords with
        | w :: _ => s.condemn t w
        | [] =>
          match x.ballast.dirty.findSome? x.badLine with
          | some w => s.condemn t (0, w)
          | none => s.commitNow t
    | _ => s

/-- Injected records that a captured pending message still needs (R324). -/
def Ballast.keepInjected (b : Ballast) (k : Core) : List (Nat × Nat) :=
  b.injected.filter fun r => k.pend.any fun p => p.msg.id.toNat == r.1 && p.msg.targets.contains r.2

/-- Answers the persist requests that commit n makes good (R327). -/
def State.answerAskers (s : State) (t n : Nat) : State :=
  let due := (s.site t).ballast.askers.filter fun a => decide (a.seq ≤ n)
  let s := s.modSite t fun x =>
    { x with ballast := { x.ballast with askers := x.ballast.askers.filter fun a => decide (n < a.seq) } }
  due.foldl (fun (s : State) a => s.sendTo t a.site 1 0 (.persisted a.ctx a.member a.num)) s

/-! Gates. -/

/-- Frozen and gate fields at the partner die tile (R331). -/
def State.tellPartner (s : State) (t : Nat) (frozen : Bool) (code : Nat) : State :=
  if isTile t then s.modSite (partnerOf t) fun x => { x with frozen := frozen, partner := code } else s

/-- Entries that the partner of t has in t's q6 or on their way to it (R158). -/
def Site.held6 (x : Site) : Nat := x.core.q6.items.length + x.vland.length

/-- FREE of the partner of t counts anew what t holds, with no credit under way (R158). -/
def Site.recount (x : Site) (held : Nat) : Site := { x with vcred := 0, core := { x.core with free := 8 - held } }

/-- A bond that the partner of t pushes into has come back: FROZEN is 0 and FREE counts what t holds (R158, R331). -/
def State.thaw (s : State) (t : Nat) : State :=
  if isTile t then
    s.modSite (partnerOf t) fun x => { (x.recount (s.site t).held6) with frozen := false, partner := 0 }
  else s

/-- What t holds in q6 has been replaced: FREE of its partner follows, unless it is FROZEN (R158, R331). -/
def State.refree (s : State) (t : Nat) : State :=
  if isTile t then s.modSite (partnerOf t) fun x => if x.frozen then x else x.recount (s.site t).held6 else s

/-- The launch of tile t has been aborted: its members stay at their quiesce points until it is released (R173, R184). -/
def State.drains (s : State) (t : Nat) : Bool := ((s.launchOf t).map fun l => l.st == .failed).getD false

/-- The contexts of a tile go on from their quiesce points; on a halted tile they are HALTED, and those of an aborted launch stay. -/
def State.release (s : State) (t : Nat) : State :=
  s.modSite t fun x =>
    let back := fun (y : Ctx) => if x.halted then y.restored.halt else y.restored
    if s.drains t then { x with newTile := false }
    else
      { x with quiesce := false, newTile := false,
               core := { x.core with ctxs := vmap (fun y => if y.st = .saved || y.st = .migrating then back y else y) x.core.ctxs } }

/-- Packets that R326 refuses when their tile is OFF. -/
def Load.refused : Load → Bool
  | .far _ | .delivery _ | .push _ _ _ _ _ _ _ | .msg _ _ | .cpWrite _ _ _ _ _ | .cpRead _ _ _ _ _ _ | .persist _ _ _ _ => true
  | _ => false

/-- The helm counts a message dropped for an OFF member (R326, R354) (DEDUCED, log 35). -/
def State.gateDrop (s : State) (tenant u : Nat) : State :=
  let s := match mapGet? s.tenants tenant with
    | some w => { s with tenants := mapPut s.tenants tenant { w with gateRec := w.gateRec + 1 } }
    | none => s
  s.errRing tenant 0x0F 2 u 0

/-- Beats of a PUSHT for q4 or q5 are not on their way any more (R155). -/
def Site.unowe (x : Site) (p : Pkt) : Site :=
  match p.load with
  | .push true sel _ beats _ _ _ =>
    let i : Fin 2 := ⟨sel % 2, by omega⟩
    { x with owed45 := x.owed45.set i (x.owed45[i] - beats.length) }
  | _ => x

/-- A held packet of the OFF tile t is refused (R326) (DEDUCED, log 38); a persist request of a PFENCE.G counts as answered (R327). -/
def State.refuse (s : State) (t : Nat) (p : Pkt) : State :=
  match p.load with
  | .far r =>
    let m : Word := BitVec.ofNat 64 (s.site t).krn.member
    let tr : Trap := { cause := cGATED, w3 := (s.site t).reportAddr r, w4 := m }
    if r.op.posted then s.sendTo t r.site 1 0 (.ack r.ctx t r.id (some tr))
    else s.sendTo t r.site 1 0 (.resp r.ctx r.id { trap := some tr })
  | .delivery d => s.delivered d.engine d.num cGATED
  | .push _ _ _ _ site ctx id =>
    (s.modSite t fun x => x.unowe p).sendTo t site 1 0 (.resp ctx id { trap := some { cause := cGATED, w4 := BitVec.ofNat 64 t } })
  | .msg hdr _ =>
    let s := if isSite p.src then s.modSite p.src fun x => { x with released := x.released - 1 } else s
    let s := s.modSite t fun x => { x with krn := { x.krn with owed := x.krn.owed && !fromLaunchUnit hdr } }
    s.gateDrop (s.site t).krn.tenant t
  | .cpWrite site cmd piece _ _ => s.sendTo t site 1 0 (.cpAck cmd piece cGATED)
  | .cpRead site cmd piece _ _ _ => s.sendTo t site p.vc 0 (.cpReply cmd piece [] cGATED)
  | .persist site ctx member num => s.sendTo t site 1 0 (.persisted ctx member num)
  | _ => s

/-- Everything held for t that R326 refuses. -/
def State.refuseAll (s : State) (t : Nat) : State :=
  let mine := s.holdBuf.filter fun h => h.2.dst == t && h.2.load.refused
  let s := { s with holdBuf := s.holdBuf.filter fun h => !(h.2.dst == t && h.2.load.refused) }
  let s := mine.foldl (fun (s : State) h => s.refuse t h.2) s
  let beats := (s.site t).rxPush
  beats.foldl (fun (s : State) p => s.refuse t p) (s.modSite t fun x => { x with rxPush := [] })

def State.setGate (s : State) (t : Nat) (f : Gate → Gate) : State := s.modSite t fun x => { x with gate := f x.gate }

/-- The state block forgets the member's phaser registrations. -/
def Block.unregistered (b : Block) : Block := { b with core := { b.core with ph := [] } }

/-- What an OFF gate does to the group (R204): the member's arrival lines are up from now on, and its phaser registrations are
dropped. -/
def State.leaveGroup (s : State) (t : Nat) : State :=
  let s := s.setPh t []
  let s := s.modSite t fun x =>
    { x with ballast := { x.ballast with blkA := x.ballast.blkA.map Block.unregistered, blkB := x.ballast.blkB.map Block.unregistered } }
  match (s.site t).krn.launch with
  | some n => { s with launches := s.launches.map fun (e : Nat × Launch) =>
      if e.1 = n then (e.1, { e.2 with raised := setAdd e.2.raised t }) else e }
  | none => s

/-- The gate stands at OFF. -/
def State.enterOff (s : State) (t : Nat) : State :=
  let s := s.setGate t fun g => { g with st := .off, sleepReq := false, offReq := false, cancel := false }
  (((s.leaveGroup t).mark t).tellPartner t true 2).refuseAll t

/-- The gate begins to quiesce. -/
def State.beginQuiesce (s : State) (t : Nat) : State :=
  s.modSite t fun x => { x with quiesce := true, gate := { x.gate with st := .quiescing } }

def State.beginWake (s : State) (t : Nat) : State := s.setGate t fun g => { g with st := .waking }

/-- The commit word of a gate's full commit is written: SLEEP or OFF, or back to ON for a cancelled SLEEP. FROZEN is 0 up to here
(R331), so the partner may still push after the quiesce point, at which q6 freezes (R156); such an entry stays in flight until the tile
is ON again (DESIGN CHOICE, log 71). -/
def State.gateCommitted (s : State) (t : Nat) : State :=
  let g := (s.site t).gate
  if g.offReq then s.enterOff t
  else if g.cancel then ((s.setGate t fun g => { g with st := .on, cancel := false, sleepReq := false }).release t).unmark t
  else (s.setGate t fun g => { g with st := .sleep, sleepReq := false }).tellPartner t true 1

/-- The new tile of a move runs (R42), unless a gate that was accepted meanwhile keeps its contexts at their quiesce points (R330). -/
def State.endMove (s : State) (t : Nat) : State :=
  if (s.site t).gate.st = .on then s.release t else s.modSite t fun x => { x with newTile := false }

/-- The commit word is written. -/
def State.commitWord (s : State) (t : Nat) : State :=
  let b := (s.site t).ballast
  match b.st with
  | .writing n cyc d jn =>
    let w : CommitWord := { seq := n, epoch := b.epoch, cycle := cyc, tile := t, lines := d, ok := true }
    let blk := if n % 2 = 0 then b.blkA else b.blkB
    let b1 := if n % 2 = 0 then { b with wordA := some w } else { b with wordB := some w }
    let b2 : Ballast :=
      { b1 with st := if b.merged then .requested s.cycle else .idle, merged := false, last := n, lastCyc := cyc,
                lastAt := s.cycle, journal := b.journal.drop jn,
                injected := (blk.map fun k => b.keepInjected k.core).getD [] }
    let s := (s.modSite t fun x => { x with ballast := b2 }).answerAskers t n
    if b.merged then s
    else
      let s := if (s.site t).newTile then (s.endMove t).thaw t else s
      if (s.site t).gate.st = .committing && !(s.site t).halted then s.gateCommitted t else s
  | .idle =>
    if (s.site t).gate.st = .committing && !(s.site t).halted && !(s.site t).newTile then s.askCommit t else s
  | _ => s

/-- COMMIT_COMPLETE (R319). A tile that was halted when its gate's commit word was written is not gated (R338): the gate commits again
after the resume. -/
def execCommitComplete (t : Nat) (s : State) : Result := atSite t s fun s => s.commitWord t

/-- A commit of the tile is being written. -/
def Ballast.writing (b : Ballast) : Bool := match b.st with
  | .writing _ _ _ _ => true
  | _ => false

/-- AUTO_COMMIT_INTERVAL (R321): units of 12,800 cycles since the last commit word, suspended while halted. -/
def execAutoCommitInterval (t : Nat) (s : State) : Result :=
  atSite t s fun s =>
    let x := s.site t
    let iv := mapGetD s.commitIv (tileDie t) 64
    if iv != 0 && !x.halted && x.krn.launch.isSome && !x.ballast.writing && decide (x.ballast.lastAt + 12800 * iv ≤ s.cycle) then
      s.askCommit t
    else s

/-- PERSIST_REQUEST (R327): the owner asks for a commit no earlier than the request's arrival. -/
def execPersistRequest (t : Nat) (s : State) : Result :=
  atNi t s fun s =>
    match (s.site t).rxPst with
    | [] => s
    | p :: rest =>
      let s := s.modSite t fun x => { x with rxPst := rest }
      match p.load with
      | .persist site ctx member num =>
        let a : Asker := { site := site, ctx := ctx, member := member, num := num, seq := (s.site t).ballast.nextSeq }
        let s := s.modSite t fun x => { x with ballast := { x.ballast with askers := x.ballast.askers ++ [a] } }
        s.askCommit t
      | _ => s

/-! PFENCE, PSTAT (R327, R328). -/

/-- The fence asks for a commit and waits for it. -/
def State.beginFence (s : State) : State :=
  let n := s.me.ballast.nextSeq
  ((s.askCommit s.cur.1).modCtx fun c => { c with persisted := some n }).stall

def execPfenceT (s : State) : Result :=
  issue .pfenceT s fun s =>
    match s.ctx.persisted with
    | none => s.beginFence
    | some n => if n ≤ s.me.ballast.last then s.done 4 { s.ctx with persisted := none } else s.stall

/-- A member of the running site's group that is not OFF. -/
def State.liveMember (s : State) (m : Nat) : Bool := ((s.memberTile s.cur.1 m).map fun u => !s.isOff u).getD false

def execPfenceG (s : State) : Result :=
  issue .pfenceG s fun s =>
    let c := s.ctx
    match c.persisted with
    | none =>
      let all := if c.ownAll then List.range (s.membersOf s.cur.1).length else c.owners
      let asked := all.filter s.liveMember
      let n := c.fenceId + 1
      let s := asked.foldl (fun (s : State) m => match s.memberTile s.cur.1 m with
        | some u => s.sendTo s.cur.1 u 0 0 (.persist s.cur.1 s.cur.2.val m n)
        | none => s) s
      (s.modCtx fun c => { c with owners := asked, ownAll := false, fenceId := n }).beginFence
    | some n =>
      if n ≤ s.me.ballast.last && !(c.owners.any s.liveMember) then
        s.done 4 { c with persisted := none, owners := [], ownAll := false }
      else s.stall

/-- PSTAT's word (R328). -/
def Ballast.status (b : Ballast) : Nat :=
  let (pend, busy) := match b.st with
    | .idle => (false, false)
    | .requested _ => (true, false)
    | .writing _ _ _ _ => (b.merged, true)
  b.last % 2 ^ 32 * 2 ^ 32 + b.dirty.length * 2 ^ 20 + min 255 b.resumes * 2 ^ 12 +
    b2n (decide (16384 < journalBytes b.journal)) * 4 + b2n pend * 2 + b2n busy

def execPstat (d : Fin 32) (s : State) : Result :=
  wrS (.pstat d) s d fun _ => BitVec.ofNat 64 s.me.ballast.status

/-! PGATE (R329). -/

def execPgate (a m : Fin 32) (s : State) : Result :=
  issuePriv (.pgate a m) s (m.val == 2) 0x13 fun s =>
    let x := s.ctx.sreg a
    match s.memberTile s.cur.1 x.toNat with
    | none => s.raise { cause := cACCESS, w4 := x }
    | some u =>
      if s.isOff u then s.raise { cause := cGATED, w4 := x }
      else (s.sendTo s.cur.1 u 0 0 (.gate m.val s.cur.1 s.cur.2.val s.ctx.reqid)).await .none 4 none

/-! The gate controller (R325, R330). -/

/-- A PGATE takes effect (DEDUCED, log 37). -/
def State.gateMode (s : State) (t mode : Nat) : State :=
  let g := (s.site t).gate
  match g.st with
  | .on => if mode = 1 then (s.setGate t fun g => { g with sleepReq := true }).beginQuiesce t else s
  | .quiescing | .committing =>
    if g.offReq then s
    else if mode = 1 then s.setGate t fun g => { g with sleepReq := true, cancel := false }
    else s.setGate t fun g => { g with sleepReq := false, cancel := true }
  | .sleep => if mode = 1 then s else s.beginWake t
  | .off => s
  | .waking => if mode = 1 then s.setGate t fun g => { g with sleepReq := true } else s

/-- The controller accepts a request: its PGATE completes in this cycle. -/
def State.gateAccept (s : State) (t : Nat) (q : GateReq) : State :=
  let s := s.gateMode t q.mode
  match q.src with
  | some (site, ctx, id) => s.respond site (fin4 ctx) id {}
  | none => s

/-- GATE_REQUEST_ACCEPT: the oldest request, in every gate state. -/
def execGateRequestAccept (t : Nat) (s : State) : Result :=
  atAny t s fun s =>
    match (s.site t).gate.reqs with
    | [] => s
    | q :: rest => (s.setGate t fun g => { g with reqs := rest }).gateAccept t q

/-- Requests that arrived earlier are accepted first. -/
def State.gateDrain (s : State) (t : Nat) : State :=
  let l := (s.site t).gate.reqs
  l.foldl (fun s q => s.gateAccept t q) (s.setGate t fun g => { g with reqs := [] })

/-- GATE_OFF: the helm gates a tile OFF; the group's NIs hold it OFF from now on (R185) (DEDUCED, log 59). At a tile that is ON it sets REQ
as PGATE SLEEP does, and at one that quiesces or commits it leaves REQ alone (R325); at a WAKING one it sets REQ with the pending request
(DESIGN CHOICE, log 115). -/
def execGateOff (t : Nat) (s : State) : Result :=
  if !isTile t then .next s
  else
    let s := s.gateDrain t
    .next (match (s.site t).gate.st with
      | .on => (s.setGate t fun g => { g with offReq := true, sleepReq := true }).beginQuiesce t
      | .quiescing | .committing => s.setGate t fun g => { g with offReq := true, cancel := false }
      | .sleep => s.enterOff t
      | .off => s
      | .waking => s.setGate t fun g => { g with offReq := true, sleepReq := true })

/-- GATE_ON: the helm turns an OFF tile ON; at a SLEEP or quiescing tile it acts as PGATE ON. -/
def execGateOn (t : Nat) (s : State) : Result :=
  if !isTile t then .next s
  else
    let s := s.gateDrain t
    .next (match (s.site t).gate.st with
      | .off => s.beginWake t
      | _ => s.gateMode t 0)

/-- SLEEP_WAKE: a packet for a SLEEP tile is held in H. -/
def execSleepWake (t : Nat) (s : State) : Result :=
  atAny t s fun s =>
    if (s.site t).gate.st = .sleep && s.holdBuf.any fun h => h.2.dst == t then s.beginWake t else s

/-! The quiesce point (R145). -/

/-- A stream of context c of tile t that is closed at both ends and not broken waits for its delivery (R220). -/
def State.closingAt (s : State) (t : Nat) (c : Fin 4) (p : Nat) : Bool :=
  match portTile t p with
  | none => false
  | some _ =>
    let x := s.engine (portEngine t p)
    (x.fin (portLeft p)).held == some (t, c.val) && x.left.closed && x.right.closed && !x.st.broken

/-- Streams of the context at its quiesce point: broken as R229 states, a claimed next stream too. -/
def State.preemptPort (s : State) (t : Nat) (c : Fin 4) (p : Nat) : State :=
  match portTile t p with
  | none => s
  | some _ =>
    let e := portEngine t p
    let left := portLeft p
    let s := if ((s.engine e).fin left).claim = some (t, c.val) then
        (s.settleClaim e left).modCtxAt t c fun z =>
          { z with status := z.status.set (fin4 p) { z.status[fin4 p] with st := .preempt } }
      else s
    let y := (s.engine e).fin left
    if y.held = some (t, c.val) && !y.orphan then s.preempt e left else s

/-- The context holds an end whose pre-emption is not over (R251). -/
def State.partingAt (s : State) (t : Nat) (c : Fin 4) : Bool :=
  (List.range 4).any fun p => (portTile t p).isSome &&
    (let x := s.engine (portEngine t p)
     let y := x.fin (portLeft p)
     y.held == some (t, c.val) && !y.orphan && !x.st.broken)

/-- Nothing is owed to context c of site t (R145). A wait in PHWAIT, or in a PHSIG that is not counted, is no obstacle: it is
withdrawn (DEDUCED, log 40). -/
def State.atRest (s : State) (t : Nat) (c : Fin 4) : Bool :=
  let x := s.site t
  let y := x.core.ctxs[c]
  let idle := match y.wait with
    | .resp id _ _ _ => y.st != .stalled || s.parkedPh t c.val id
    | _ => true
  idle && y.unacked.isEmpty && y.posted == 0 && (y.pfx.isNone || y.st == .stalled || y.st == .dormant) && !y.atBrk &&
    !(x.core.copyq.any fun m => m.ctx == c.val) && !(x.core.copies.any fun m => m.ctx == c.val) &&
    !(x.core.foldq.any fun m => m.ctx == c.val) && !((List.range 4).any fun p => s.closingAt t c p)

/-- QUIESCE_POINT: a context of a quiescing tile reaches its quiesce point and is written into its record; a context whose
record is complete, its streams released, is SAVED (R138, R251). The SEMWAITs behind one that leaves are served (R198). -/
def execQuiescePoint (t c : Nat) (s : State) : Result :=
  atCtx t c s fun c s =>
    let y := s.ctxAt t c
    if !(s.site t).quiesce || (s.site t).halted || (s.site t).haltReq then s
    else
      match y.st with
      | .migrating =>
        let s := (List.range 4).foldl (fun s p => s.preemptPort t c p) s
        if s.partingAt t c then s else s.modCtxAt t c fun y => { y with st := .saved }
      | .running | .stalled | .dormant | .empty =>
        if s.atRest t c then
          let s := (s.withdraw t (some c.val)).modCore t fun k => { k with waiters := k.waiters.filter fun w => w.2.1 ≠ c.val }.semServe
          let s := (List.range 4).foldl (fun s p => s.preemptPort t c p) s
          let g := match s.pending t c with
            | some .pfenceG => true
            | _ => false
          s.modCtxAt t c fun y =>
            { y with prior := y.st, st := .migrating, pfx := if y.st = .dormant then y.pfx else none,
                     persisted := if g then none else y.persisted }
        else s
      | _ => s

/-- Every context is SAVED, and nothing that the tile accepted is undone (R325). -/
def State.quiet (s : State) (t : Nat) : Bool :=
  let x := s.site t
  x.quiesce && !x.halted && x.core.ctxs.toList.all (fun y => y.st == .saved) && x.core.caq.isEmpty && x.core.pend.isEmpty &&
    x.vland.isEmpty && s.niIdle t

/-- GATE_QUIESCED: the full commit is requested, and later arrivals go to H. -/
def execGateQuiesced (t : Nat) (s : State) : Result :=
  atSite t s fun s =>
    if (s.site t).gate.st = .quiescing && s.quiet t then
      ((s.setGate t fun g => { g with st := .committing }).askCommit t).mark t
    else s

/-! Loss and resume (R322, R323, R370). -/

/-- The stream that tile t holds on port p breaks, with no delivery, and its end is released. One whose PARTIAL flush has left breaks as
R229 states once that is acknowledged, and the engine releases the end then (R221, R251), unless `all`. -/
def State.abortPort (s : State) (t : Nat) (all : Bool) (p : Nat) : State :=
  match portTile t p with
  | none => s
  | some _ =>
    let e := portEngine t p
    let left := portLeft p
    let mine := fun (h : Option (Nat × Nat)) => (h.map fun x => x.1 == t).getD false
    let s := if mine ((s.engine e).fin left).claim then s.settleClaim e left else s
    let x := s.engine e
    let y := x.fin left
    if !mine y.held then s
    else if x.parting.isSome && !all then s.setEngine e (x.setFin left { y with orphan := true })
    else (if x.st.broken then s else s.breakStream e .abort).releaseEnd e left

/-- The streams of a tile that loses its power or resumes (R322, R323). -/
def State.abortStreams (s : State) (t : Nat) : State := (List.range 4).foldl (fun s p => s.abortPort t false p) s

/-- The streams of a tile that is released (R184). -/
def State.cutStreams (s : State) (t : Nat) : State := (List.range 4).foldl (fun s p => s.abortPort t true p) s

/-- Acknowledgements of deliveries that the NI of tile t has received and its engines have not taken yet. -/
def State.countDelAcks (s : State) (t : Nat) : State :=
  (s.site t).rxResp.foldl (fun (s : State) p => match p.load with
    | .delAck e num => s.delivered e num 0
    | _ => s) s

/-- What the packet tells context c about its requests: an acknowledgement, or the answer to one that it has ceased to wait for. -/
def Ctx.heard (y : Ctx) (c : Nat) (p : Pkt) : Ctx :=
  match p.load with
  | .ack n owner num _ => if n = c then { y with unacked := y.unacked.filter (· != (owner, num)) } else y
  | .resp n id _ => if n = c then { y with lost := y.lost.filter (· != id) } else y
  | _ => y

/-- Acknowledgements and answers that the NI has received and not yet counted. -/
def Site.countAcks (x : Site) : Site :=
  { x with core := { x.core with ctxs := Vector.ofFn fun c => x.rxResp.foldl (fun (y : Ctx) p => y.heard c.val p) x.core.ctxs[c] } }

/-- A message that the NI of a tile has taken for a PERSIST channel goes into the journal, and is accepted, while the supply holds up
(R323, R324). -/
def Site.journalNow (x : Site) (p : Pkt) : Site :=
  match p.load with
  | .msg hdr beats =>
    match entPersist (x.entry (hdrChan hdr)), x.core.findRun beats.length with
    | true, some a =>
      { x with accepted := x.accepted + (if fromLaunchUnit hdr then 0 else 1),
               ballast := { x.ballast with journal := x.ballast.journal ++ [{ hdr := hdr, beats := beats, addr := a }] } }
    | _, _ => x
  | _ => x

/-- POWER_LOSS (R323): issue stops, the halt mark is set, streams break, what the NI holds is lost but for what goes into the journal, and
so are the entries in flight toward q6 (DESIGN CHOICE, log 77). -/
def execPowerLoss (t : Nat) (s : State) : Result :=
  if !isTile t || !(s.site t).up then .next s
  else
    let s := (((s.markHalt t).countDelAcks t).abortStreams t).modSite t Site.countAcks
    let s := s.modSite t fun x => x.rxPush.foldl Site.unowe (x.rxMsg.foldl Site.journalNow x)
    .next (s.modSite t fun x =>
      { x with powered := false, lostAt := s.cycle, svc := [], rxMsg := [], rxResp := [], rxDel := [], rxPush := [], rxCtl := [],
               rxRec := [], rxPst := [], vland := [], late := [],
               krn := { x.krn with owed := x.krn.owed && !(x.rxMsg.any fun p => match p.load with
                 | .msg hdr _ => fromLaunchUnit hdr
                 | _ => false) } })

/-- The word that a resume uses: valid, for this tile and epoch, with the larger SEQ (R320, R322). -/
def Ballast.newest (b : Ballast) (t : Nat) : Option CommitWord :=
  let ok := fun (w : Option CommitWord) => w.filter fun x => x.ok && x.tile == t && x.epoch == b.epoch
  match ok b.wordA, ok b.wordB with
  | some x, some y => if x.seq < y.seq then some y else some x
  | some x, none => some x
  | none, y => y

/-- A context of the state block beside the live one: responses and acknowledgements of requests after C will find no taker, those
that are outstanding are outstanding on both sides, the watchdog count is that of C. One captured at a BRK executes it again unless the
tile is still halted. -/
def Ctx.resumed (y live : Ctx) (halted : Bool) : Ctx :=
  let y := { y with reqid := max y.reqid live.reqid, fenceId := max y.fenceId live.fenceId, lost := live.lost,
                    unacked := y.unacked.filter live.unacked.contains, posts := y.posts.filter live.posts.contains }
  if halted then { y with prior := y.st, st := .halted }
  else if y.atBrk then { y with atBrk := false, pfx := none }
  else y

/-- Copies get fresh numbers, so that no late answer is taken for theirs. -/
def renumber (from' : Nat) (l : List CpCmd) : List CpCmd := (l.zip (List.range l.length)).map fun e => { e.1 with num := from' + e.2 }

/-- A captured pending message without the members that have an injected record (R322). -/
def PendMsg.rest (b : Ballast) (p : PendMsg) : PendMsg :=
  { p with gate := none, ctx := none,
           msg := { p.msg with targets := p.msg.targets.filter fun m => !b.injected.contains (p.msg.id.toNat, m) } }

/-- The scratchpad of commit n. -/
def Ballast.image (b : Ballast) (n : Nat) : List Host.Cell :=
  (List.range 1536).foldl (fun m l => match slotFor (mapGet? b.slotA l) (mapGet? b.slotB l) n with
    | some x => memPut m (256 * l) x.data
    | none => m) []

/-- Slots not newer than n. -/
def keepSlots (n : Nat) (l : List (Nat × LineSlot)) : List (Nat × LineSlot) := l.filter fun e => e.2.ok && decide (e.2.seq ≤ n)

/-- After a resume that came while a gate was quiescing or committing, the gate begins again, or is ON where it was cancelled. -/
def State.regate (s : State) (t : Nat) : State :=
  let g := (s.site t).gate
  if g.st = .quiescing || g.st = .committing then
    let s := (s.setGate t fun g => { g with st := .on, cancel := false }).unmark t
    if g.offReq || g.sleepReq then s.beginQuiesce t else s
  else s

/-- Restores site t to commit word w and its state block (R322, R370) (DEDUCED, log 39). Entries in flight toward its q6 land where the
restored q6 leaves them room (DESIGN CHOICE, log 71); a VLD that had parked comes back if its context waits for it still. -/
def State.restoreTo (s : State) (t : Nat) (w : CommitWord) (k : Core) : State :=
  let x := s.site t
  let b := x.ballast
  let live := x.core
  let core : Core :=
    { k with ctxs := Vector.ofFn fun c => k.ctxs[c].resumed live.ctxs[c] x.halted,
             copies := renumber live.copyNum k.copies, copyNum := live.copyNum + k.copies.length,
             pend := k.pend.map (PendMsg.rest b), pushes6 := live.pushes6, parked := k.parked.filter s.awaited,
             free := if x.frozen then live.free else 8 - (s.site (partnerOf t)).held6 }
  let b' : Ballast :=
    { b with dirty := [], slotA := keepSlots w.seq b.slotA, slotB := keepSlots w.seq b.slotB, st := .idle, merged := false,
             last := w.seq, lastCyc := w.cycle, resumes := b.resumes + 1, askers := [], journal := [],
             blkA := b.blkA.filter fun y => decide (y.seq ≤ w.seq), blkB := b.blkB.filter fun y => decide (y.seq ≤ w.seq) }
  let s := s.withdraw t none
  let s := s.modSite t fun x =>
    { x with core := core, mem := b.image w.seq, bad := [], ballast := b', vland := x.vland.take (8 - k.q6.items.length),
             vcred := if x.frozen then x.vcred else 0, quiesce := s.drains t, rollback := false, powered := true, late := [] }
  let s := ({ s with pushes := s.pushes.filter fun p => p.site != t } : State).setPh t k.ph
  let s := b.journal.foldl (fun (s : State) e =>
    let a := ((s.site t).core.findRun e.beats.length).getD e.addr
    (s.acceptMsg t e.hdr e.beats a true).modSite t fun x =>
      { x with ballast := { x.ballast with journal := x.ballast.journal ++ [{ e with addr := a }] } }) s
  let s := if 16384 < journalBytes (s.site t).ballast.journal then s.askCommit t else s
  s.regate t

/-- No context of tile t waits for an answer any more (DEDUCED, log 101). -/
def State.dropWaits (s : State) (t : Nat) : State := (List.finRange 4).foldl (fun (s : State) c => s.dropWait t c) s

/-- Resumes site t from its last valid commit; none without one. -/
def State.resumeTile (s : State) (t : Nat) : Option State :=
  let b := (s.site t).ballast
  match b.newest t with
  | none => none
  | some w =>
    match (if w.seq % 2 = 0 then b.blkA else b.blkB) with
    | some k => if k.ok && k.seq == w.seq then some (((s.abortStreams t).dropWaits t).restoreTo t w k.core) else none
    | none => none

/-- The end of a wake: ON, or back to quiescing for a held SLEEP or OFF (R325, R330, R331). -/
def State.woken (s : State) (t : Nat) : State :=
  let g := (s.site t).gate
  let s := (s.setGate t fun g => { g with st := .on }).thaw t
  if g.offReq || g.sleepReq then s.beginQuiesce t else s.unmark t

/-! The halt-hold buffer (R299, R326, R369). -/

/-- HALT_HOLD_DELIVERY: the first held packet of a running tile enters its NI when the NI takes it; the first one for an OFF tile that
R326 refuses is refused. -/
def execHaltHoldDelivery (t : Nat) (s : State) : Result :=
  if !isTile t then .next s
  else
    let off := (s.site t).gate.st == .off
    let mine := fun (h : Nat × Pkt) => h.2.dst == t && (!off || h.2.load.refused)
    match s.holdBuf.find? mine with
    | none => .next (if (s.site t).live then s.unmark t else s)
    | some h =>
      let rest := s.holdBuf.eraseP mine
      if off then .next (({ s with holdBuf := rest } : State).refuse t h.2)
      else if !(s.site t).live then .next s
      else if s.niTakes h.2 then .next ((({ s with holdBuf := rest } : State).arrive h.2).unmark t)
      else .next (s.pressJournal h.2)

end Sys2Proof.Machine
end

