-- ==== Sys2Proof/Machine/Launch.lean ====
section
/-! DEFINITION. The launch unit: registration (R168), launch queues (R170 to R172), the checks (R174), placement (R173, R183),
loading (R175), completion (R43, R44, R184), chains (R177); recovery and migration (R42, R335, R340). -/

namespace Sys2Proof.Machine

/-! Registration. -/

/-- KERNEL_REGISTER: the kernel file gets a handle with its tenant in bits 31:28; handle 0 is never issued (DESIGN CHOICE, log 24). A
device in recovery offers no registration (R351). -/
def execKernelRegister (n : Nat) (file : KernelFile) (s : State) : Result :=
  if 16 ≤ n || s.boot.stoppedAt.isSome then .next s
  else
    let h : BitVec 32 := BitVec.ofNat 32 (n * 2 ^ 28 + 1 + s.nextH % (2 ^ 28 - 1))
    let k : Kernel := { handle := h, tenant := n, file := file }
    .next { s with kernels := s.kernels ++ [k], nextH := s.nextH + 1 }

/-- KERNEL_UNREGISTER: refused while a standing nomination names the handle (R176). -/
def execKernelUnregister (h : BitVec 32) (s : State) : Result :=
  if s.launches.any fun e => e.2.nominee == some h then .next s
  else .next { s with kernels := s.kernels.map fun k => if k.handle = h then { k with gone := true } else k }

/-! Launch queues. -/

/-- A descriptor of 128 bytes (R170). The spec names the limits of EVENT, NDEP and the DEP slots and no failure for a descriptor beyond
them: EVENT is taken modulo 4,096, an NDEP above 4 as 4, and bits 31:12 of a DEP are ignored (DESIGN CHOICE, log 72). -/
def launchDesc (b : List Byte) : LaunchDesc :=
  { handle := BitVec.ofNat 32 (field b 0 4), event := field b 4 2 % 4096,
    deps := (List.range (min 4 (field b 6 2))).map fun i =>
      (field b (8 + 8 * i) 4 % 4096, BitVec.ofNat 32 (field b (12 + 8 * i) 4)),
    place := if bit (field b 40 8) 63 then some (field b 40 8 % 8192) else none,
    idbase := BitVec.ofNat 64 (field b 48 8), argva := BitVec.ofNat 64 (field b 56 8),
    largs := (List.range 8).map fun i => BitVec.ofNat 64 (field b (64 + 8 * i) 8) }

/-- Launches of one queue that are not over, in queue order. The helm's own launches for a tenant form queues apart. -/
def State.queueOf (s : State) (n q : Nat) : List (Nat × Launch) :=
  s.launches.filter fun e => e.2.tenant == n % 16 && e.2.helm == decide (16 ≤ n) && e.2.queue == q &&
    e.2.st != .done && e.2.st != .failed

/-- The tails of the launch queues of tenant n, or of the helm's queues for tenant n - 16. -/
def Tenant.tails (te : Tenant) (n : Nat) : List Nat := if n < 16 then te.counts else te.hcounts

def Tenant.setTail (te : Tenant) (n q tail : Nat) : Tenant :=
  if n < 16 then { te with counts := te.counts.set q tail } else { te with hcounts := te.hcounts.set q tail }

/-- LAUNCH_DOORBELL (R171): a new tail with the descriptors up to it (DESIGN CHOICE, log 27). A queue of the helm for tenant n, number
16 + n, has a tail and positions of its own; its overflow goes to the tenant's error ring (DESIGN CHOICE, log 73). -/
def execLaunchDoorbell (n q tail : Nat) (ds : List (List (BitVec 8))) (s : State) : Result :=
  if 32 ≤ n || 16 ≤ q then .next s
  else
    match mapGet? s.tenants (n % 16) with
    | none => .next s
    | some te =>
      let pos := (te.tails n).getD q 0
      if tail ≠ pos + ds.length then .next s
      else if 256 < (s.queueOf n q).length + ds.length then .next (s.errRing (n % 16) 0 3 q 0)
      else
        let mk := fun (i : Nat) (b : List Byte) =>
          (s.nextL + i, ({ tenant := n % 16, queue := q, pos := pos + i, desc := launchDesc b, helm := decide (16 ≤ n) } : Launch))
        let new := (List.range ds.length).zipWith mk ds
        .next { s with launches := s.launches ++ new, nextL := s.nextL + ds.length,
                       tenants := mapPut s.tenants (n % 16) (te.setTail n q tail) }

/-! The checks (R174). -/

/-- A range of n bytes at b leaves 0x00000 to 0x5BFFF (DEDUCED, log 52). -/
def leaves (b n : Nat) : Bool := n != 0 && decide (0x5C000 < b + n)

def disjoint (a b : Nat × Nat) : Bool := a.2 == 0 || b.2 == 0 || decide (a.1 + a.2 ≤ b.1) || decide (b.1 + b.2 ≤ a.1)

def KernelFile.regions (k : KernelFile) : List (Nat × Nat) := (List.range 8).map fun i => (k.regBase i, k.regSize i)

/-- Statuses 1 to 5 of a header; 0 for none. -/
def headerStatus (k : KernelFile) : Nat :=
  let zero := fun (lo hi : Nat) => (List.range (hi - lo)).all fun i => k.f (lo + i) 1 == 0
  let entryBad := fun (i : Nat) =>
    let e := k.entry i
    k.chValid i && i != 30 && (entWeight e == 0 || entEntry e % 2 == 1 || entVc e == 1 || decide (k.imgSize ≤ entEntry e))
  let regionBad := fun (r : Nat × Nat) => r.2 != 0 && (leaves r.1 r.2 || r.1 % 256 != 0 || r.2 % 256 != 0)
  let rs := KernelFile.regions k
  let clash := (List.range 8).any fun i => (List.range i).any fun j => !disjoint (rs.getD i (0, 0)) (rs.getD j (0, 0))
  if k.f 0 4 ≠ 0x314B4C5A || decide (4 ≤ k.f 5 1) || !zero 6 8 || !zero 35 36 || !zero 68 72 || !zero 136 256 ||
      decide (2 ^ 30 ≤ k.accept) || decide (2 ^ 30 ≤ k.offer) || k.imgSize % 2 != 0 || decide (k.imgSize < 2) ||
      decide (65536 < k.imgSize) || (decide (3 < k.kind) && k.kind != 0xFF) || k.chTab % 8 != 0 ||
      decide (k.imgSize < k.chTab + 256) then 1
  else if k.ver = 0 || 3 < k.ver then 2
  else if 64 < k.widths.sum then 3
  else if !k.chValid 0 || (List.range 32).any entryBad then 4
  else if leaves k.stkBase (4 * k.stkSize) || leaves k.argBase k.argSize || leaves k.dataBase k.dataSize ||
      decide (4096 < k.argSize) || clash || k.stkBase % 16 != 0 || k.stkSize % 16 != 0 || rs.any regionBad then 5
  else 0

/-- The status with which a launch enters PLACING: TENANT first for a handle that is not registered to its tenant. -/
def State.launchStatus (s : State) (l : Launch) (h : BitVec 32) : Nat :=
  match s.kernel h with
  | none => 6
  | some k =>
    if k.gone || k.tenant != l.tenant then 6
    else if headerStatus k.file ≠ 0 then headerStatus k.file
    else if k.file.maint && !l.helm then 6
    else 0

/-! Placement (R183). -/

/-- A tile of a tenant's partition that is not excluded (R356, R358). -/
def State.inPartition (s : State) (n t : Nat) : Bool :=
  match mapGet? s.tenants n with
  | none => false
  | some te => !s.boot.excluded.contains t && te.cfg.parts.any fun r =>
      tileDie t == r.die && decide (r.row ≤ tileY t) && decide (tileY t < r.row + r.rows) && decide (r.col ≤ tileX t) &&
        decide (tileX t < r.col + r.cols)

/-- A tile that no group holds and that can run. -/
def State.isFree (s : State) (t : Nat) : Bool :=
  (s.site t).krn.launch.isNone && (s.site t).powered && (s.site t).gate.st == .on &&
    !(s.lent.any fun e => e.2 == t) && !s.boot.excluded.contains t

/-- How far a predicate holds for 0, 1, ... -/
def runLength (f : Nat → Bool) : Nat → Nat
  | 0 => 0
  | n + 1 => if (List.range (n + 1)).all f then n + 1 else runLength f n

/-- Rows and columns at an origin: 0 takes the whole extent of the partition (R183). -/
def State.extent (s : State) (n o rows cols : Nat) : Nat × Nat :=
  (if rows ≠ 0 then rows else runLength (fun i => s.inPartition n (o + 32 * i)) (32 - tileY o),
   if cols ≠ 0 then cols else runLength (fun j => s.inPartition n (o + j)) (32 - tileX o))

/-- The tiles of a rectangle, row-major (R25); none where it leaves the die. -/
def rectTiles (o rows cols : Nat) : Option (List Nat) :=
  if rows = 0 || cols = 0 || 32 < tileY o + rows || 32 < tileX o + cols then none
  else some ((List.range rows).flatMap fun i => (List.range cols).map fun j => o + 32 * i + j)

/-- One part at origin o: tiles, rows, columns. A double-decked part has its keel tiles first. -/
def State.partAt (s : State) (n o rows cols : Nat) (deck : Bool) (ok : Nat → Bool) : Option (List Nat × Nat × Nat) :=
  let (r, c) := s.extent n o rows cols
  match rectTiles o r c with
  | none => none
  | some ts =>
    if deck && tileDie o % 2 = 1 then none
    else
      let ts := if deck then ts ++ ts.map (· + 1024) else ts
      if ts.all fun t => s.inPartition n t && ok t then some (ts, r, c) else none

/-- The first part: at PLACE, or at the lowest origin that takes it. -/
def State.firstPart (s : State) (n : Nat) (place : Option Nat) (rows cols : Nat) (deck : Bool) (ok : Nat → Bool) :
    Option (List Nat × Nat × Nat) :=
  match place with
  | some o => s.partAt n o rows cols deck ok
  | none => (List.range Config.tiles).findSome? fun o => s.partAt n o rows cols deck ok

/-- k further parts, each at the lowest origin that the parts before it leave. -/
def State.moreParts (s : State) (n rows cols : Nat) (deck : Bool) (ok : Nat → Bool) : Nat → List (List Nat) → Option (List (List Nat))
  | 0, ps => some ps
  | k + 1, ps =>
    match s.firstPart n none rows cols deck fun t => ok t && !(ps.any fun p => p.contains t) with
    | some (p, _, _) => s.moreParts n rows cols deck ok k (ps ++ [p])
    | none => none

/-- Parts in the order of their corners (R25). -/
def insertPart (p : List Nat) : List (List Nat) → List (List Nat)
  | [] => [p]
  | q :: r => if p.headD 0 < q.headD 0 then p :: q :: r else q :: insertPart p r

/-- The group of a header on tiles that ok admits: members, rows, columns (DESIGN CHOICE, log 26). With ROWS or COLS 0 the first part that
fits gives the count of parts, each further part takes its own extent, and MEMBERS is held against that first fit (DESIGN CHOICE,
log 96). -/
def State.findGroup (s : State) (n : Nat) (place : Option Nat) (k : KernelFile) (ok : Nat → Bool) : Option (List Nat × Nat × Nat) :=
  let deck := k.kind = 1 || k.kind = 3
  match s.firstPart n place k.rows k.cols deck ok with
  | none => none
  | some (p, r, c) =>
    if k.kind = 2 || k.kind = 3 then
      if k.memberCount % p.length ≠ 0 then none
      else
        let more := k.memberCount / p.length - 1
        (s.moreParts n k.rows k.cols deck ok more [p]).map fun ps => ((ps.foldr insertPart []).flatten, r, c)
    else if k.memberCount ≠ 0 && k.memberCount ≠ p.length then none
    else some (p, r, c)

/-- Bridges between masts a and b on the way of R290, X before Y. -/
def bridgesBetween (a b : Nat) : List Nat :=
  let turn := a / 2 * 2 + b % 2
  ([bridgeOf a turn, bridgeOf turn b]).filterMap id

/-- The bridges that a group needs: between its masts, and to the helm die (R304, R305) (DEDUCED, log 47). -/
def bridgesOf (members : List Nat) : List Nat :=
  let ms := (List.range 4).filter fun m => members.any fun t => t / 2048 == m
  (ms.flatMap fun a => (4 + a) :: ms.flatMap fun b => bridgesBetween a b).foldl setAdd []

def State.needsDown (s : State) (members : List Nat) : Bool := (bridgesOf members).any fun b => !s.bridgeUp b

/-! The end of a launch. -/

/-- A completion record (R354). -/
def completionRec (l : Launch) (status : Nat) (handle : BitVec 32) : RingRec :=
  leBytes 1 l.queue ++ leBytes 1 status ++ leBytes 1 (min 255 l.chain) ++ leBytes 1 0 ++ leBytes 2 l.desc.event ++ leBytes 2 0 ++
    leBytes 8 l.pos ++ leBytes 4 handle.toNat ++ List.replicate 12 0

/-- The gate of a released tile: one that was committing has nothing to commit any more and quiesces anew. -/
def Gate.freed (g : Gate) : Gate := if g.st = .committing then { g with st := .quiescing } else g

/-- A packet of a send that has fired, the read of its source or the write of a landing: the end of a launch neither waits for it nor
cancels it (R315, R339). -/
def Load.fired : Load → Bool
  | .cpRead site _ _ _ _ _ => site == helmDie
  | .cpWrite site _ _ _ _ => site == helmDie
  | _ => false

/-- A released tile: scrubbed and free, with nothing left at its NI (R184) but the packets of sends that have fired (R315). A gate that has
begun goes on (R325). -/
def Site.freed (x : Site) : Site :=
  { (x.rxPush.foldl Site.unowe x) with
    core := {}, mem := [], bad := [], ballast := {}, krn := {}, gate := x.gate.freed, quiesce := x.gate.freed.st == .quiescing, newTile := false, rollback := false,
    migrated := false, prow := 0, pcol := 0, halted := false, haltReq := false, ownHalt := false, lastg := 0, heldg := 0, haltg := 0,
    ownAt := 0, dbg := false, svc := x.svc.filter (·.load.fired), rxMsg := [], rxResp := [], rxDel := [], rxPush := [], rxCtl := [],
    rxRec := [], rxPst := [], vland := [], vcred := 0, late := [] }

/-- FREE at both ends of the bonds of t counts what their q6 hold, also at the launch of a member whose partner's q6 still holds entries
of another launch (DESIGN CHOICE, log 107). -/
def State.bond (s : State) (t : Nat) : State := (s.refree t).refree (partnerOf t)

/-- The tiles go back to the partition; what the halt-hold buffers hold for them goes with what they held. -/
def State.freeTiles (s : State) (ts : List Nat) : State :=
  let s := ts.foldl (fun (s : State) t =>
    let s := s.cutStreams t
    ((s.modSite t Site.freed).bond t).unmark t) s
  { s with lent := s.lent.filter fun e => !ts.contains e.1, pushes := s.pushes.filter fun p => !ts.contains p.site,
           holdBuf := s.holdBuf.filter fun h => !ts.contains h.2.dst || h.2.load.fired }

/-- DONE or FAILED: tiles released, EVENT + 1, one completion record, its vector, and the launch leaves its queue (R173, R354). -/
def State.endLaunch (s : State) (l : Nat) (la : Launch) (status : Nat) : State :=
  let s := s.freeTiles la.members
  let h := if la.handle = 0 then la.desc.handle else la.handle
  let s := match mapGet? s.tenants la.tenant with
    | none => s
    | some te =>
      let te' := { te with events := mapPut te.events la.desc.event (mapGetD te.events la.desc.event 0 + 1),
                           comps := te.comps ++ [completionRec la status h], vectors := te.vectors ++ [la.queue] }
      { s with tenants := mapPut s.tenants la.tenant te' }
  { s with launches := s.launches.filter fun e => e.1 != l,
           sumac := { s.sumac with preset := s.sumac.preset.filter fun p => p.1 != l } }

def State.setLaunch (s : State) (l : Nat) (la : Launch) : State :=
  { s with launches := s.launches.map fun (e : Nat × Launch) => if e.1 = l then (l, la) else e }

/-- Every context of a member is at its quiesce point or without an activation (DEDUCED, log 45). -/
def Site.still (x : Site) : Bool := x.core.ctxs.toList.all fun y => y.st == .saved || y.st == .empty

/-- An abort (R173): at once where no context runs, else after the quiesce of every member (DEDUCED, log 58). -/
def State.abort (s : State) (l : Nat) (la : Launch) : State :=
  match la.st with
  | .done | .failed => s
  | .running | .chaining =>
    let s := s.setLaunch l { la with st := .failed, draining := true }
    la.members.foldl (fun s t => s.modSite t fun x => { x with quiesce := true }) s
  | _ => s.endLaunch l la 8

def execLaunchAbort (l : Nat) (s : State) : Result :=
  match mapGet? s.launches l with
  | none => .next s
  | some la => .next (s.abort l la)

/-! Placing. -/

/-- The dependences of a launch are met (R172). -/
def Tenant.meets (te : Tenant) (deps : List (Nat × BitVec 32)) : Bool :=
  deps.all fun d => decide (0 ≤ (mapGetD te.events d.1 0 - d.2).toInt)

/-- Reserves the tiles of a group. -/
def State.reserve (s : State) (l : Nat) (la : Launch) (members : List Nat) : State :=
  let s := s.setLaunch l la
  ((List.range members.length).zip members).foldl (fun (s : State) e =>
    let pre := s.sumac.preset.find? fun p => p.1 == l && p.2.1 == e.2
    s.modSite e.2 fun x =>
      { x with krn := { x.krn with launch := some l, member := e.1, tenant := la.tenant },
               haltg := (pre.map (·.2.2.1)).getD 0, dbg := (pre.map (·.2.2.2)).getD false, lastg := 0, heldg := 0 })
    { s with sumac := { s.sumac with preset := s.sumac.preset.filter fun p => p.1 != l } }

/-- A launch in PLACING: placed, failed, or waiting for tiles. -/
def State.place (s : State) (l : Nat) (la : Launch) : State :=
  match s.kernel la.handle with
  | none => s.endLaunch l la 6
  | some k =>
    match s.findGroup la.tenant la.desc.place k.file (fun _ => true) with
    | none => s.endLaunch l la 7
    | some _ =>
      match s.findGroup la.tenant la.desc.place k.file s.isFree with
      | none => s.setLaunch l { la with st := .placing }
      | some (ms, r, c) =>
        if s.needsDown ms then s.endLaunch l la 7
        else
          let kind := if k.file.kind = 0xFF then 0 else k.file.kind
          let la' := { la with st := .loading, members := ms, rows := r, cols := c, kind := kind }
          s.reserve l la' ms

/-- The head of queue q of tenant n when it is ready: its dependences are met, or it waits for tiles (R172). -/
def State.readyHead (s : State) (n q : Nat) : Option (Nat × Launch) :=
  match mapGet? s.tenants (n % 16) with
  | none => none
  | some te =>
    ((s.queueOf n q).find? fun e => e.2.st == .queued || e.2.st == .placing || e.2.st == .loading).filter fun e =>
      match e.2.st with
      | .queued => te.meets e.2.desc.deps
      | .placing => true
      | _ => false

/-- The launch unit serves the ready queues round-robin (R172): none stands between the one that is next and this one. The queues go
round by their number 16n + q, the helm's after the tenants' (DESIGN CHOICE, log 81). -/
def State.itsTurn (s : State) (n q : Nat) : Bool :=
  let i := 16 * n + q
  (List.range ((i + 512 - s.qturn) % 512)).all fun j =>
    let k := (s.qturn + j) % 512
    (s.readyHead (k / 16) (k % 16)).isNone

/-- LAUNCH_PLACE (R172, R173): the launch at the head of queue q of tenant n; 16 + n names the helm's launches for it. -/
def execLaunchPlace (n q : Nat) (s : State) : Result :=
  if 32 ≤ n || 16 ≤ q then .next s
  else
    match (s.readyHead n q).filter fun _ => s.itsTurn n q with
    | none => .next s
    | some (l, la) =>
      let s := { s with qturn := (16 * n + q + 1) % 512 }
      let st := s.launchStatus la la.desc.handle
      if la.st = .placing then .next (s.place l la)
      else if st ≠ 0 then .next (s.endLaunch l la st)
      else .next (s.place l { la with handle := la.desc.handle })

/-! Loading (R175). -/

/-- A byte of global memory that the helm reads for process pid, or its fault, with the address of an HBM error (R258, R333). -/
def State.argByte (s : State) (pid : BitVec 16) (a : Nat) : Except (Option Nat) Byte :=
  if 2 ^ 54 ≤ a then .error none
  else match s.walkBad pid a, s.walk pid a with
    | some w, _ => .error (some w)
    | none, none => .error none
    | none, some p =>
      let pa := physOf p.leaf p.bits a
      if s.absentAt pa || (!isHbm pa 1 && !isTier2 pa 1) then .error none
      else if (s.badWord pa 1).isSome then .error (some pa)
      else .ok (memGet s.phys pa)

/-- The argument block, or none where a page, an access or a word fails (R173). -/
def State.argBlock (s : State) (pid : BitVec 16) (va : Word) (n : Nat) : Option (List Byte) :=
  (List.range n).mapM fun i => (s.argByte pid (va.toNat + i)).toOption

/-- The tenant's error record where the first fault of that read is an HBM error (R354). -/
def State.argError (s : State) (pid : BitVec 16) (va : Word) (n : Nat) : State :=
  let first := (List.range n).findSome? fun i => match s.argByte pid (va.toNat + i) with
    | .error e => some e
    | .ok _ => none
  match first with
  | some (some pa) => s.hbmError helmDie pid pa
  | _ => s

/-- A page of n bytes at va is MIGRATING: its owning cores hold the read until it is rewritten (R259). -/
def State.argHeld (s : State) (pid : BitVec 16) (va : Word) (n : Nat) : Bool :=
  (List.range n).any fun i => decide (va.toNat + i < 2 ^ 54) && ((s.walk pid (va.toNat + i)).map s.pageMoves).getD false

/-- The initialised data cannot be read (R173). -/
def Kernel.unreadable (k : Kernel) : Bool := k.lost && k.file.dataSize != 0

/-- The handler table of a header (R175). -/
def KernelFile.table (k : KernelFile) : Vector Word 32 :=
  Vector.ofFn fun i => setEntBit (setEntBit (k.entry i.val) 26 false) 27 (!k.chValid i.val)

/-- What loading sets in a member beside its scratchpad and its contexts. -/
def Site.loaded (x : Site) (k : KernelFile) (info : KernelInfo) : Site :=
  { x with istore := memPut [] 0 (k.image.take k.imgSize), imgSize := k.imgSize, krn := info,
           core := { x.core with htab := KernelFile.table k, mxovf := 0 } }

def kernelInfo (la : Launch) (k : KernelFile) (l member : Nat) (pid : BitVec 16) : KernelInfo :=
  { ver := k.ver, handle := la.handle, chain := la.chain, tenant := la.tenant, pid := pid, widths := k.widths,
    stkBase := k.stkBase, stkSize := k.stkSize, argBase := k.argBase, limit := BitVec.ofNat 16 k.wdog, maint := k.maint,
    launch := some l, member := member, pred := la.prevH, inherit := la.inherit, fresh := la.fresh,
    wid := la.desc.idbase + BitVec.ofNat 64 member }

/-- All 1,536 lines of a scratchpad. -/
def allLines : List Nat := List.range 1536

/-- A member scrubbed and loaded, with nothing committed yet. Where the argument area and the data area share bytes, which R174 does not
refuse, the arguments stand (DESIGN CHOICE, log 79). -/
def Site.fresh (x : Site) (k : KernelFile) (info : KernelInfo) (args : List Byte) (epoch : Nat) : Site :=
  let mem := memPut (memPut [] k.dataBase (k.data.take k.dataSize)) k.argBase args
  let x := { x with core := {}, mem := mem, bad := [], ballast := { dirty := allLines, epoch := epoch }, released := 0, accepted := 0,
                    rollback := false, vland := [], vcred := 0, late := [] }
  x.loaded k info

/-- The channel-0 message's beat (R175). -/
def launchBeat (la : Launch) : VWord := BitVec.ofNat 256 (la.handle.toNat + min 255 la.chain * 2 ^ 32)

def pidOf (te : Option Tenant) (q : Nat) : BitVec 16 := ((te.map (·.pids)).getD []).getD q 0

/-- LAUNCH_LOAD_COMPLETE: every member is scrubbed, loaded and has written commit 1; RUNNING, and the channel-0 messages. It waits for
an argument block in a MIGRATING page (R259), and a member without power can be loaded neither nor commit: its launch fails where the
power does not return (R340). -/
def execLaunchLoadComplete (l : Nat) (s : State) : Result :=
  match mapGet? s.launches l with
  | none => .next s
  | some la =>
    if la.st ≠ .loading then .next s
    else
      match s.kernel la.handle with
      | none => .next (s.endLaunch l la 8)
      | some k =>
        let pid := pidOf (mapGet? s.tenants la.tenant) la.queue
        if s.argHeld pid la.desc.argva k.file.argSize || la.members.any fun t => !(s.site t).powered then .next s
        else match if k.unreadable then none else s.argBlock pid la.desc.argva k.file.argSize with
        | none => .next ((s.argError pid la.desc.argva k.file.argSize).endLaunch l la 8)
        | some args =>
          let ms := (List.range la.members.length).zip la.members
          let s := ms.foldl (fun (s : State) e =>
            let s := s.modSite e.2 fun x => x.fresh k.file { (kernelInfo la k.file l e.1 pid) with owed := true } args s.fresh
            ((s.bond e.2).commitNow e.2).commitWord e.2) s
          let la' := { la with st := .running, epoch := s.fresh, quietAt := none, barOpen := Vector.replicate 4 0,
                               phasers := Vector.replicate 8 {} }
          let s := { (s.setLaunch l la') with fresh := s.fresh + 1 }
          .next (la.members.foldl (fun (s : State) t =>
            s.sendTo helmDie t 0 1 (.msg (mkHdr 0 2 16 1 0) [launchBeat la])) s)

/-! Completion (R43, R44). -/

/-- A stream that will deliver: its delivery is under way, or both its ends have closed. -/
def Engine.delivers (x : Engine) : Bool :=
  x.pending.isSome || x.parting.isSome || (x.left.closed && x.right.closed && !x.st.broken)

/-- An engine of the member has a delivery under way. -/
def State.deliveryOwed (s : State) (t : Nat) : Bool :=
  (List.range 4).any fun p => (portTile t p).isSome && (s.engine (portEngine t p)).delivers

/-- Packets in the routers and the halt-hold buffers. -/
def State.flying (s : State) : List Pkt :=
  s.routers.flatMap (fun e =>
    let r := e.2
    let qs := r.inj.toList ++ r.hinj.toList ++ r.bin.toList ++ r.bout.toList ++ r.ins.toList.flatMap (·.toList)
    qs.flatMap (fun q => q.filterMap (·.pkt)) ++ r.outs.toList.flatMap fun o => o.holds.toList.filterMap fun h => h.map (·.2)) ++
  s.holdBuf.map (·.2)

def Load.isCtl : Load → Bool
  | .chctl _ _ => true
  | _ => false

/-- No far request or copy of the tile's contexts is outstanding, and no engine write is owed to it (R43). -/
def State.owesNothing (s : State) (t : Nat) : Bool :=
  let x := s.site t
  let k := x.core
  k.ctxs.toList.all (fun y => y.unacked.isEmpty && y.lost.isEmpty && y.posted == 0) && k.pend.isEmpty && k.copyq.isEmpty && k.copies.isEmpty &&
    k.foldq.isEmpty && x.svc.all (·.load.fired) && k.caq.isEmpty && x.rxDel.isEmpty && !s.deliveryOwed t

/-- A member is quiet (R43); one whose channel-0 message is still on its way is not, nor one that a push to q6 or a channel control of
the kernel has yet to reach, which R43 does not name (DESIGN CHOICE, log 92). -/
def State.memberQuiet (s : State) (t : Nat) : Bool :=
  let x := s.site t
  x.core.ctxs.toList.all (fun y => y.rest == .empty) && s.owesNothing t &&
    (List.range 32).all (fun ch => ch == 30 || x.core.chq[chanFin ch].isEmpty) && x.rxMsg.isEmpty && x.vland.isEmpty &&
    x.rxCtl.isEmpty && !x.krn.owed && !(s.flying.any fun p => p.dst == t && p.load.isCtl)

/-- Messages that halyard and helm cores have released for launch l (R43). -/
def State.releasedBy (s : State) (l : Nat) : Nat :=
  ((s.sites.filter fun e => !isTile e.1 && e.2.krn.launch == some l).map fun e => e.2.released).sum

/-- Sums of released and accepted messages of launch l. -/
def State.sums (s : State) (l : Nat) (ms : List Nat) : Nat × Nat :=
  ((ms.map fun t => (s.site t).released).sum + s.releasedBy l, (ms.map fun t => (s.site t).accepted).sum)

/-- Bytes of the inherited regions: BASE and SIZE of the successor where E has the region's bit (R177). -/
def keptRegions (e : Nat) (k : KernelFile) : List (Nat × Nat) :=
  (List.range 8).filterMap fun i => if bit e (13 + i) then some (k.regBase i, k.regSize i) else none

def inAny (rs : List (Nat × Nat)) (a : Nat) : Bool := rs.any fun r => decide (r.1 ≤ a) && decide (a < r.1 + r.2)

/-- Bytes to a, but for those inside inherited regions. -/
def loadAround (rs : List (Nat × Nat)) (m : List Host.Cell) (a : Nat) : List Byte → List Host.Cell
  | [] => m
  | b :: r => loadAround rs (if inAny rs a then m else memSet m a b) (a + 1) r

/-- The registers that E keeps of context c (R169). -/
def keepRegs (e : Nat) (y : Ctx) : Ctx :=
  let keepS := fun (i : Nat) => (bit e 0 && 8 ≤ i && i ≤ 15) || (bit e 1 && 16 ≤ i && i ≤ 23) || (bit e 2 && 24 ≤ i && i ≤ 29)
  let keepV := fun (i : Nat) => (bit e 3 && i ≤ 15) || (bit e 4 && 16 ≤ i)
  { s := Vector.ofFn fun i => if keepS i.val then y.s[i] else 0, v := Vector.ofFn fun i => if keepV i.val then y.v[i] else 0,
    badS := y.badS.filter keepS, badV := y.badV.filter fun w => keepV (w / 4), reqid := y.reqid, fenceId := y.fenceId }

/-- A queue kept or emptied; its pop and push counts go on. -/
def keepQ {w : Nat} (b : Bool) (q : Fifo w) : Fifo w := if b then q else { q with items := [] }

/-- The core of a member at a chain start. -/
def Core.chained (k : Core) (e : Nat) (c : Fin 4) : Core :=
  { ctxs := Vector.ofFn fun j => if j = c then keepRegs e k.ctxs[j] else { reqid := k.ctxs[j].reqid, fenceId := k.ctxs[j].fenceId },
    acc := k.acc.filter fun a => bit e (5 + a.1 / 256), qs := Vector.ofFn fun i => keepQ (bit e (22 + i.val)) k.qs[i],
    q45 := Vector.ofFn fun i => keepQ (bit e (26 + i.val)) k.q45[i], q6 := keepQ (bit e 28) k.q6, q7 := keepQ (bit e 29) k.q7,
    sem := if bit e 21 then k.sem else Vector.replicate 16 0, copyNum := k.copyNum, free := k.free, pushes6 := k.pushes6, lastCtx := k.lastCtx,
    badAcc := k.badAcc.filter fun w => bit e (5 + w / 128), badQ := k.badQ.filter fun b => bit e (22 + b.1) }

/-- One member of a group that starts a successor in place (R177); the arguments over the data, as in loading (DESIGN CHOICE, log 79). -/
def Site.chained (x : Site) (pred succ : KernelFile) (info : KernelInfo) (args : List Byte) : Site :=
  let e := inheritMask pred succ
  let kept := keptRegions e pred
  let rs := keptRegions e succ
  let m := x.mem.filter fun a => inAny kept a.1
  let m := loadAround rs (loadAround rs m succ.dataBase (succ.data.take succ.dataSize)) succ.argBase args
  let x := { x with mem := m, bad := x.bad.filter fun w => inAny kept w, core := x.core.chained e (fin4 x.core.lastCtx),
                    ballast := { x.ballast with dirty := allLines, journal := [] } }
  x.loaded succ info

/-- The channel-0 activation of a successor starts on context c, on which the member's last activation retired, without the admission
check (R177, R46); the inherited registers stay. Where none has retired since the launch was loaded, c is 0 (DESIGN CHOICE, log 95). -/
def State.startChain (s : State) (t : Nat) (la : Launch) : State :=
  let c := fin4 (s.site t).core.lastCtx
  let old := s.ctxAt t c
  let s := s.acceptMsg t (mkHdr 0 2 16 1 0) [launchBeat la] Config.mailbox true
  match headOf (s.site t).core.chq[0] with
  | none => s
  | some d =>
    let s := s.start t 0 c d
    s.modCtxAt t c fun y =>
      { y with s := entryRegs (s.site t) c d.hdr d.addr old.s, v := old.v, badV := old.badV,
               badS := old.badS.filter fun i => 5 ≤ i && i ≤ 29 }

/-- The contexts of a halted member are HALTED. -/
def State.rehalt (s : State) (t : Nat) : State :=
  if (s.site t).halted then s.modCore t fun k => { k with ctxs := vmap Ctx.halt k.ctxs } else s

/-- An OFF member's ballast area takes the successor as its commit: a later ON resumes the successor (DEDUCED, log 44). -/
def State.commitOff (s : State) (t : Nat) : State := if (s.site t).gate.st = .off then (s.commitNow t).commitWord t else s

/-- Starts the successor in place on every member (DEDUCED, log 44). One whose argument block or data cannot be read, for which R173 has
a row at LOADING only, ends the chain FAILED with ABORT, and its record shows the predecessor's handle and depth (DESIGN CHOICE,
log 80); one in a MIGRATING page is waited for (R259). -/
def State.chain (s : State) (l : Nat) (la : Launch) (pred succ : Kernel) : State :=
  let pid := pidOf (mapGet? s.tenants la.tenant) la.queue
  if s.argHeld pid la.desc.argva succ.file.argSize then s
  else match if succ.unreadable then none else s.argBlock pid la.desc.argva succ.file.argSize with
  | none => (s.argError pid la.desc.argva succ.file.argSize).endLaunch l la 8
  | some args =>
    let la' : Launch :=
      { la with st := .running, handle := succ.handle, prevH := la.handle, chain := la.chain + 1, nominee := none, quietAt := none,
                inherit := BitVec.ofNat 32 (Nat.land succ.file.accept pred.file.offer), fresh := false, barOpen := Vector.replicate 4 0,
                phasers := Vector.replicate 8 {} }
    let s := s.setLaunch l la'
    let ms := (List.range la.members.length).zip la.members
    let s := ms.foldl (fun (s : State) e =>
      s.modSite e.2 fun x => x.chained pred.file succ.file (kernelInfo la' succ.file l e.1 pid) args) s
    ms.foldl (fun (s : State) e => (((s.bond e.2).startChain e.2 la').rehalt e.2).commitOff e.2) s

/-- A member that a chain start waits for: it sleeps, quiesces, wakes or moves, or has no power. -/
def Site.unready (x : Site) : Bool := !x.powered || x.newTile || (match x.gate.st with
  | .on => x.quiesce
  | .off => false
  | _ => true)

/-- SLEEP members of a launch whose successor is to start are woken. -/
def State.wakeAll (s : State) (ts : List Nat) : State :=
  ts.foldl (fun (s : State) t => if (s.site t).gate.st = .sleep then s.beginWake t else s) s

/-- A kernel has completed: DONE, or its successor (R44, R173). The record of a chain that ends at its successor's header shows the
successor's handle and its depth (DESIGN CHOICE, log 80). -/
def State.completed (s : State) (l : Nat) (la : Launch) : State :=
  match la.nominee with
  | none => s.endLaunch l la 0
  | some h =>
    match s.kernel h, s.kernel la.handle with
    | some k, some p =>
      if headerStatus k.file ≠ 0 then s.endLaunch l { la with handle := h, chain := la.chain + 1 } (headerStatus k.file)
      else if otherShape la k.file then
        let st := s.launchStatus la h
        if st ≠ 0 then s.endLaunch l { la with handle := h, chain := la.chain + 1 } st
        else
        let s := s.freeTiles la.members
        s.setLaunch l { la with st := .placing, handle := h, prevH := la.handle, chain := la.chain + 1, nominee := none,
                                inherit := 0, fresh := true, members := [], quietAt := none, raised := [] }
      else s.chain l la p k
    | _, _ => s.endLaunch l la 0

/-- A request, copy, message or delivery of tile t is under way or waits at another agent. -/
def State.underWay (s : State) (t : Nat) : Bool :=
  (s.flying.any fun p => p.src == t) ||
    (s.sites.any fun e => (e.2.svc ++ e.2.rxMsg ++ e.2.rxDel).any (fun p => p.src == t) || (e.2.core.caq ++ e.2.core.parked).any fun r => r.site == t) ||
    s.stations.any fun e => (e.2.rxq ++ e.2.walk.toList ++ e.2.held ++ e.2.svc.map (·.1)).any fun r => r.site == t

/-- A member of an aborted launch is quiet (R43, R184): at its quiesce points, with nothing outstanding; one without power or OFF, which
can receive nothing, when nothing that it sent is under way (DEDUCED, log 46). A halted one reaches its quiesce points after its resume. -/
def State.abortQuiet (s : State) (t : Nat) : Bool :=
  let x := s.site t
  if x.powered && x.gate.st != .off then x.still && s.owesNothing t else !s.underWay t

/-- One round for one launch. -/
def State.roundOf (s : State) (l : Nat) : State :=
  match mapGet? s.launches l with
  | none => s
  | some la =>
    match la.st with
    | .failed => if la.members.all s.abortQuiet then s.endLaunch l la 8 else s
    | .running =>
      let sums := s.sums l la.members
      if la.members.all s.memberQuiet then
        if sums.1 = sums.2 && la.quietAt == some sums then
          if la.nominee.isSome && la.members.any fun t => (s.site t).unready then s.wakeAll la.members else s.completed l la
        else s.setLaunch l { la with quietAt := some sums }
      else s.setLaunch l { la with quietAt := none }
    | _ => s

/-- COMPLETION_ROUND (R43): once for every 128 cycles of the grid (DESIGN CHOICE, log 28). -/
def execCompletionRound (s : State) : Result :=
  if s.cycle / 128 = s.round then .next s
  else .next ((s.launches.map (·.1)).foldl (fun s l => s.roundOf l) { s with round := s.cycle / 128 })

/-! Health (R358). -/

def Health.rank : Health → Nat
  | .ok => 0
  | .degraded => 1
  | .replace => 2

/-- Health moves only upward; a change raises vector 17 of every tenant. -/
def State.worsen (s : State) (h : Health) : State :=
  if h.rank ≤ s.boot.health.rank then s
  else
    { s with boot := { s.boot with health := h, asked := if h = .replace then s.boot.asked ++ [s.cycle] else s.boot.asked },
             tenants := s.tenants.map fun (e : Nat × Tenant) => (e.1, { e.2 with vectors := e.2.vectors ++ [17] }) }

/-! Migration (R42) and recovery (R335, R340). -/

/-- Where the work of logical tile t runs. -/
def State.placeOf (s : State) (t : Nat) : Nat := mapGetD s.lent t t

/-- The work of t moves to place u (DESIGN CHOICE, log 29). -/
def State.moveTo (s : State) (t u : Nat) : State :=
  let s := { s with lent := mapPut s.lent t u }
  s.modSite t fun x => { x with migrated := true, prow := s.physRow u, pcol := tileX u }

/-- Moves t to u once it is at rest: the new tile holds everything, its area holds no commit yet, and its contexts wait for its
full commit (R42, R321). -/
def State.migrate (s : State) (t u : Nat) : State :=
  let s := (s.moveTo t u).modSite t fun x =>
    { x with newTile := true, ballast := { x.ballast with dirty := allLines, slotA := [], slotB := [], blkA := none, blkB := none,
                                                          wordA := none, wordB := none } }
  (s.tellPartner t true (s.site (partnerOf t)).partner).askCommit t

/-- The first LIVE_MIGRATION of t stops selection; once t is at rest the next one moves it. The work of a SLEEP or OFF tile is at rest in
its ballast area, which moves with it; a tile that is on its way there or back is moved when it has arrived (DEDUCED, log 91). -/
def State.migrateStep (s : State) (t u : Nat) : State :=
  let x := s.site t
  if x.krn.launch.isNone || !x.powered || x.newTile || !s.isFree u || t = u then s
  else match x.gate.st with
    | .sleep | .off => s.moveTo t u
    | .on =>
      if x.halted || x.ballast.writing then s
      else if !x.quiesce then s.modSite t fun x => { x with quiesce := true }
      else if s.quiet t then s.migrate t u
      else s
    | _ => s

def execLiveMigration (t u : Nat) (s : State) : Result :=
  if !isTile t || !isTile u then .next s else .next (s.migrateStep t u)

/-- The column of tile p cannot take up its work: its spare is used, or another tile of it waits for the spare (R357). -/
def Boot.columnFull (b : Boot) (p : Nat) : Bool :=
  let col := fun (t : Nat) => tileDie t * 32 + tileX t
  (mapGet? b.spare (col p)).isSome || b.excluded.any fun t => t != p && col t == col p

/-- A tile that leaves service (R340, R357). Where its column has no spare left, a logical tile is excluded for good (R358). -/
def State.vacate (s : State) (p : Nat) : State :=
  let s' := { s with boot := { s.boot with excluded := setAdd s.boot.excluded p } }
  if s.boot.columnFull p then s'.worsen .replace else s'

/-- Of the last second. -/
def recent (now c : Nat) : Bool := decide (now < c + 1600000000)

/-- The tile's errors, rollbacks or self-test move its work elsewhere (R340). -/
def Site.unwell (x : Site) (now : Nat) : Bool :=
  let f := x.fixed.filter fun e => recent now e.2
  x.selfFail || decide (256 ≤ f.length) || (f.any fun e => decide (16 ≤ (f.filter fun d => d.1 == e.1).length)) ||
    decide (3 ≤ (x.rollbacks.filter (recent now)).length)

/-- u may take over the work of t: a free tile of the tenant's partition, or of the same mast where that has none (R340). -/
def State.refuge (s : State) (t u : Nat) : Bool :=
  let n := (s.site t).krn.tenant
  let inside := fun (v : Nat) => s.isFree v && v != t && s.inPartition n v
  inside u || s.isFree u && u != t && u / 2048 == s.placeOf t / 2048 && !(List.range Config.tiles).any inside

/-- HEALTH_MIGRATION (R340): as LIVE_MIGRATION, for a tile whose work has to move, which is due from now on until it has moved; the vacated
tile leaves service. -/
def execHealthMigration (t u : Nat) (s : State) : Result :=
  if !isTile t || !isTile u then .next s
  else if !((s.site t).unfit || (s.site t).unwell s.cycle) then .next s
  else
    let s := if (s.site t).unfit then s else s.modSite t fun x => { x with unfit := true }
    if !s.refuge t u then .next s
    else
      let old := s.placeOf t
      let s' := s.migrateStep t u
      .next (if s'.placeOf t = u && old ≠ u then
               (s'.vacate old).modSite t fun x => { x with fixed := [], rollbacks := [], selfFail := false, unfit := false }
             else s')

/-- A tile whose work cannot be restored ends its launch ABORT (R340). -/
def State.loseTile (s : State) (t : Nat) : State :=
  match (s.site t).krn.launch with
  | some l => ((mapGet? s.launches l).map fun la => s.abort l la).getD s
  | none => s

/-- A free tile of the same mast; the lowest one (DESIGN CHOICE, log 56). -/
def State.spareOf (s : State) (t : Nat) : Option Nat :=
  let n := (s.site t).krn.tenant
  let free := (List.range 2048).filterMap fun i =>
    let u := s.placeOf t / 2048 * 2048 + i
    if s.isFree u && u != t then some u else none
  match free.find? fun u => s.inPartition n u with
  | some u => some u
  | none => free.head?

/-- RESUME (R322): power has returned after a loss, or a gate wakes. A gate that finds no valid commit fails its launch (R340), or is ON
where its tile has been released meanwhile (R330). -/
def execResume (t : Nat) (s : State) : Result :=
  if !isTile t then .next s
  else
    let x := s.site t
    if x.powered && x.gate.st != .waking then .next s
    else
      match s.resumeTile t with
      | none => .next (if x.gate.st != .waking then s else if x.krn.launch.isNone then s.woken t else s.loseTile t)
      | some s => .next (if x.gate.st = .waking then s.woken t else (s.thaw t).unmark t)

/-- An own-cause halt that came after commit word w goes with its trap (R335); a stop of a group stays. -/
def State.undoHalt (s : State) (t : Nat) (w : CommitWord) : State :=
  let x := s.site t
  if !x.ownHalt || x.ownAt ≤ w.cycle then s
  else
    let held := x.heldg != 0
    let s := s.modSite t fun x =>
      { x with ownHalt := false, haltReq := x.haltReq && held, halted := x.halted && held, lastg := if held then x.lastg else 0 }
    if x.halted && !held then s.note 2 t else s

/-- The records of trap sequences that ended after commit word w: the restored contexts know nothing of them, or take them again (R335). -/
def State.undoRecords (s : State) (t : Nat) (w : CommitWord) : State :=
  let again := (s.site t).core.ctxs.toList.filterMap (·.trap)
  s.dropRecords t fun r => decide (w.cycle < (r.getD 7 0).toNat) || again.contains r

/-- ECC_ROLLBACK (R335): the tile resumes from its last valid commit, and a trap taken since then is discarded with its halt and its
record; without a commit it is recovered as R340 states. -/
def execEccRollback (t : Nat) (s : State) : Result :=
  if !isTile t then .next s
  else if !(s.site t).rollback || !(s.site t).up then .next s
  else
    let w := ((s.site t).ballast.newest t).getD { seq := 0, epoch := 0, cycle := 0, tile := t, lines := 0, ok := false }
    match (s.undoHalt t w).resumeTile t with
    | some u => .next ((((u.undoRecords t w).modSite t fun x => { x with rollbacks := x.rollbacks ++ [s.cycle] }).thaw t).unmark t)
    | none => .next ((s.modSite t fun x => { x with rollback := false }).loseTile t)

/-- POWER_RETURN_TIMEOUT (R340): after 1 ms, or at once without a valid commit, the last valid commit is restored onto a free
tile of the same mast, or the launch fails. A halted tile stays where it is until it resumes (R338). -/
def execPowerReturnTimeout (t : Nat) (s : State) : Result :=
  if !isTile t then .next s
  else
    let x := s.site t
    if x.powered || x.halted || ((x.ballast.newest t).isSome && decide (s.cycle < x.lostAt + 1600000)) then .next s
    else
      match s.spareOf t with
      | none => .next (s.loseTile t)
      | some u =>
        let old := s.placeOf t
        match s.resumeTile t with
        | some s => .next ((((s.moveTo t u).vacate old).thaw t).unmark t)
        | none => .next (s.loseTile t)

end Sys2Proof.Machine
end

