-- ==== Sys2Proof/Machine/Link.lean ====
section
/-! DEFINITION. Bridges (R306), span ports (R307, R308), transfers (R309), receive counters and the counter
engine (R310, R311), triggered sends (R312, R313), CNTRD and CNTSET (R314). -/

namespace Sys2Proof.Machine

/-! Bridges. -/

def setBridge (s : State) (b : Nat) (st : BridgeSt) : State := { s with bridges := s.bridges.setIfInBounds b st }

/-- BRIDGE_DEGRADE (R306). -/
def execBridgeDegrade (b : Nat) (s : State) : Result :=
  if 8 ≤ b then .next s
  else if s.bridges[b]? = some .up then .next ((setBridge s b .degraded).worsen .degraded)
  else .next s

/-- BRIDGE_DOWN (R306): launches whose group needs the bridge end ABORT (R358). -/
def execBridgeDown (b : Nat) (s : State) : Result :=
  if 8 ≤ b then .next s
  else if s.bridges[b]? = some .degraded then
    let s := (setBridge s b .down).worsen .replace
    .next ((s.launches.filter fun e => (bridgesOf e.2.members).contains b && !e.2.members.isEmpty).foldl
      (fun (s : State) e => ((mapGet? s.launches e.1).map fun la => s.abort e.1 la).getD s) s)
  else .next s

/-! Span ports. -/

def State.port (s : State) (p : Nat) : SpanPort := mapGetD s.spans p {}
def State.setPort (s : State) (p : Nat) (x : SpanPort) : State := { s with spans := mapPut s.spans p x }

/-- An event of port p. -/
def atPort (p : Nat) (s : State) (f : SpanPort → State) : Result :=
  if 16 ≤ p then .next s else .next (f (s.port p))

def SpanSt.runs : SpanSt → Bool
  | .up | .degraded => true
  | _ => false

def lanesOf (l : BitVec 8) : Nat := ((List.range 8).filter fun i => l.getLsbD i).length

/-- The port toward a device: the primary one, else the alternate, unless DOWN (R309). -/
def State.routeTo (s : State) (dev : Nat) : Option Nat :=
  match s.routes.find? fun r => r.1 == dev with
  | some (_, a, b) => [a, b].find? fun p => (s.port p).st != .down
  | none => none

/-! Frames (R307). -/

/-- While the port runs, loads that wait become frames as far as the replay buffer of 256 has room, and go on the wire. -/
def SpanPort.pump (x : SpanPort) : SpanPort :=
  if x.st.runs then
    let go := x.txq.take (256 - x.replay.length)
    let fs := (List.range go.length).zipWith (fun i l => ({ seq := x.txSeq + BitVec.ofNat 16 i, good := true, load := l } : SpanFrame)) go
    { x with txq := x.txq.drop go.length, txSeq := x.txSeq + BitVec.ofNat 16 go.length, replay := x.replay ++ fs, wire := x.wire ++ fs }
  else x

/-- Sending resumes at the replay point: the frames that are not acknowledged go again, then the waiting loads. -/
def SpanPort.resumed (x : SpanPort) : SpanPort := { x with wire := x.wire ++ x.replay }.pump

/-- A word of the link layer itself goes on the wire; it has no place in the sequence. -/
def SpanPort.say (x : SpanPort) (l : SpanLoad) : SpanPort := { x with wire := x.wire ++ [{ seq := 0, good := true, load := l }] }

/-- a does not come after b in serial order. -/
def seqLe (a b : BitVec 16) : Bool := (b - a).toNat < 2 ^ 15

/-- The peer reports its receive side halted, or that it goes on (R308). -/
def SpanPort.peerHalt (x : SpanPort) : SpanPort := if x.st.runs then { x with st := .haltHold, before := x.st } else x

def SpanPort.peerResume (x : SpanPort) : SpanPort :=
  if x.st = .haltHold then { x with st := x.before : SpanPort }.resumed else x

/-- The peer acknowledges every frame up to one, or asks for all from one on; or it reports a halt or a resume. -/
def SpanPort.heard (x : SpanPort) (l : SpanLoad) : SpanPort :=
  match l with
  | .ack n => { x with replay := x.replay.filter fun f => !seqLe f.seq n }.pump
  | .replay n => { x with wire := x.wire ++ x.replay.filter fun f => seqLe n f.seq }
  | .halted => x.peerHalt
  | .resumed => x.peerResume
  | _ => x

/-- A load joins a port. -/
def State.pushFrame (s : State) (p : Nat) (l : SpanLoad) : State :=
  let x := s.port p
  s.setPort p { x with txq := x.txq ++ [l] }.pump

/-- A load toward a device: it waits until a route is UP (R309). -/
def State.toDevice (s : State) (dev : Nat) (l : SpanLoad) : State :=
  match s.routeTo dev with
  | some p => s.pushFrame p l
  | none => { s with spanWait := s.spanWait ++ [(dev, l)] }

/-- Loads that wait for a route try again. -/
def State.flushSpan (s : State) : State :=
  s.spanWait.foldl (fun (s : State) e => s.toDevice e.1 e.2) { s with spanWait := [] }

/-- The device that a load goes to. -/
def loadDest : SpanLoad → Nat
  | .landing _ dst _ _ _ _ _ _ _ | .notice _ dst _ => dst
  | .done src _ _ | .refused src _ _ _ _ | .noticed src _ _ => src
  | .ack _ | .replay _ | .halted | .resumed => 0

/-- A landing or notice of a transfer of device me: TRANSFER_RESEND sends it again. -/
def loadOwn (me : Nat) : SpanLoad → Bool
  | .landing src _ _ _ _ _ _ _ _ | .notice src _ _ => src == me
  | _ => false

/-- A port goes DOWN: its transfers wait to be moved, and its other loads take another route or wait for one (R309). -/
def portDown (s : State) (p : Nat) (x : SpanPort) : State :=
  let left := (x.replay.map (·.load) ++ x.txq).filter fun l => !loadOwn s.device l
  let s := s.setPort p { x with st := .down, used := 0, replay := [], txq := [] }
  let s := { s with xfers := s.xfers.map fun (t : Transfer) => if t.port = some p then { t with port := none } else t }
  (left.foldl (fun (s : State) l => s.toDevice (loadDest l) l) s).worsen .degraded

/-! Port states (R308). -/

/-- SPAN_ENABLE: a DOWN port trains. -/
def execSpanEnable (p : Nat) (s : State) : Result :=
  atPort p s fun x => if x.st = .down then s.setPort p { x with st := .training, lanes := 0xFF, txSeq := 0, rxSeq := 0, replay := [] } else s

/-- A port has trained: what it holds goes out, and what waits for a route; its peer hears of a halt that stands. -/
def State.portUp (s : State) (p : Nat) (x : SpanPort) : State :=
  (s.setPort p (if s.spanStop then x.resumed.say .halted else x.resumed)).flushSpan

/-- SPAN_TRAINING_DONE: by the lanes that pass, of those that remain. -/
def execSpanTrainingDone (p : Nat) (lanes : BitVec 8) (s : State) : Result :=
  atPort p s fun x =>
    if x.st ≠ .training then s
    else
      let l := lanes &&& x.lanes
      let n := lanesOf l
      if n = 8 then s.portUp p { x with st := .up, used := 8, lanes := l }
      else if 4 ≤ n then (s.portUp p { x with st := .degraded, used := 4, lanes := l }).worsen .degraded
      else if 2 ≤ n then (s.portUp p { x with st := .degraded, used := 2, lanes := l }).worsen .degraded
      else portDown s p x

/-- SPAN_TRAINING_TIMEOUT. -/
def execSpanTrainingTimeout (p : Nat) (s : State) : Result :=
  atPort p s fun x => if x.st = .training then portDown s p x else s

/-- SPAN_LANE_FAIL (R307, R308): the port retrains at the lanes that remain; its replay buffer stays. -/
def execSpanLaneFail (p lane : Nat) (s : State) : Result :=
  if 8 ≤ lane then .next s
  else atPort p s fun x =>
    if x.st.runs then s.setPort p { x with st := .training, lanes := x.lanes &&& ~~~ (1#8 <<< lane) } else s

/-- SPAN_PEER_HALT and SPAN_PEER_RESUME. -/
def execSpanPeerHalt (p : Nat) (s : State) : Result :=
  atPort p s fun x => s.setPort p x.peerHalt

def execSpanPeerResume (p : Nat) (s : State) : Result :=
  atPort p s fun x => s.setPort p x.peerResume

def execSpanPeerLost (p : Nat) (s : State) : Result := atPort p s fun x => portDown s p x
def execSpanDisable (p : Nat) (s : State) : Result := atPort p s fun x => portDown s p x

/-- A report of this device's span engine leaves by every port that has a peer. -/
def State.report (s : State) (l : SpanLoad) : State :=
  { s with spans := s.spans.map fun (e : Nat × SpanPort) => (e.1, if e.2.st.runs || e.2.st == .haltHold then e.2.say l else e.2) }

/-- The helm stops and restarts the span engine for debug: the peers hear that the receive side is halted, and that it goes on (R308). -/
def execSpanEngineDebugStop (s : State) : Result := .next (({ s with spanStop := true } : State).report .halted)
def execSpanEngineDebugResume (s : State) : Result := .next (({ s with spanStop := false } : State).report .resumed)

/-! Transfers. -/

/-- The loads of a transfer: its landings, or its release notice. -/
def Transfer.loads (t : Transfer) (me : Nat) : List SpanLoad :=
  if t.noticed then [.notice me t.dev t.num]
  else t.landings.map fun l => .landing me t.dev t.num l.idx t.total t.pid l.target t.cnt l.bytes

/-- Puts a transfer on a port that leads to its device. -/
def State.launchTransfer (s : State) (t : Transfer) : State × Transfer :=
  match s.routeTo t.dev with
  | some p => ((t.loads s.device).foldl (fun s l => s.pushFrame p l) s, { t with port := some p })
  | none => (s, { t with port := none })

/-- TRANSFER_RESEND (R309): transfer x, without a port, is sent on a route that stands. -/
def execTransferResend (x : Nat) (s : State) : Result :=
  match s.xfers.find? fun t => t.num.toNat == x with
  | none => .next s
  | some t =>
    if t.port.isSome then .next s
    else
      let (s, t') := s.launchTransfer t
      .next { s with xfers := s.xfers.map fun u => if u.num = t.num then t' else u }

/-- A landing of transfer num of device src. -/
def loadOfXfer (src : Nat) (num : BitVec 32) : SpanLoad → Bool
  | .landing d _ n _ _ _ _ _ _ => d == src && n == num
  | _ => false

/-- Landings of a transfer whose receiver has counted them all, and that are not yet frames, are dropped. -/
def State.dropXfer (s : State) (src : Nat) (num : BitVec 32) : State :=
  { s with spans := s.spans.map fun (e : Nat × SpanPort) => (e.1, { e.2 with txq := e.2.txq.filter fun l => !loadOfXfer src num l }),
           spanWait := s.spanWait.filter fun e => !loadOfXfer src num e.2 }

/-- A port may still send a landing of the transfer: its replay buffer holds one. -/
def State.holdsXfer (s : State) (src : Nat) (num : BitVec 32) : Bool :=
  s.spans.any fun e => e.2.replay.any fun f => loadOfXfer src num f.load

/-- TRANSFER_ACK (R309): the acknowledged transfer leaves the resend set, and its release notice is sent, once no port still holds a frame
with a landing of it, so that none arrives after the notice (DEDUCED, log 113). -/
def execTransferAck (x : Nat) (s : State) : Result :=
  match s.xfers.find? fun t => t.num.toNat == x && t.acked && !t.noticed with
  | none => .next s
  | some t =>
    let s := s.dropXfer s.device t.num
    if s.holdsXfer s.device t.num then .next s
    else
      let (s, t') := s.launchTransfer { t with landings := [], noticed := true }
      .next { s with xfers := s.xfers.map fun u => if u.num = t.num then t' else u }

/-- RELEASE_NOTICE (R309): the record is freed and the notice acknowledged; where all records were in use, the peers may send again what
found none. -/
def State.released (s : State) (dev : Nat) (x : BitVec 32) : State :=
  let full := decide (65536 ≤ s.xrecs.length)
  let s := s.toDevice dev (.noticed dev s.device x)
  { s with xrecs := s.xrecs.filter fun r => !(r.src == dev && r.num == x),
           spans := if full then s.spans.map fun (e : Nat × SpanPort) => (e.1, e.2.say (.replay e.2.rxSeq)) else s.spans }

def execReleaseNotice (dev x : Nat) (s : State) : Result := .next (s.released dev (BitVec.ofNat 32 x))

/-- A landing joins those under way, under a key of its own. -/
def State.takeIn (s : State) (i : Incoming) : State := { s with incoming := s.incoming ++ [{ i with key := s.fresh }], fresh := s.fresh + 1 }

/-- A landing reaches this device: a duplicate, or one of a transfer that a fault has abandoned, is dropped, a new one waits to be
written; none where no record is free (R309, R313). -/
def State.receive (s : State) (i : Incoming) : Option State :=
  match s.xrecs.find? fun r => r.src == i.src && r.num == i.num with
  | some r =>
    if r.dead || r.got.contains i.idx then some s
    else
      let r' := { r with got := r.got ++ [i.idx] }
      some (({ s with xrecs := s.xrecs.map fun q => if q = r then r' else q } : State).takeIn i)
  | none =>
    if 65536 ≤ s.xrecs.length then none
    else some (({ s with xrecs := s.xrecs ++ [{ src := i.src, num := i.num, got := [i.idx], done := 0 }] } : State).takeIn i)

/-- A fault that ended a transfer of this device: the error record of R313. -/
def State.sendError (s : State) (tenant : Nat) (cause : BitVec 8) (cnt addr : Nat) : State := s.errRing tenant cause.toNat 0 cnt addr

/-- What a frame brings; none where it cannot be taken yet: a landing that finds no record, or a release notice on its way to another
device that would pass a landing of its transfer (DEDUCED, log 113). -/
def State.deliver (s : State) (l : SpanLoad) : Option State :=
  match l with
  | .landing src dst x idx total pid target cnt bytes =>
    if dst ≠ s.device then some (s.toDevice dst l)
    else s.receive { key := 0, src := src, num := x, idx := idx, total := total, pid := pid, target := target, cnt := cnt, bytes := bytes }
  | .done src _ x =>
    if src ≠ s.device then some (s.toDevice src l)
    else some { s with xfers := s.xfers.map fun t => if t.num = x then { t with acked := true } else t }
  | .refused src _ x cause addr =>
    if src ≠ s.device then some (s.toDevice src l)
    else
      let s := match s.xfers.find? fun t => t.num == x && !t.acked with
        | some t => s.sendError t.tenant cause t.cnt addr.toNat
        | none => s
      some { s with xfers := s.xfers.map fun t => if t.num = x then { t with acked := true } else t }
  | .notice src dst x =>
    if dst = s.device then some (s.released src x)
    else if s.holdsXfer src x then none
    else some ((s.dropXfer src x).toDevice dst l)
  | .noticed src _ x =>
    if src ≠ s.device then some (s.toDevice src l)
    else some { s with xfers := s.xfers.filter fun t => !(t.num == x && t.noticed) }
  | .ack _ | .replay _ | .halted | .resumed => some s

/-- A word of the link layer. -/
def loadIsLink : SpanLoad → Bool
  | .ack _ | .replay _ | .halted | .resumed => true
  | _ => false

/-- SPAN_FRAME_RECEIVE (R307): a good frame in sequence is delivered once and acknowledged, a repeated one acknowledged again; after a
bad or an early one the receiver asks for the missing frame. -/
def execSpanFrameReceive (p : Nat) (f : SpanFrame) (s : State) : Result :=
  atPort p s fun x =>
    if !(x.st.runs || x.st == .haltHold) || s.spanStop then s
    else if f.good && loadIsLink f.load then s.setPort p (x.heard f.load)
    else if !f.good then s.setPort p (x.say (.replay x.rxSeq))
    else if f.seq = x.rxSeq then
      match s.deliver f.load with
      | some s' => s'.setPort p ({ (s'.port p) with rxSeq := x.rxSeq + 1 }.say (.ack x.rxSeq))
      | none => s
    else if seqLe f.seq x.rxSeq then s.setPort p (x.say (.ack (x.rxSeq - 1)))
    else s.setPort p (x.say (.replay x.rxSeq))

/-! Landings (R310). -/

/-- Counter c is assigned to tenant n. -/
def State.ownsCounter (s : State) (n c : Nat) : Bool := ((mapGet? s.tenants n).map fun t => t.cfg.counters.contains c).getD false

/-- The packets of a landing: offsets and lengths, each within one 256-byte-aligned range. -/
def cutRanges (a : Nat) : Nat → Nat → Nat → List (Nat × Nat)
  | 0, _, _ => []
  | fuel + 1, o, n =>
    if n = 0 then []
    else
      let k := min n (256 - (a + o) % 256)
      (o, k) :: cutRanges a fuel (o + k) (n - k)

/-- What DEV checks of a landing itself (R312, R313). -/
def State.landTrap (s : State) (i : Incoming) : Option (BitVec 8) :=
  let n := i.pid.toNat / 4096
  let w := i.target.toNat
  if 64 ≤ i.cnt || !s.ownsCounter n i.cnt then some cACCESS
  else if bits w 62 2 = 0 then
    let t := bits w 32 13
    if !s.activeOf t n || decide (0x5C000 < bits w 0 19 + i.bytes.length) then some cACCESS
    else if s.isOff t then some cGATED
    else none
  else if 2 ^ 54 < bits w 0 62 + i.bytes.length then some cPAGE
  else none

/-- Packet j of a landing leaves the helm die for the landing's home: a tile, or the halyard core that owns its chunk; on VC3
(DESIGN CHOICE, log 74). -/
def State.sendLanding (s : State) (i : Incoming) (j o n : Nat) : State :=
  let w := i.target.toNat
  let bs := (i.bytes.drop o).take n
  let body := (n + 31) / 32
  if bits w 62 2 = 0 then s.sendTo helmDie (bits w 32 13) 3 body (.cpWrite helmDie i.key j (bits w 0 19 + o) bs)
  else
    let va := bits w 0 62 + o
    s.sendTo helmDie (Config.tiles + vaCore va) 3 body
      (.global { op := .write bs, va := BitVec.ofNat 64 va, pid := i.pid, site := helmDie, ctx := 0, id := 0, piece := some (i.key, j) })

/-- A fault abandons a transfer (R313): no more of its landings is written or counted. -/
def State.abandon (s : State) (x : Incoming) (cause : BitVec 8) : State :=
  let s := { s with incoming := s.incoming.filter fun y => !(y.src == x.src && y.num == x.num),
                    xrecs := s.xrecs.map fun (r : XferRec) => if r.src = x.src ∧ r.num = x.num then { r with dead := true } else r }
  if x.src = s.device then s.sendError (x.pid.toNat / 4096) cause x.cnt x.target.toNat
  else s.toDevice x.src (.refused x.src s.device x.num cause x.target)

/-- A landing whose bytes are all performed is counted; with the last one the transfer is acknowledged (R309). -/
def State.countLanding (s : State) (x : Incoming) : State :=
  let s := { s with incoming := s.incoming.filter fun y => y.key != x.key, incs := s.incs ++ [(x.cnt, x.bytes.length)] }
  if x.src = s.device then s
  else
    let s := { s with xrecs := s.xrecs.map fun (r : XferRec) => if r.src = x.src ∧ r.num = x.num then { r with done := r.done + 1 } else r }
    if s.xrecs.any fun r => r.src == x.src && r.num == x.num && decide (x.total ≤ r.done) then
      s.toDevice x.src (.done x.src s.device x.num)
    else s

/-- LANDING_COUNT: landing i of those under way is sent to its home, and counted once its home has acknowledged every byte. -/
def execLandingCount (i : Nat) (s : State) : Result :=
  match s.incoming[i]? with
  | none => .next s
  | some x =>
    match x.st with
    | .fresh =>
      match s.landTrap x with
      | some cause => .next (s.abandon x cause)
      | none =>
        let ps := cutRanges (bits x.target.toNat 0 54) x.bytes.length 0 x.bytes.length
        let js := List.range ps.length
        let s := { s with incoming := s.incoming.set i { x with st := .sent js } }
        .next ((js.zip ps).foldl (fun (s : State) p => s.sendLanding x p.1 p.2.1 p.2.2) s)
    | .sent _ => .next s
    | .answered cause => .next (if cause = 0 then s.countLanding x else s.abandon x cause)

/-! Firing (R313). -/

/-- The read of n bytes from o on of the source of a fired send, as range j under key: a packet on VC3 to the NI of the tile that the
source named when the send was armed (R315), or to the owning halyard core; or, where there is no such home, its fault
(DESIGN CHOICE, log 74). -/
def State.readSource (s : State) (a : Armed) (key j o n : Nat) : State × Option (List Byte × BitVec 8) :=
  let tile := fun (off : Nat) => match a.home with
    | some t => (s.sendTo helmDie t 3 0 (.cpRead helmDie key j (off + o) n), none)
    | none => (s, some ([], cACCESS))
  match copySpace a.d.src with
  | .scratch x => tile x.toNat
  | .window w => tile (winOff w)
  | .global g =>
    let va := g.toNat + o
    if 2 ^ 54 ≤ va then (s, some ([], cPAGE))
    else
      let r : GReq := { op := .read n, va := BitVec.ofNat 64 va, pid := a.pid, site := helmDie, ctx := 0, id := 0, piece := some (key, j), vc := 3 }
      (s.sendTo helmDie (Config.tiles + vaCore va) 3 0 (.global r), none)
  | .bad => (s, some ([], cACCESS))

/-- A send fires: its source is read in ascending order, range by range. -/
def State.fire (s : State) (a : Armed) : State :=
  let key := s.fresh
  let ps := cutRanges (bits a.d.src.toNat 0 54) a.d.len 0 a.d.len
  let one := fun (acc : State × List (Option (List Byte × BitVec 8))) (p : Nat × Nat × Nat) =>
    let r := acc.1.readSource a key p.1 p.2.1 p.2.2
    (r.1, acc.2 ++ [r.2])
  let (s, parts) := ((List.range ps.length).zip ps).foldl one ({ s with fresh := key + 1 }, [])
  { s with firing := s.firing ++ [{ key := key, a := a, parts := parts }] }

/-- Pieces of a destination within one unit of u bytes (DESIGN CHOICE, log 43). -/
def cutLandings (u : Nat) (dst : Word) (bs : List Byte) : Nat → Nat → List Landing
  | 0, _ => []
  | fuel + 1, idx =>
    if bs.isEmpty then []
    else
      let k := u - dst.toNat % u
      { idx := idx, target := dst, bytes := bs.take k } :: cutLandings u (dst + BitVec.ofNat 64 k) (bs.drop k) fuel (idx + 1)

/-- The bytes of a send leave: to this device, or as a transfer to another. -/
def State.launchBytes (s : State) (a : Armed) (bs : List Byte) : State :=
  let u := if bits a.d.dst.toNat 62 2 = 0 then 256 else 2048
  let ls := cutLandings u a.d.dst bs bs.length 0
  let num := s.nextX
  let s := { s with nextX := num + 1 }
  if a.d.dev = s.device then
    ls.foldl (fun (s : State) l => s.takeIn { key := 0, src := s.device, num := num, idx := l.idx, total := ls.length, pid := a.pid,
                                              target := l.target, cnt := a.d.dcnt, bytes := l.bytes }) s
  else
    let t : Transfer := { num := num, dev := a.d.dev, tenant := a.tenant, pid := a.pid, cnt := a.d.dcnt, total := ls.length,
                          landings := ls, port := none }
    let (s, t) := s.launchTransfer t
    { s with xfers := s.xfers ++ [t] }

/-- The source of a fired send is read, or the first fault of its reads abandons it (R313). -/
def State.fired (s : State) (f : Firing) : State :=
  let a := f.a
  match f.parts.findSome? fun p => p.bind fun x => if x.2 = 0 then none else some x.2 with
  | some cause => s.sendError a.tenant cause a.cnt a.d.src.toNat
  | none => (if a.d.sc then { s with incs := s.incs ++ [(a.d.scnt, a.d.len)] } else s).launchBytes a
      (f.parts.flatMap fun p => (p.map (·.1)).getD [])

/-- Every read of the source is answered. -/
def Firing.whole (f : Firing) : Bool := f.parts.all (·.isSome)

/-- The entry of a send that fires is freed. -/
def State.freeArm (s : State) (a : Armed) : State :=
  match mapGet? s.tenants a.tenant with
  | some te => { s with tenants := mapPut s.tenants a.tenant { te with arms := te.arms - 1 } }
  | none => s

/-! The counter engine (R311). -/

def State.counter (s : State) (c : Nat) : Word := mapGetD s.counters c 0
def State.setCounter (s : State) (c : Nat) (x : Word) : State := { s with counters := mapPut s.counters c x }

/-- Step 1: a CNTSET, acknowledged. -/
def cntSet (s : State) (r : CntReq) : State :=
  match r.op with
  | .set v => (s.setCounter r.cnt v).sendTo helmDie r.site 1 0 (.ack r.ctx helmDie r.id none)
  | _ => s

/-- Reads after step 2. -/
def cntRead (s : State) (r : CntReq) : State :=
  match r.op with
  | .read => s.sendTo helmDie r.site 1 0 (.resp r.ctx r.id { val := (s.counter r.cnt).setWidth 256 })
  | _ => s

/-- Step 3: an arm; the table of a tenant that is gone or that is being deleted takes none (R315, R356). -/
def cntArm (s : State) (r : CntReq) : State :=
  match r.op with
  | .arm d thr =>
    let a : Armed := { d := d, cnt := r.cnt, thr := thr, tenant := r.tenant, pid := r.pid, home := r.home, site := r.site }
    match mapGet? s.tenants r.tenant with
    | some te => if te.leaving then s.freeArm a else { s with armed := s.armed ++ [a] }
    | none => s
  | _ => s

/-- COUNTER_ENGINE_CYCLE: the events of one cycle in their order; sends that fired earlier and whose source is read go first. -/
def execCounterEngineCycle (s : State) : Result :=
  let q := s.cntq
  let incs := s.incs
  let late := s.firing.filter Firing.whole
  let s := { s with cntq := [], incs := [], firing := s.firing.filter fun f => !f.whole }
  let s := late.foldl State.fired s
  let s := q.foldl cntSet s
  let s := incs.foldl (fun (s : State) i => s.setCounter i.1 (s.counter i.1 + BitVec.ofNat 64 i.2)) s
  let s := q.foldl cntRead s
  let s := q.foldl cntArm s
  let due := s.armed.filter fun a => decide (a.thr.toNat ≤ (s.counter a.cnt).toNat)
  let s := { s with armed := s.armed.filter fun a => decide ((s.counter a.cnt).toNat < a.thr.toNat) }
  .next (due.foldl State.fire (due.foldl State.freeArm s))

/-! Instructions. -/

/-- The running site may name counter c: it is assigned to its tenant, or the site belongs to none. -/
def State.mayCount (s : State) (c : Word) : Bool :=
  decide (c.toNat < 64) && (!isTile s.cur.1 || s.ownsCounter s.me.krn.tenant c.toNat)

/-- Counter c is assigned to the tenant of the running site (R313). -/
def State.mayArm (s : State) (c : Word) : Bool :=
  decide (c.toNat < 64) && s.me.krn.launch.isSome && s.ownsCounter s.me.krn.tenant c.toNat

def State.cntReq (s : State) (op : CntOp) (c : Word) (home : Option Nat) : CntReq :=
  { op := op, cnt := c.toNat, tenant := s.me.krn.tenant, pid := s.me.krn.pid, home := home, site := s.cur.1,
    ctx := s.cur.2.val, id := s.ctx.reqid }

/-- The tile of a source in a scratchpad, now (R315). -/
def State.sourceHome (s : State) (d : SendDesc) : Option Nat :=
  match copySpace d.src with
  | .scratch _ => some s.cur.1
  | .window w => s.memberTile s.cur.1 (winMember w)
  | _ => none

/-- The fields of a descriptor (R312). -/
def sendDesc (b : List Byte) : SendDesc :=
  { src := BitVec.ofNat 64 (field b 0 8), dst := BitVec.ofNat 64 (field b 8 8), len := field b 16 4, dev := field b 20 2,
    dcnt := field b 22 1, sc := bit (field b 23 1) 0, scnt := field b 24 1 }

/-- What the arming device can check of a descriptor (R312, R313). -/
def State.descOk (s : State) (b : List Byte) : Bool :=
  let d := sendDesc b
  let w := d.dst.toNat
  let dstOk := match bits w 62 2 with
    | 0 => bits w 19 13 == 0 && bits w 45 17 == 0 && decide (bits w 0 19 + d.len ≤ 0x5C000)
    | 2 => bits w 54 8 == 0
    | _ => false
  let srcOk := match copySpace d.src with
    | .bad => false
    | _ => true
  srcOk && d.src.toNat % 32 == 0 && dstOk && w % 32 == 0 && d.len % 32 == 0 && decide (32 ≤ d.len) && decide (d.len ≤ 2 ^ 24) &&
    decide (d.dev < 16384) && decide (d.dcnt < 64) && decide (field b 23 1 < 2) &&
    decide (d.scnt < 64) && (!d.sc || s.mayArm (BitVec.ofNat 64 d.scnt)) && (List.range 7).all fun i => field b (25 + i) 1 == 0

/-- The source checks of TSEND. -/
def State.srcCheck (s : State) (d : SendDesc) : Option Trap :=
  match copySpace d.src with
  | .scratch a => checkLocal a d.len
  | .window w => s.wcheck s.cur.1 w d.len
  | _ => none

def State.armsHeld (s : State) : Nat := ((mapGet? s.tenants s.me.krn.tenant).map (·.arms)).getD 0

def execTsend (d a b : Fin 32) (s : State) : Result :=
  issue (.tsend d a b) s fun s =>
    let x := s.ctx.sreg d
    let c := s.ctx.sreg a
    if x.toNat % 32 ≠ 0 then s.raise { cause := cALIGN, w3 := x }
    else s.guard (checkLocal x 32) fun s => s.guard (s.readTrap x 32) fun s =>
      let bytes := memBytes s.me.mem x.toNat 32
      let desc := sendDesc bytes
      if !s.mayArm c then s.raise { cause := cACCESS, w4 := c }
      else if !s.descOk bytes then s.raise { cause := cACCESS, w4 := x, w5 := 1 }
      else s.guard (s.srcCheck desc) fun s =>
        if 64 ≤ s.armsHeld then s.raise { cause := cACCESS, w4 := c, w5 := 2 }
        else s.afterCa fun s =>
          let n := s.me.krn.tenant
          let s := match mapGet? s.tenants n with
            | some te => { s with tenants := mapPut s.tenants n { te with arms := te.arms + 1 } }
            | none => s
          let t := s.sendTo s.cur.1 helmDie 0 1 (.counter (s.cntReq (.arm desc (s.ctx.sreg b)) c (s.sourceHome desc)))
          t.done 4 t.ctx

def execCntrd (d a : Fin 32) (s : State) : Result :=
  issue (.cntrd d a) s fun s =>
    let c := s.ctx.sreg a
    if !s.mayCount c then s.raise { cause := cACCESS, w4 := c }
    else (s.sendTo s.cur.1 helmDie 0 0 (.counter (s.cntReq .read c none))).await (.s d) 4 none

def execCntset (a b : Fin 32) (s : State) : Result :=
  issue (.cntset a b) s fun s =>
    let c := s.ctx.sreg a
    if !s.mayCount c then s.raise { cause := cACCESS, w4 := c }
    else
      let n := s.ctx.reqid
      let t := s.sendTo s.cur.1 helmDie 0 0 (.counter (s.cntReq (.set (s.ctx.sreg b)) c none))
      t.done 4 { t.ctx.post with unacked := t.ctx.unacked ++ [(helmDie, n)] }

end Sys2Proof.Machine
end

