-- ==== Sys2Proof/Machine/Power.lean ====
section
/-! DEFINITION. Power budget and issue control (R345 to R349). -/

namespace Sys2Proof.Machine

/-- The tile holds work of an ACTIVE group of tenant n. -/
def State.activeTile (s : State) (n t : Nat) : Bool := s.activeOf t n

/-- Clusters of tenant n with a tile of an ACTIVE group. -/
def State.activeClusters (s : State) (n : Nat) : List Nat :=
  (s.sites.filter fun e => s.activeTile n e.1).foldl (fun l e => setAdd l (clusterOf e.1)) []

/-- The budgets of an interval in nJ (R345): avail is G less what else the module drew. The division is rounded down (DESIGN CHOICE, log 33). -/
def State.budgetOf (s : State) (avail cl : Nat) : Nat :=
  match s.tenants.find? fun e => (s.activeClusters e.1).contains cl with
  | some (n, te) => avail * te.cfg.power * 8000 / (65536 * (s.activeClusters n).length)
  | none => 0

/-- A cluster at the start of an interval. -/
def Cluster.restart (k : Cluster) (budget peak : Nat) : Cluster :=
  { k with budget := budget, left := budget, any := false, peak := min peak 10000 }

/-- Held messages are tried again (R45) (DEDUCED, log 32). -/
def Core.undefer (k : Core) : Core :=
  { k with chq := vmap (fun q => q.map fun d => { d with deferred := false, atStart := false }) k.chq }

/-- The head of a channel queue seeks admission at the start of an interval (R46). -/
def seekHead : List Desc → List Desc
  | [] => []
  | d :: r => if d.runBy.isNone then { d with atStart := true } :: r else d :: seekHead r

/-- A site at the start of an interval: the heads that selection would take now seek admission at its start (R46). -/
def Site.atBoundary (x : Site) : Site :=
  let x := { x with core := x.core.undefer }
  let seek := if x.up && x.selects then (x.order.map (·.1)).filter fun ch => (x.core.freeCtx ch).isSome else []
  { x with core := { x.core with chq := Vector.ofFn fun ch => if seek.contains ch.val then seekHead x.core.chq[ch] else x.core.chq[ch] } }

/-! Dividers and voltages (R343). -/

/-- The lowest voltage, in mV, of a cluster with a tile of divider k (R343). -/
def lowestMv (k : Nat) : Nat := if k = 1 then 750 else if k = 2 then 650 else 550

/-- The tiles of a cluster all run at this voltage (R343). -/
def State.suits (s : State) (cl mv : Nat) : Bool :=
  (List.range 16).all fun j => decide (lowestMv (s.site (16 * cl + j)).divider ≤ mv)

/-- The issue slots of the running frame that have begun before cycle now (R344, R346). -/
def Site.slotsBegun (x : Site) (now : Nat) : Nat := x.slots + (now - x.frameFrom + x.divider - 1) / x.divider

/-- A divider takes effect: the slots of the running frame that are left come at the new one, and so does the slot after the last issue. -/
def Site.setDivider (x : Site) (now k : Nat) : Site :=
  { x with slots := x.slotsBegun now, frameFrom := now, divider := k,
           slotFrom := if x.slotFrom ≤ now then x.slotFrom else x.slotFrom - x.divider + k }

/-- A divider or a voltage takes effect; one that does not suit the other changes nothing. -/
def State.setRail (s : State) (w : HelmWrite) : State :=
  match w with
  | .divider t k =>
    if isTile t ∧ 1 ≤ k ∧ k ≤ 16 ∧ lowestMv k ≤ (mapGetD s.power.clusters (clusterOf t) {}).mv then
      s.modSite t fun x => x.setDivider s.cycle k
    else s
  | .voltage cl mv =>
    if cl < 512 ∧ mv % 10 = 0 ∧ 550 ≤ mv ∧ mv ≤ 850 ∧ s.suits cl mv then
      let k := mapGetD s.power.clusters cl {}
      { s with power := { s.power with clusters := mapPut s.power.clusters cl { k with mv := mv } } }
    else s
  | _ => s

/-- What the helm has set takes effect in the order in which it was set. -/
def State.setRails (s : State) : State :=
  let s' := s.power.rails.foldl State.setRail s
  { s' with power := { s'.power with rails := [] } }

/-- INTERVAL_BOUNDARY (R343, R345, R349): once for every 12,800 cycles of the grid; G, dividers and voltages change here alone, and
each change of G is logged (DESIGN CHOICE, log 54). `peaks` are the clusters that the helm gives a lower peak. -/
def execIntervalBoundary (otherWatts : Nat) (peaks : List (Nat × Nat)) (s : State) : Result :=
  if s.cycle / 12800 = s.interval then .next s
  else
    let s := s.setRails
    let g := s.power.next
    let avail := g - otherWatts
    let cls := ((s.power.clusters.map (·.1)) ++ (peaks.map (·.1)).filter (· < 512) ++
      (s.tenants.flatMap fun e => s.activeClusters e.1)).foldl setAdd []
    let power := cls.foldl (fun (p : Power) cl =>
      let k : Cluster := mapGetD p.clusters cl {}
      { p with clusters := mapPut p.clusters cl (k.restart (s.budgetOf avail cl) (mapGetD peaks cl 10000)) }) { s.power with grant := g }
    let s := if g = s.power.grant then s else s.note 5 g
    .next { s with power := power, interval := s.cycle / 12800,
                   sites := s.sites.map fun (e : Nat × Site) => (e.1, e.2.atBoundary) }

/-- The throttle level after a window that measured e nJ (R346), S being budget / 100. -/
def throttle (budget e level : Nat) : Nat :=
  if budget < 100 * e then min (level + 1) 15
  else if 10 * (100 * e) < 9 * budget then level - 1
  else level

/-- THROTTLE_WINDOW (R346): at the end of each window of 128 cycles of the grid. -/
def execThrottleWindow (cl e : Nat) (s : State) : Result :=
  if 512 ≤ cl then .next s
  else
    let k : Cluster := mapGetD s.power.clusters cl {}
    if s.cycle / 128 = k.window then .next s
    else
      let k' : Cluster := { k with level := throttle k.budget e k.level, window := s.cycle / 128 }
      .next { s with power := { s.power with clusters := mapPut s.power.clusters cl k' } }

/-- The weight of an activation (R347). -/
def Site.weight (x : Site) (y : Ctx) : Nat := if y.inTrap then 15 else entWeight (x.entry y.chan)

/-- A context that holds an activation; one whose abort is done holds none. -/
def Ctx.holds (y : Ctx) : Bool := y.rest != .empty && y.rest != .trapped

/-- The context with the largest deficit, the lowest number first. -/
def largest (l : List (Nat × Int)) : Option Nat :=
  (l.foldl (fun (b : Option (Nat × Int)) c => match b with
    | some x => if x.2 < c.2 then some c else some x
    | none => some c) none).map (·.1)

/-- One share of a frame: deficits grow by the weights, the largest is picked and pays their sum (R347). -/
def shareOnce (ws : List (Nat × Nat)) (ctxs : Vector Ctx 4) : Vector Ctx 4 :=
  let w := (ws.map (·.2)).sum
  let up := ws.foldl (fun (v : Vector Ctx 4) e =>
    let c := fin4 e.1
    v.set c { v[c] with deficit := v[c].deficit + e.2 }) ctxs
  match largest (ws.map fun e => (e.1, up[fin4 e.1].deficit)) with
  | some c =>
    let i := fin4 c
    up.set i { up[i] with quota := up[i].quota + 1, deficit := up[i].deficit - w }
  | none => up

def shareN (ws : List (Nat × Nat)) : Nat → Vector Ctx 4 → Vector Ctx 4
  | 0, v => v
  | n + 1, v => shareN ws n (shareOnce ws v)

/-- The frame of a site is over: its 16 issue slots, one every divider cycles, have passed (R344, R346). -/
def Site.frameOver (x : Site) (now : Nat) : Bool := decide (x.frameFrom + (16 - x.slots) * x.divider ≤ now)

/-- FRAME_BOUNDARY (R346, R347): after a frame the next one divides A = 16 − L among the contexts. -/
def execFrameBoundary (t : Nat) (s : State) : Result :=
  atSite t s fun s =>
    if !(s.site t).frameOver s.cycle then s
    else
    let k : Cluster := mapGetD s.power.clusters (clusterOf t) {}
    let a := 16 - (if isTile t then k.level else 0)
    s.modSite t fun x =>
      let ws := ((List.finRange 4).filter fun c => x.core.ctxs[c].holds).map fun c => (c.val, x.weight x.core.ctxs[c])
      let zero := vmap (fun y => { y with quota := 0 }) x.core.ctxs
      { x with frameFrom := s.cycle, slots := 0, issued := 0, allow := a, core := { x.core with ctxs := shareN ws a zero } }

/-! Rack power tokens (R348, R349). -/

/-- SEQ x is newer than y, modulo 2^32: older is (y − x) in 1 to 2^31 − 1. -/
def seqNewer (x y : BitVec 32) : Bool := x != y && !(decide (1 ≤ (y - x).toNat) && decide ((y - x).toNat ≤ 2 ^ 31 - 1))

/-- Session i is authenticated as the operator (R341). -/
def State.operates (s : State) (i : Nat) : Bool := ((s.sumac.sessions[i]?).map fun x => x.who == .operator).getD false

/-- POWER_TOKEN: 16 bytes in a session, which must be the operator's and is not idle then (R341); one with a nonzero byte in 6 to 15 is
discarded. -/
def execPowerToken (token : Nat × List (BitVec 8)) (s : State) : Result :=
  let (i, bytes) := token
  let seq : BitVec 32 := BitVec.ofNat 32 (field bytes 0 4)
  let watts := min 3000 (field bytes 4 2)
  let s := { s with sumac := { s.sumac with sessions := s.sumac.sessions.modify i fun (x : Session) => { x with lastAt := s.cycle } } }
  let good := s.operates i && bytes.length == 16 && (bytes.drop 6).all fun b => b == 0
  let accept := match s.power.seq with
    | none => true
    | some h => seqNewer seq h
  if good && accept then
    .next { s with power := { s.power with seq := some seq, next := watts, expiry := some (s.cycle + 160000000) } }
  else .next s

/-- TOKEN_EXPIRY: 100 ms without a newer token; the floor of 1,800 W from the next boundary. -/
def execTokenExpiry (s : State) : Result :=
  match s.power.expiry with
  | some x =>
    if x ≤ s.cycle then .next { s with power := { s.power with next := 1800, expiry := none } } else .next s
  | none => .next s

end Sys2Proof.Machine
end

