-- ==== Sys2Proof/Machine/Debug.lean ====
section
/-! DEFINITION. The HALTHOLD mark (R336) and the Sumac debug server (R341, R342). -/

namespace Sys2Proof.Machine

/-! HALTHOLD (R336): the mark of a context, from what it waits for. -/

/-- The halted bit that the NIs hold for a tile: it comes and goes with the halt mark of its routers (R336). -/
def State.isHalted (s : State) (t : Nat) : Bool := s.haltBits.contains t

/-- Some member of t's group is halted: the mark of BAR, BARW and PHWAIT (R204, R208). R336 names for them only a halted member that
has not arrived or signalled; the model keeps the wider mark, which gives both rules their mark (DEDUCED, log 75). -/
def State.memberHalted (s : State) (t : Nat) : Bool := (s.membersOf t).any s.isHalted

/-- A halted member among those whose signal the open phase of a phaser awaits (R336). -/
def State.phHeld (s : State) (t ph : Nat) : Bool :=
  match s.launchOf t with
  | none => false
  | some l =>
    let p := l.phasers[ph8 ph]
    p.regs.any fun m => m.countsFor p.phase && !m.signalled p.phase && ((l.members[m.member]?).map s.isHalted).getD false

/-- The owner of a versioned address is halted. -/
def State.verHeld (s : State) (t : Nat) (x : Word) : Bool :=
  match verAddr x with
  | some (true, a, _) => ((s.memberTile t (winMember a)).map s.isHalted).getD false
  | _ => false

/-- The partner end of a stream, or the receiver that its delivery waits on, is halted (R230). -/
def State.mxHeld (s : State) (t : Nat) (p : Fin 4) (close : Bool) : Bool :=
  match portTile t p.val with
  | none => false
  | some u =>
    let x := s.engine (portEngine t p.val)
    let rmem := match x.pending with
      | some d => some d.1
      | none => if x.parting.isSome then x.left.cfg.map cfgRmem else none
    s.isHalted u || (close && (rmem.map fun m => ((s.memberTile t m).map s.isHalted).getD false).getD false)

/-- The member that context c of site t awaits is halted. -/
def State.awaitsHalted (s : State) (t : Nat) (c : Fin 4) : Bool :=
  let x := s.site t
  let y := x.core.ctxs[c]
  if y.st ≠ .stalled then false
  else
    let owner := match y.wait with
      | .resp _ _ _ (some u) => isTile u && s.isHalted u
      | _ => false
    match s.pending t c with
    | some (.fence d) => 2 ≤ d.val && y.unacked.any fun u => s.isHalted u.1
    | some .pfenceG => y.owners.any fun m => ((s.memberTile t m).map s.isHalted).getD false
    | some (.bar _) | some (.barw _ _ _) | some (.phwait _ _ _) => s.memberHalted t
    | some (.phsig _ a) => s.phHeld t (y.sreg a).toNat
    | some (.vld _ a _) => match y.wait with
      | .retry _ => s.verHeld t (y.sreg a)
      | _ => owner
    | some (.mxpush _ p) | some (.mxpushm _ _ p) => s.mxHeld t p false
    | some (.mxclose p) => s.mxHeld t p true
    | some (.qpushw _ q) => q.val == 6 && s.isHalted (partnerOf t)
    | _ => owner

/-- A cycle passes for a context whose mark is h: the watchdog counts the cycle, or pauses (R144). -/
def Ctx.passCycle (y : Ctx) (h : Bool) : Ctx :=
  let y := { y with hold := h }
  { y with wdog := if y.watched then y.wdog + 1 else y.wdog }

/-- A cycle passes at site t: marks as they stand, the watchdogs, and the automatic interval, which a halt suspends (R321). -/
def State.markCtxs (s : State) (t : Nat) (x : Site) : Site :=
  { x with core := { x.core with ctxs := Vector.ofFn fun c => x.core.ctxs[c].passCycle (s.awaitsHalted t c) },
           ballast := { x.ballast with lastAt := if x.halted then x.ballast.lastAt + 1 else x.ballast.lastAt } }

/-! Sessions (R341). -/

/-- SUMAC_SESSION: at most eight sessions; a client whose certificate check fails gets none and is answered DENIED (R342), and in
recovery mode none but the operator gets one (R351). -/
def execSumacSession (who : Client) (authentic : Bool) (s : State) : Result :=
  let m := s.sumac
  if !authentic then .next { s with sumac := { m with denied := m.denied ++ [who] } }
  else if 8 ≤ m.sessions.length || s.boot.recovery && who != .operator then .next s
  else
    let new : Session := { num := m.nextNum, who := who, lastAt := s.cycle, answers := [] }
    .next { s with sumac := { m with sessions := m.sessions ++ [new], nextNum := m.nextNum + 1 } }

/-- SUMAC_SESSION_TIMEOUT: ten minutes of idleness close session i. What it stopped stays stopped. -/
def execSumacSessionTimeout (i : Nat) (s : State) : Result :=
  match s.sumac.sessions[i]? with
  | some x =>
    if x.lastAt + 960000000000 ≤ s.cycle then .next { s with sumac := { s.sumac with sessions := s.sumac.sessions.eraseIdx i } }
    else .next s
  | none => .next s

def may (w : Client) (n : Nat) : Bool :=
  match w with
  | .operator => true
  | .tenant m => m == n

def stOK : Nat := 0
def stDENIED : Nat := 1
def stBUSY : Nat := 2
def stRANGE : Nat := 3

/-- Answers request `code` of session i: f gives the status, the words of the answer and the state. -/
def request (i code : Nat) (s : State) (f : Client → Nat × List Word × State) : Result :=
  match s.sumac.sessions[i]? with
  | none => .next s
  | some x =>
    let (st, ws, s') := f x.who
    let y : Session := { x with lastAt := s.cycle, answers := x.answers ++ [(code, st, ws)] }
    .next { s' with sumac := { s'.sumac with sessions := s'.sumac.sessions.set i y } }

/-- The tenant of a tile: that of its group, else that of the partition that holds it. -/
def State.tenantOf (s : State) (t : Nat) : Option Nat :=
  if (s.site t).krn.launch.isSome then some (s.site t).krn.tenant
  else (s.tenants.find? fun e => s.inPartition e.1 t).map (·.1)

/-- Status of a request about tile t: RANGE for no tile, DENIED for another tenant's. -/
def State.tileStatus (s : State) (w : Client) (t : Nat) : Nat :=
  if !isTile t then stRANGE
  else match s.tenantOf t with
    | some n => if may w n then stOK else stDENIED
    | none => match w with
      | .operator => stOK
      | .tenant _ => stDENIED

def num (n : Nat) : Word := BitVec.ofNat 64 n

/-! The requests of R342. -/

/-- LIST: launches with their members, the stopped groups, the halted tiles (DESIGN CHOICE, log 48). -/
def execList (i : Nat) (s : State) : Result :=
  request i 1 s fun w =>
    let ls := s.launches.filter fun e => may w e.2.tenant
    let halted := s.sites.filter fun e => e.2.halted && ((s.tenantOf e.1).map (may w)).getD false
    let groups := s.sumac.stopped.filter fun g => may w g.1
    (stOK, (num ls.length :: ls.flatMap fun e =>
        num e.1 :: num e.2.handle.toNat :: num e.2.members.length :: e.2.members.flatMap fun t =>
          [num t, (s.site t).haltg.setWidth 64]) ++
      (num groups.length :: groups.map fun g => num (g.1 * 256 + g.2)) ++ (num halted.length :: halted.map fun e => num e.1), s)

/-- Status of SETGRP for tile t of launch l: of a launch that holds its tiles only its members can be named. -/
def State.setgrpStatus (s : State) (w : Client) (la : Launch) (t : Nat) : Nat :=
  if s.tileStatus w t ≠ 0 then s.tileStatus w t
  else if la.members.isEmpty || la.members.contains t then stOK else stRANGE

/-- SETGRP: MEMBER and DBG of named tiles of launch ts.1: at once where it holds its tiles, else for when it is placed on them. -/
def execSetgrp (i : Nat) (ts : Nat × List Nat) (groups : BitVec 8) (dbg : Bool) (s : State) : Result :=
  request i 2 s fun w =>
    match mapGet? s.launches ts.1 with
    | none => (stRANGE, [], s)
    | some la =>
      if !may w la.tenant then (stDENIED, [], s)
      else match (ts.2.map (s.setgrpStatus w la)).find? fun x => x != 0 with
      | some st => (st, [], s)
      | none =>
        let one := fun (s : State) (t : Nat) =>
          if la.members.contains t then s.modSite t fun x => { x with haltg := groups, dbg := dbg }
          else
            let rest := s.sumac.preset.filter fun p => !(p.1 == ts.1 && p.2.1 == t)
            { s with sumac := { s.sumac with preset := rest ++ [(ts.1, t, groups, dbg)] } }
        (stOK, [], ts.2.foldl one s)

def groupsOf (g : BitVec 8) : List Nat := (List.range 8).filter fun i => g.getLsbD i

/-- STOP: a stop on groups of tenant n. -/
def execStop (i n : Nat) (groups : BitVec 8) (s : State) : Result :=
  request i 3 s fun w =>
    if 16 ≤ n then (stRANGE, [], s)
    else if !may w n then (stDENIED, [], s)
    else
      let new := (groupsOf groups).map fun g => (n, g)
      let stopped := s.sumac.stopped ++ new.filter fun g => !s.sumac.stopped.contains g
      let s := s.raiseStop n groups none
      (stOK, [], { s with sumac := { s.sumac with stopped := stopped } })

/-- A tile that may go on resumes; a halt that has not taken place and that nothing asks for any more is dropped, and a context that
stood at its BRK for it goes on. -/
def State.tryResume (s : State) (t : Nat) : State :=
  (s.resumeNow t).modSite t fun x =>
    if x.ownHalt || x.heldg != 0 then x
    else { x with haltReq := false, core := { x.core with ctxs := vmap Ctx.passBrk x.core.ctxs } }

/-- RESUME: groups of tenant n, or the own-cause halt of one tile. -/
def execSumacResume (i n : Nat) (groups : BitVec 8) (own : Option Nat) (s : State) : Result :=
  request i 4 s fun w =>
    match own with
    | some t =>
      let st := s.tileStatus w t
      if st ≠ 0 then (st, [], s) else (stOK, [], (s.modSite t fun x => { x with ownHalt := false }).tryResume t)
    | none =>
      if 16 ≤ n then (stRANGE, [], s)
      else if !may w n then (stDENIED, [], s)
      else
        let ts := (s.sites.filter fun e => isTile e.1 && e.2.krn.tenant == n && e.2.heldg &&& groups != 0).map (·.1)
        let s := { s with sumac := { s.sumac with stopped := s.sumac.stopped.filter fun g =>
                     !(g.1 == n && (groupsOf groups).contains g.2) } }
        (stOK, [], ts.foldl (fun (s : State) t =>
          (s.modSite t fun x => { x with heldg := x.heldg &&& ~~~ groups }).tryResume t) s)

/-- Numbers of the context states in a record. -/
def CtxSt.code : CtxSt → Nat
  | .empty => 0
  | .running => 1
  | .stalled => 2
  | .dormant => 3
  | .trapped => 4
  | .halted => 5
  | .migrating => 6
  | .saved => 7

/-- The registers of a context as bytes: s, v, p, the pc, SY.FLAGS, mrow and mcol, lc, li, k, b. -/
def Ctx.image (y : Ctx) : List Byte :=
  y.s.toList.flatMap (fun x => leBytes 8 x.toNat) ++ y.v.toList.flatMap (fun x => leBytes 32 x.toNat) ++
    y.p.toList.flatMap (fun x => leBytes 4 x.toNat) ++ leBytes 8 y.pc.toNat ++ leBytes 8 y.flags.toNat ++
    leBytes 8 (y.mrow.toNat + y.mcol.toNat * 65536) ++ y.lp.toList.flatMap (fun l => leBytes 8 l.lc.toNat) ++
    y.lp.toList.flatMap (fun l => leBytes 8 l.li.toNat) ++
    y.k.toList.flatMap (fun k => leBytes 8 k.addr.toNat ++ leBytes 8 k.count) ++
    y.b.toList.flatMap (fun b => leBytes 8 (b.token.toNat + b2n b.pend * 65536))

/-- The context whose registers are the bytes of an image; s0 and p0 stay as they are. -/
def Ctx.ofImage (y : Ctx) (b : List Byte) : Ctx :=
  let w := fun (a : Nat) => BitVec.ofNat 64 (field b a 8)
  { y with s := Vector.ofFn fun i => if i = 0 then y.s[i] else w (8 * i.val),
           v := Vector.ofFn fun i => BitVec.ofNat 256 (field b (256 + 32 * i.val) 32),
           p := Vector.ofFn fun i => if i = 0 then y.p[i] else BitVec.ofNat 32 (field b (1280 + 4 * i.val) 4),
           pc := w 1312, flags := BitVec.ofNat 5 (field b 1320 8), mrow := BitVec.ofNat 16 (field b 1328 2),
           mcol := BitVec.ofNat 16 (field b 1330 2),
           lp := Vector.ofFn fun i => { y.lp[i] with lc := BitVec.ofNat 32 (field b (1336 + 8 * i.val) 4), li := w (1352 + 8 * i.val) },
           k := Vector.ofFn fun i => { addr := w (1368 + 16 * i.val), count := field b (1376 + 16 * i.val) 8 },
           b := Vector.ofFn fun i => { token := BitVec.ofNat 16 (field b (1432 + 8 * i.val) 2),
                                       pend := bit (field b (1432 + 8 * i.val) 8) 16 } }

/-- Register words that n bytes at a of the image cover are repaired (R334). -/
def Ctx.repaired (y : Ctx) (a n : Nat) : Ctx :=
  let covers := fun (b : Nat) => decide (a ≤ b) && decide (b + 8 ≤ a + n)
  { y with badS := y.badS.filter fun i => !covers (8 * i), badV := y.badV.filter fun w => !covers (256 + 8 * w) }

/-- Bytes as words of an answer. -/
def packWords (b : List Byte) : List Word := (List.range ((b.length + 7) / 8)).map fun i => BitVec.ofNat 64 (field b (8 * i) 8)

/-- The state of a loop level beside its counter and index. -/
def LoopLevel.words (l : LoopLevel) : List Word := [num (b2n l.active), l.step, l.start, l.last]

/-- An outbox message: channel, MSGID, targets and beats. One with an uncorrectable word has no value: it shows bit 8 of its first word
and zeros for its beats (R333) (DESIGN CHOICE, log 48). -/
def OutMsg.words (m : OutMsg) : List Word :=
  [num (m.chan + 256 * b2n m.bad), m.id.setWidth 64, num m.targets.length, num m.beats.length] ++ m.targets.map num ++
    packWords (m.beats.flatMap fun x => leBytes 32 (if m.bad then 0 else x.toNat))

/-- The items of a context record that are no registers (R145). -/
def Ctx.recordWords (y : Ctx) : List Word := y.lp.toList.flatMap LoopLevel.words ++ y.outbox.flatMap OutMsg.words

/-- The words of an answer with the bytes b from address a of a space: an uncorrectable word has no value, reads zero, and its address is
named at the end (R333) (DESIGN CHOICE, log 48). -/
def answerWords (a : Nat) (b : List Byte) (bad : List Nat) : List Word :=
  packWords ((List.range b.length).zipWith
    (fun i x => if bad.any fun w => decide (w ≤ a + i) && decide (a + i < w + 8) then 0 else x) b) ++ bad.map num

/-- The bad words of a context's image (R332). -/
def Ctx.badImage (y : Ctx) : List Nat := y.badS.map (8 * ·) ++ y.badV.map fun w => 256 + 8 * w

/-- The helm hears of each uncorrectable word that is read (R335). -/
def State.tellBad (s : State) (t : Nat) (l : List (Nat × Nat)) : State := l.foldl (fun (s : State) e => s.errRecord t e.1 e.2) s

/-- READCTX: state, prior state, channel and message header, FR, outbox size, watchdog count and HALTHOLD mark, stream status, then the
registers, the loop levels and the outbox (DESIGN CHOICE, log 48). -/
def execReadctx (i t c : Nat) (s : State) : Result :=
  request i 5 s fun w =>
    let st := if 4 ≤ c then stRANGE else s.tileStatus w t
    if st ≠ 0 then (st, [], s)
    else if !(s.site t).halted then (stBUSY, [], s)
    else
      let y := s.ctxAt t (fin4 c)
      (stOK, [num y.st.code, num y.prior.code, num y.chan, y.hdr, y.fr.setWidth 64, (y.fr >>> 64).setWidth 64,
              num (outBeats y.outbox), num y.wdog, num (b2n y.hold),
              (y.lastid.map fun x => x.setWidth 64).getD (BitVec.allOnes 64)] ++
            y.status.toList.map StreamStat.word ++ answerWords 0 y.image y.badImage ++ y.recordWords, s.tellBad t (y.badWords c))

/-- What a debug space of tile t holds, as bytes. -/
def State.spaceBytes (s : State) (t : Nat) (sp : DebugSpace) : Option (List Byte) :=
  let k := (s.site t).core
  match sp with
  | .scratchpad => some (memBytes (s.site t).mem 0 Config.localEnd)
  | .banks => some ((List.range 2048).flatMap fun n => leBytes 4 (k.cell n).toNat)
  | .queues =>
    let q := fun (f : Fifo 64) => f.items.flatMap fun x => leBytes 8 x.toNat
    let v := fun (f : Fifo 256) => f.items.flatMap fun x => leBytes 32 x.toNat
    some (k.qs.toList.flatMap q ++ k.q45.toList.flatMap v ++ v k.q6 ++ q k.q7)
  | .sems => some (k.sem.toList.flatMap fun x => leBytes 4 x.toNat)
  | .sysregs c => if c < 4 then some ((List.range 20).flatMap fun n => leBytes 8 (s.sysRead t (fin4 c) n)) else none
  | .ctxregs _ => none

/-- The bad words of a debug space, as offsets with structure and address (R332). -/
def State.spaceBad (s : State) (t : Nat) (sp : DebugSpace) : List (Nat × Nat × Nat) :=
  let k := (s.site t).core
  match sp with
  | .scratchpad => (s.site t).bad.map fun w => (w, 0, w)
  | .banks => k.badAcc.map fun w => (8 * w, 3, w)
  | .queues =>
    let size := fun (q : Nat) => if isVecQ q then 32 else 8
    k.badQ.flatMap fun e =>
      let i := e.2 - (k.qcount e.1).2.1
      let at' := ((List.range e.1).map fun q => size q * (k.qcount q).1).sum + size e.1 * i
      if i < (k.qcount e.1).1 then (List.range (size e.1 / 8)).map fun j => (at' + 8 * j, 4, qAddr e.1 e.2) else []
  | _ => []

/-- READMEM: up to 4 KiB. -/
def execReadmem (i t : Nat) (sp : DebugSpace) (addr len : Nat) (s : State) : Result :=
  request i 6 s fun w =>
    let st := s.tileStatus w t
    if st ≠ 0 then (st, [], s)
    else if !(s.site t).halted then (stBUSY, [], s)
    else if 4096 < len then (stRANGE, [], s)
    else
      let bad := (s.spaceBad t sp).filter fun e => decide (e.1 < addr + len) && decide (addr < e.1 + 8)
      let give := fun (b : List Byte) => (stOK, answerWords addr b (bad.map (·.1)), s.tellBad t (bad.map (·.2)))
      match sp with
      | .scratchpad =>
        if Config.localEnd < addr + len then (stRANGE, [], s) else give (memBytes (s.site t).mem addr len)
      | sp =>
        match s.spaceBytes t sp with
        | some b => if b.length < addr + len then (stRANGE, [], s) else give ((b.drop addr).take len)
        | none => (stRANGE, [], s)

/-- Bytes of a list replaced from a. -/
def patch (b : List Byte) (a : Nat) (new : List Byte) : List Byte := b.take a ++ new ++ b.drop (a + new.length)

/-- WRITEMEM: up to 4 KiB into scratchpad, banks or context registers. -/
def execWritemem (i t : Nat) (sp : DebugSpace) (addr : Nat) (bytes : List (BitVec 8)) (s : State) : Result :=
  request i 7 s fun w =>
    let st := s.tileStatus w t
    if st ≠ 0 then (st, [], s)
    else if !(s.site t).halted then (stBUSY, [], s)
    else if 4096 < bytes.length then (stRANGE, [], s)
    else match sp with
      | .scratchpad =>
        if Config.localEnd < addr + bytes.length then (stRANGE, [], s)
        else (stOK, [], s.modSite t fun x => x.store addr bytes)
      | .banks =>
        if 8192 < addr + bytes.length then (stRANGE, [], s)
        else
          let b := patch ((s.spaceBytes t .banks).getD []) addr bytes
          let whole := fun (n : Nat) => decide (addr ≤ 4 * n) && decide (4 * n + 4 ≤ addr + bytes.length)
          (stOK, [], s.modCore t fun k => ((List.range 2048).foldl (fun (k : Core) n =>
            k.setCell n (BitVec.ofNat 32 (field b (4 * n) 4))) k).repair whole)
      | .ctxregs c =>
        let y := s.ctxAt t (fin4 c)
        if 4 ≤ c || y.image.length < addr + bytes.length then (stRANGE, [], s)
        else (stOK, [], s.setCtxAt t (fin4 c) ((y.ofImage (patch y.image addr bytes)).repaired addr bytes.length))
      | _ => (stRANGE, [], s)

/-- READREC: trap records and error records; those of halyard and helm cores are the operator's (R356). -/
def execReadrec (i : Nat) (s : State) : Result :=
  request i 8 s fun w =>
    let ts := s.tenants.filter fun e => may w e.1
    let own := s.errors.filter fun e => ((s.tenantOf e.tile).map (may w)).getD false
    (stOK, ts.flatMap (fun e => e.2.recs.flatMap (·.2) ++ e.2.errs.flatMap packWords) ++
      (if w == .operator then s.sumac.recs.flatMap (·.2) else []) ++
      own.flatMap (fun e => [num e.tile, num e.what, num e.addr, Config.syndrome e.cycle e.addr, num e.cycle]), s)

/-- READGLOBAL: through the owning halyard cores, which hold it while a page is MIGRATING (R259): it is answered after that. An HBM error
makes its record (R354). -/
def execReadglobal (i : Nat) (pid : BitVec 16) (addr len : Nat) (s : State) : Result :=
  if ((s.sumac.sessions[i]?).map fun x => may x.who (pid.toNat / 4096)).getD false && len ≤ 4096 &&
      s.argHeld pid (BitVec.ofNat 64 addr) len then .next s
  else request i 9 s fun w =>
    if !may w (pid.toNat / 4096) then (stDENIED, [], s)
    else if 4096 < len || 2 ^ 54 < addr + len then (stRANGE, [], s)
    else match s.argBlock pid (BitVec.ofNat 64 addr) len with
      | some b => (stOK, packWords b, s)
      | none => (stRANGE, [], s.argError pid (BitVec.ofNat 64 addr) len)

/-- EVENTS: halts, resumes, watchdog traps and error records so far. -/
def execEvents (i : Nat) (s : State) : Result :=
  request i 10 s fun w =>
    let mine := s.sumac.events.filter fun e => decide (e.1 ≤ 4) && ((s.tenantOf e.2.1).map (may w)).getD false
    (stOK, mine.flatMap fun e => [num e.1, num e.2.1, num e.2.2], s)

end Sys2Proof.Machine
end

