-- ==== Sys2Proof/Machine/System.lean ====
section
/-! DEFINITION. Boot and its journal (R350, R351), measurements (R352), host registers (R353), tenants (R253, R356), spare rows and
health (R357, R358). -/

namespace Sys2Proof.Machine

/-! The boot sequence. -/

/-- The units of a step (R350). -/
def stepUnits (step : Nat) : Nat :=
  match step with
  | 3 => 12
  | 7 => 16
  | 8 => 2
  | _ => 1

def optional (step : Nat) : Bool := step == 3 || step == 7 || step == 8
def hasAlternate (step : Nat) : Bool := step == 1 || step == 2 || step == 4 || step == 9

/-- The latest record of a step's unit up to boot n: a boot that stopped before the step leaves an earlier boot's alternate or skip in
force. -/
def Boot.latest (b : Boot) (n step unit : Nat) : Option BootRec :=
  b.journal.reverse.find? fun r => decide (r.boot ≤ n) && r.step == step && r.unit == unit

/-- What the previous boot decides for this one: skip, or the path to take; `again`: the alternate failed too. A new image ends a skip, and
a new primary one the use of an alternate that was done; a failed path is not repeated for it (R351). -/
inductive Plan where
  | skip
  | run (path : Nat)
  | again
  deriving DecidableEq, Repr

def Boot.plan (b : Boot) (n step unit : Nat) : Plan :=
  match b.latest n step unit with
  | none => .run 0
  | some r =>
    let outcome := if r.ok then r.outcome else 0
    let failed := outcome == 0 || outcome == 2
    if optional step then if failed || (outcome == 3 && decide (b.ignoreOpt < r.boot)) then .skip else .run 0
    else if hasAlternate step then
      if failed && r.path == 1 then .again else if failed || (outcome == 4 && decide (b.ignore < r.boot)) then .run 1 else .run 0
    else .run 0

/-- The journal keeps its last 4,096 records. -/
def Boot.write (b : Boot) (r : BootRec) : Boot :=
  let j := b.journal ++ [r]
  { b with journal := j.drop (j.length - 4096) }

/-- A record as the measurement registers take it: the bytes that its CRC covers (DESIGN CHOICE, log 6). -/
def recBytes (r : BootRec) : List Byte :=
  leBytes 4 r.boot ++ leBytes 1 r.step ++ leBytes 1 r.unit ++ leBytes 1 r.outcome ++ leBytes 1 r.path ++ leBytes 4 r.time.toNat

/-- A record of this boot. -/
def Boot.mkRec (b : Boot) (step unit outcome path : Nat) : BootRec :=
  { boot := b.count, step := step, unit := unit, outcome := outcome, path := path, time := Config.bootTime b.count step unit outcome }

def Boot.outcome (b : Boot) (step unit outcome path : Nat) : Boot :=
  let r := b.mkRec step unit outcome path
  let b := b.write r
  { b with measures := b.measures ++ [sha256 (recBytes r)] }

/-- The image in a slot; one that came with the part has version 0 and a good signature (DESIGN CHOICE, log 49). -/
def Boot.image (b : Boot) (kind slot : Nat) : Image :=
  (b.images.find? fun i => i.kind == kind && i.slot == slot).getD { kind := kind, slot := slot, ver := 0, good := true }

/-- Steps 1 and 9 load an image: kind 1 or 9, its slot by the path. One that is bad or rolled back fails the step (R352). -/
def Boot.imageOk (b : Boot) (step path : Nat) : Bool :=
  if step ≠ 1 && step ≠ 9 then true
  else (b.image step path).good && decide (mapGetD b.rollback step 0 ≤ (b.image step path).ver)

/-- A loaded image is hashed into the measurement registers (R352). -/
def Boot.load (b : Boot) (step path : Nat) : Boot :=
  if step ≠ 1 && step ≠ 9 then b
  else { b with measures := b.measures ++ [Config.imageDigest step path (b.image step path).ver] }

/-- Worse of two healths. -/
def Health.max (a b : Health) : Health := if a.rank < b.rank then b else a

/-- The effect of an optional unit that is absent (R350); a stack or a span port worsens the health (R358). -/
def Boot.absent (b : Boot) (step unit : Nat) : Boot :=
  let worse := b.health.max .degraded
  match step with
  | 3 => { b with hbmOut := setAdd b.hbmOut unit, health := worse }
  | 7 => { b with portOut := setAdd b.portOut unit, health := worse }
  | _ => { b with portOut := setAdd b.portOut (16 + unit) }

/-- Recovery mode (R351). -/
def Boot.recover (b : Boot) (step : Nat) : Boot := { b with recovery := true, health := .replace, stoppedAt := some step }

/-- One unit of one step; `prev` is the number of the previous boot (DESIGN CHOICE, log 49). -/
def Boot.unitStep (b : Boot) (prev : Nat) (fails : List BootFail) (step unit : Nat) : Boot :=
  if b.stoppedAt.isSome then b
  else
    let go := fun (path : Nat) =>
      let b := b.write (b.mkRec step unit 0 path)
      match fails.find? fun f => f.step == step && f.unit == unit with
      | some f =>
        if f.lost then { b with stoppedAt := some step }
        else if optional step then (b.outcome step unit 2 path).absent step unit
        else if hasAlternate step then { (b.outcome step unit 2 path) with stoppedAt := some step }
        else (b.outcome step unit 2 path).recover step
      | none =>
        if b.imageOk step path then
          let b := (b.load step path).outcome step unit (if path = 0 then 1 else 4) path
          if path = 0 then b else { b with health := b.health.max .degraded }
        else { (b.outcome step unit 2 path) with stoppedAt := some step }
    match b.plan prev step unit with
    | .skip => ((b.write (b.mkRec step unit 0 0)).outcome step unit 3 0).absent step unit
    | .run path => go path
    | .again => go 1

/-- Some required step's alternate failed in the previous boot. -/
def Boot.doomed (b : Boot) (prev : Nat) : Bool :=
  [1, 2, 4, 9].any fun step => b.plan prev step 0 == .again && ((b.latest prev step 0).map fun r => r.boot == prev).getD false

/-- The column of a tile, and where the spare-row map of a boot puts its failed tile, the first one that was vacated. -/
def colOf (t : Nat) : Nat := tileDie t * 32 + tileX t
def Boot.spareMap (b : Boot) : List (Nat × Nat) :=
  b.excluded.foldl (fun m t => if (mapGet? m (colOf t)).isSome then m else mapPut m (colOf t) (tileY t)) b.spare

/-- The logical tile that is at the failed place of tile t under the new map: none where the spare takes its work; else itself, or the
one above where the rows from a newly mapped tile above it on have moved down. -/
def Boot.leftOut (b : Boot) (t : Nat) : Option Nat :=
  if (mapGet? b.spare (colOf t)).isSome then some t
  else match mapGet? b.spareMap (colOf t) with
    | some y => if tileY t = y then none else if y < tileY t then some (t - 32) else some t
    | none => some t

/-- Failed tiles go to the spare row of their column; a second one in a column stays excluded (R357) (DESIGN CHOICE, log 50). -/
def Boot.remap (b : Boot) : Boot :=
  let out := b.excluded.filterMap b.leftOut
  let h := if b.spareMap.isEmpty then b.health else b.health.max .degraded
  { b with spare := b.spareMap, excluded := out, health := if out.isEmpty then h else .replace }

/-- The steps in their order; step 5 loads the spare-row map (R357), and a doomed boot stops after step 2, or where it failed before, in
recovery mode, unless it lost its power. -/
def Boot.run (b : Boot) (prev : Nat) (fails : List BootFail) : Boot :=
  let doomed := b.doomed prev && !(fails.any fun f => f.lost && decide (f.step ≤ 2))
  (List.range 10).foldl (fun (b : Boot) i =>
    let step := i + 1
    let b := (List.range (stepUnits step)).foldl (fun (b : Boot) u => b.unitStep prev fails step u) b
    if step = 2 && doomed then b.recover (b.stoppedAt.getD 2) else if step = 5 && b.stoppedAt.isNone then b.remap else b) b

/-- What flash, fuses and the ballast dies keep across a module reset; the ballast areas are those of the tiles. -/
def State.kept (s : State) : State :=
  { (State.reset) with
    boot := { count := s.boot.count + 1, journal := s.boot.journal, images := s.boot.images, rollback := s.boot.rollback,
              ignore := s.boot.ignore, ignoreOpt := s.boot.ignoreOpt, spare := s.boot.spare, excluded := s.boot.excluded,
              rootKey := s.boot.rootKey },
    sites := (s.sites.filter fun e => isTile e.1).map fun (e : Nat × Site) => (e.1, { ({} : Site) with ballast := e.2.ballast }),
    device := s.device, routes := s.routes, bridges := s.bridges }

/-- Every step of this boot was done on its primary path (R358). -/
def Boot.primary (b : Boot) : Bool :=
  b.stoppedAt.isNone && b.journal.all fun r => r.boot != b.count || r.outcome == 0 || r.outcome == 1

/-- Health after a boot: anew where every step was done on its primary path, else not better than before; the management port reports a
request that the boot has made (R358). -/
def Boot.heal (b : Boot) (before : Health) : Boot :=
  let h := if b.primary then b.health else before.max b.health
  { b with health := h, asked := if h = .replace then b.asked ++ [0] else b.asked }

/-- Step 4 of this boot has trained the bridges. -/
def Boot.trained (b : Boot) : Bool := b.journal.any fun r => r.boot == b.count && r.step == 4 && (r.outcome == 1 || r.outcome == 4)

/-- Step 7 of this boot has trained span port p. -/
def Boot.portUp (b : Boot) (p : Nat) : Bool :=
  b.journal.any fun r => r.boot == b.count && r.step == 7 && r.unit == p && r.outcome == 1

/-- MODULE_RESET (R350): the machine as after reset, then the boot sequence; `fails` names the units that do not succeed. Bridges come
UP where their training succeeds, and otherwise stay as they were (R306). -/
def execModuleReset (fails : List BootFail) (s : State) : Result :=
  let k := s.kept
  let b := (k.boot.run s.boot.count fails).heal s.boot.health
  let ports := (List.range 16).filter b.portUp
  .next { k with boot := b, spans := ports.map fun p => (p, ({ st := .up, used := 8 } : SpanPort)),
                 bridges := if b.trained then Vector.replicate 8 .up else k.bridges }

/-- JOURNAL_CLEAR (R351). -/
def execJournalClear (s : State) : Result := .next { s with boot := { s.boot with journal := [] } }

/-- IMAGE_INSTALL (R351): a new image ends the skips, a new primary one the use of alternates. -/
def execImageInstall (kind slot ver : Nat) (good : Bool) (s : State) : Result :=
  let rest := s.boot.images.filter fun i => !(i.kind == kind && i.slot == slot)
  let b := { s.boot with images := rest ++ [{ kind := kind, slot := slot, ver := ver, good := good }], ignoreOpt := s.boot.count }
  .next { s with boot := if slot = 0 then { b with ignore := b.count } else b }

/-- GET_MEASUREMENTS (R352): the report holds the measurement registers, signed with the attestation key. -/
def execGetMeasurements (s : State) : Result :=
  .next { s with boot := { s.boot with reports := s.boot.reports ++ [(s.boot.measures, Config.attest s.boot.measures)] } }

/-! Tenants (R356). -/

def rectOf (r : Rect) : List Nat :=
  (List.range r.rows).flatMap fun i => (List.range r.cols).map fun j => r.die * 1024 + (r.row + i) * 32 + (r.col + j)

def cfgTiles (c : TenantCfg) : List Nat := c.parts.flatMap rectOf

/-- The configuration suits: rectangles on a die and disjoint from the other tenants', counters unassigned, power fractions that
sum to at most 1. -/
def State.cfgOk (s : State) (n : Nat) (c : TenantCfg) : Bool :=
  let others := s.tenants.filter fun e => e.1 != n
  c.parts.all (fun r => decide (r.die < 8) && decide (r.row + r.rows ≤ 32) && decide (r.col + r.cols ≤ 32)) &&
    others.all (fun e => (e.2.cfg.parts).all fun q => c.parts.all fun r => q.die != r.die ||
      decide (q.row + q.rows ≤ r.row) || decide (r.row + r.rows ≤ q.row) || decide (q.col + q.cols ≤ r.col) ||
      decide (r.col + r.cols ≤ q.col)) &&
    c.counters.all (fun k => decide (k < 64) && !(others.any fun e => e.2.cfg.counters.contains k)) &&
    decide (c.power + (others.map fun e => e.2.cfg.power).sum ≤ 65536)

/-- TENANT_CREATE. Launch queue q is bound to process q of the tenant (R253). After a boot that stopped the host port offers only the
recovery function (R351), so no tenant is made, and every later request of a host finds none. -/
def execTenantCreate (n : Nat) (cfg : TenantCfg) (s : State) : Result :=
  if 16 ≤ n then .next s
  else if s.boot.stoppedAt.isSome || (mapGet? s.tenants n).isSome || !s.cfgOk n cfg then .next s
  else
    let te : Tenant := { cfg := cfg, pids := (List.range 16).map fun q => BitVec.ofNat 16 (n * 4096 + q) }
    .next { s with tenants := mapPut s.tenants n te }

/-- An ACTIVE group holds tile u, as its own or as the place to which a member's work has moved (R42, R184). -/
def State.heldActive (s : State) (u : Nat) : Bool :=
  let active := fun (t : Nat) => ((s.launchOf t).map fun l => l.st == .running).getD false
  active u || s.lent.any fun e => e.2 == u && active e.1

/-- TENANT_CHANGE: a partition shrinks only by tiles that no ACTIVE group holds. -/
def execTenantChange (n : Nat) (cfg : TenantCfg) (s : State) : Result :=
  match mapGet? s.tenants n with
  | none => .next s
  | some te =>
    let lost := (cfgTiles te.cfg).filter fun t => !(cfgTiles cfg).contains t
    if !s.cfgOk n cfg || lost.any s.heldActive then .next s
    else .next { s with tenants := mapPut s.tenants n { te with cfg := cfg } }

/-- Log2 of the size of a leaf's page at a level of the walk, where it is well formed (R257). -/
def leafBits (level e base : Nat) : Option Nat :=
  let n := match level, eSize e with
    | 3, 0 => 16
    | 3, 1 => 21
    | 2, 2 => 30
    | _, _ => 0
  if n ≠ 0 && eValid e && eLeaf e && leafOk e (base / 2 ^ n * 2 ^ n) n then some n else none

/-- Physical ranges of the pages that the level-3 table of the addresses from base on maps, and those of levels 2 and 1. -/
def State.pagesAt3 (s : State) (tbl base : Nat) : List (Nat × Nat) :=
  (List.range 4096).filterMap fun i =>
    let e := s.entryAt (tbl + 8 * i)
    (leafBits 3 e (base + i * 2 ^ 16)).map fun n => (ePa e / 2 ^ n * 2 ^ n, 2 ^ n)

def State.pagesAt2 (s : State) (tbl base : Nat) : List (Nat × Nat) :=
  (List.range 8192).flatMap fun i =>
    let e := s.entryAt (tbl + 8 * i)
    let va := base + i * 2 ^ 28
    if eLeaf e then ((leafBits 2 e va).map fun n => (ePa e / 2 ^ n * 2 ^ n, 2 ^ n)).toList
    else if eValid e then s.pagesAt3 (ePa e) va else []

def State.pagesAt1 (s : State) (tbl : Nat) : List (Nat × Nat) :=
  (List.range 8192).flatMap fun i =>
    let e := s.entryAt (tbl + 8 * i)
    if eValid e && !eLeaf e then s.pagesAt2 (ePa e) (i * 2 ^ 41) else []

/-- The physical ranges that the tables under the root entry at root map. -/
def State.pagesUnder (s : State) (root : Nat) : List (Nat × Nat) :=
  let e := s.entryAt root
  if eValid e && !eLeaf e then s.pagesAt1 (ePa e) else []

/-- The physical ranges that the processes of tenant n map (R255). -/
def State.tenantPages (s : State) (n : Nat) : List (Nat × Nat) :=
  (List.range 4096).flatMap fun p => s.pagesUnder (s.root + 8 * (n * 4096 + p))

/-- The request arms a send. -/
def CntReq.arms (r : CntReq) : Bool := match r.op with
  | .arm _ _ => true
  | _ => false

/-- Something on its way can still write a page of tenant n: a landing, or a request at a station. -/
def State.pagesBusy (s : State) (n : Nat) : Bool :=
  let mine := fun (r : GReq) => decide (r.pid.toNat / 4096 = n)
  (s.incoming.any fun i => decide (i.pid.toNat / 4096 = n) && bits i.target.toNat 62 2 == 2) || s.stations.any fun e =>
    e.2.rxq.any mine || e.2.walk.any mine || e.2.held.any mine || e.2.svc.any fun v => mine v.1

/-- An arm of tenant n is on its way to the counter engine. -/
def State.armsFly (s : State) (n : Nat) : Bool := s.flying.any fun p => match p.load with
  | .counter r => r.tenant == n && r.arms
  | _ => false

/-- TENANT_DELETE: launches abort and armed sends are cleared, those on their way as they reach the counter engine; once no launch and no
such arm is left and nothing on its way can write its pages, these are zeroed, which repairs their words (R334), and it is gone
(DESIGN CHOICE, log 51). -/
def execTenantDelete (n : Nat) (s : State) : Result :=
  match mapGet? s.tenants n with
  | none => .next s
  | some te =>
    let mine := (s.launches.filter fun e => e.2.tenant == n).map (·.1)
    let s := mine.foldl (fun (s : State) l => ((mapGet? s.launches l).map fun la => s.abort l la).getD s) s
    let s := { s with armed := s.armed.filter fun a => a.tenant != n, firing := s.firing.filter fun f => f.a.tenant != n,
                      cntq := s.cntq.filter fun r => r.tenant != n || !r.arms,
                      tenants := mapPut s.tenants n { (mapGetD s.tenants n te) with arms := 0, leaving := true } }
    if (s.launches.any fun e => e.2.tenant == n) || s.pagesBusy n || s.armsFly n then .next s
    else
      let pages := s.tenantPages n
      let inside := fun (a : Nat) => pages.any fun p => decide (p.1 ≤ a) && decide (a < p.1 + p.2)
      .next { s with phys := s.phys.filter fun c => !inside c.1, badPhys := s.badPhys.filter fun w => !inside w,
                     tenants := mapErase s.tenants n, kernels := s.kernels.filter fun k => k.tenant != n }

/-- PID_BIND_WRITE (R253, R353): bits 15:12 stay those of the queue's tenant. -/
def execPidBindWrite (n q : Nat) (pid : BitVec 16) (s : State) : Result :=
  if 16 ≤ n || 16 ≤ q then .next s
  else match mapGet? s.tenants n with
    | none => .next s
    | some te => .next { s with tenants := mapPut s.tenants n { te with pids := te.pids.set q (BitVec.ofNat 16 (n * 4096 + pid.toNat % 4096)) } }

/-- HOST_REGISTER_WRITE (R353): ring base, size and head; every other register of the window is read-only (PRESUMED, log 31). -/
def execHostRegisterWrite (n off : Nat) (val : BitVec 64) (s : State) : Result :=
  if 16 ≤ n then .next s
  else match mapGet? s.tenants n with
    | none => .next s
    | some te =>
      let te' := match off with
        | 0x1000 => { te with ringBase := val }
        | 0x1008 => { te with ringSize := val }
        | 0x1010 => { te with ringHead := val }
        | 0x2000 => { te with errBase := val }
        | 0x2008 => { te with errSize := val }
        | 0x2010 => { te with errHead := val }
        | _ => te
      .next { s with tenants := mapPut s.tenants n te' }

/-- A page in the second tier is mapped, under a PID or by a helm core's own MMU. -/
def State.tierMapped (s : State) : Bool :=
  let tier := fun (root : Nat) => (s.pagesUnder root).any fun p => decide (0x10000000000 ≤ p.1)
  ((List.range 65536).any fun pid => tier (s.root + 8 * pid)) || s.helmRoots.any fun e => tier e.2

/-- SECOND_TIER_PORT_LOST (R358): the loss of a port with mapped pages worsens the health; which addresses a port serves no rule says
(DESIGN CHOICE, log 82). -/
def execSecondTierPortLost (p : Nat) (s : State) : Result :=
  if 2 ≤ p then .next s
  else
    let s' := { s with boot := { s.boot with portOut := setAdd s.boot.portOut (16 + p) } }
    .next (if s.tierMapped then s'.worsen .replace else s')

/-! What the helm sets outside any program. -/

/-- The core of a site that starts a program on context 0. -/
def Core.begin (pc : Word) : Core :=
  { ctxs := Vector.ofFn fun c => if c = 0 then { pc := pc, st := .running, mrow := 0xFFFF, mcol := 0xFFFF } else {} }

/-- A halyard or helm core takes a program, with its PID, and starts it at pc on context 0. No rule says how a program, its start and its
PID come to such a core (DESIGN CHOICE, log 85). -/
def Site.begin (x : Site) (pid : BitVec 16) (pc : Word) (image : List Byte) : Site :=
  { x with istore := memPut [] 0 image, imgSize := image.length, krn := { x.krn with pid := pid }, core := Core.begin pc, late := [] }

/-- A setting of the helm; one outside its range changes nothing. Dividers and voltages wait for the next interval boundary (R343). -/
def State.helmWrite (s : State) (w : HelmWrite) : State :=
  match w with
  | .root x => if x % 65536 = 0 then { s with root := x } else s
  | .program t pid pc image => if isHalyard t || isHelm t then s.modSite t fun x => x.begin pid pc image else s
  | .helmRoot t x => if isHelm t ∧ x % 65536 = 0 then { s with helmRoots := mapPut s.helmRoots t x } else s
  | .ageLimit d n => if d < 8 ∧ 8 ≤ n ∧ n ≤ 255 then { s with ageLimit := mapPut s.ageLimit d n } else s
  | .interval d n => if d < 8 then { s with commitIv := mapPut s.commitIv d n } else s
  | .divider _ _ | .voltage _ _ => { s with power := { s.power with rails := s.power.rails ++ [w] } }
  | .level t b => if isHelm t then s.modSite t fun x => { x with super := b } else s
  | .route d a b => if d < 16384 then ({ s with routes := (d, a, b) :: s.routes.filter fun r => r.1 != d } : State).flushSpan else s
  | .device n => if n < 16384 then { s with device := n } else s
  | .stackDegraded k => if k < 12 then s.worsen .degraded else s

end Sys2Proof.Machine
end

