-- ==== Sys2Proof/Machine/Dispatch.lean ====
section
/-! DEFINITION. The meaning of every instruction: one arm per constructor of Instr. -/

namespace Sys2Proof.Machine

/-- What an instruction or event does to the machine. -/
def exec (i : Instr) (s : State) : Host.Outcome State Fault Refusal :=
  match i with
  | .add d a b => Sys2Proof.Machine.execAdd d a b s
  | .sub d a b => Sys2Proof.Machine.execSub d a b s
  | .mul d a b => Sys2Proof.Machine.execMul d a b s
  | .mulh d a b => Sys2Proof.Machine.execMulh d a b s
  | .mulhu d a b => Sys2Proof.Machine.execMulhu d a b s
  | .div d a b => Sys2Proof.Machine.execDiv d a b s
  | .divu d a b => Sys2Proof.Machine.execDivu d a b s
  | .rem d a b => Sys2Proof.Machine.execRem d a b s
  | .remu d a b => Sys2Proof.Machine.execRemu d a b s
  | .and d a b => Sys2Proof.Machine.execAnd d a b s
  | .or d a b => Sys2Proof.Machine.execOr d a b s
  | .xor d a b => Sys2Proof.Machine.execXor d a b s
  | .shl d a b => Sys2Proof.Machine.execShl d a b s
  | .shr d a b => Sys2Proof.Machine.execShr d a b s
  | .sha d a b => Sys2Proof.Machine.execSha d a b s
  | .min d a b => Sys2Proof.Machine.execMin d a b s
  | .max d a b => Sys2Proof.Machine.execMax d a b s
  | .minu d a b => Sys2Proof.Machine.execMinu d a b s
  | .maxu d a b => Sys2Proof.Machine.execMaxu d a b s
  | .slt d a b => Sys2Proof.Machine.execSlt d a b s
  | .sltu d a b => Sys2Proof.Machine.execSltu d a b s
  | .seq d a b => Sys2Proof.Machine.execSeq d a b s
  | .clz d a => Sys2Proof.Machine.execClz d a s
  | .ctz d a => Sys2Proof.Machine.execCtz d a s
  | .popc d a => Sys2Proof.Machine.execPopc d a s
  | .mov d a => Sys2Proof.Machine.execMov d a s
  | .sel d a b p => Sys2Proof.Machine.execSel d a b p s
  | .tileid d => Sys2Proof.Machine.execTileid d s
  | .gaddr d a b => Sys2Proof.Machine.execGaddr d a b s
  | .widF d a f => Sys2Proof.Machine.execWidF d a f s
  | .addi d a imm => Sys2Proof.Machine.execAddi d a imm s
  | .andi d a imm => Sys2Proof.Machine.execAndi d a imm s
  | .ori d a imm => Sys2Proof.Machine.execOri d a imm s
  | .xori d a imm => Sys2Proof.Machine.execXori d a imm s
  | .slti d a imm => Sys2Proof.Machine.execSlti d a imm s
  | .li d imm => Sys2Proof.Machine.execLi d imm s
  | .lih d a imm => Sys2Proof.Machine.execLih d a imm s
  | .shli d a sp => Sys2Proof.Machine.execShli d a sp s
  | .shri d a sp => Sys2Proof.Machine.execShri d a sp s
  | .shai d a sp => Sys2Proof.Machine.execShai d a sp s
  | .bext d a p l => Sys2Proof.Machine.execBext d a p l s
  | .bins d a p l => Sys2Proof.Machine.execBins d a p l s
  | .jalr d a imm => Sys2Proof.Machine.execJalr d a imm s
  | .loop d a t => Sys2Proof.Machine.execLoop d a t s
  | .loopi d n c => Sys2Proof.Machine.execLoopi d n c s
  | .pset d a => Sys2Proof.Machine.execPset d a s
  | .pand d a b => Sys2Proof.Machine.execPand d a b s
  | .por d a b => Sys2Proof.Machine.execPor d a b s
  | .pxor d a b => Sys2Proof.Machine.execPxor d a b s
  | .pnot d a => Sys2Proof.Machine.execPnot d a s
  | .ldPostinc d a k imm => Sys2Proof.Machine.execLdPostinc d a k imm s
  | .ldI8 d a imm => Sys2Proof.Machine.execLdI8 d a imm s
  | .ldN8 d a imm => Sys2Proof.Machine.execLdN8 d a imm s
  | .ldI16 d a imm => Sys2Proof.Machine.execLdI16 d a imm s
  | .ldN16 d a imm => Sys2Proof.Machine.execLdN16 d a imm s
  | .ldI32 d a imm => Sys2Proof.Machine.execLdI32 d a imm s
  | .ldN32 d a imm => Sys2Proof.Machine.execLdN32 d a imm s
  | .ldI64 d a imm => Sys2Proof.Machine.execLdI64 d a imm s
  | .st8 d a imm => Sys2Proof.Machine.execSt8 d a imm s
  | .st16 d a imm => Sys2Proof.Machine.execSt16 d a imm s
  | .st32 d a imm => Sys2Proof.Machine.execSt32 d a imm s
  | .st64 d a imm => Sys2Proof.Machine.execSt64 d a imm s
  | .lv d a imm => Sys2Proof.Machine.execLv d a imm s
  | .sv d a imm => Sys2Proof.Machine.execSv d a imm s
  | .stPostinc d a k imm => Sys2Proof.Machine.execStPostinc d a k imm s
  | .lvs d a b w => Sys2Proof.Machine.execLvs d a b w s
  | .lvg d a b w => Sys2Proof.Machine.execLvg d a b w s
  | .svx d a b w => Sys2Proof.Machine.execSvx d a b w s
  | .beq a b imm => Sys2Proof.Machine.execBeq a b imm s
  | .bne a b imm => Sys2Proof.Machine.execBne a b imm s
  | .blt a b imm => Sys2Proof.Machine.execBlt a b imm s
  | .bge a b imm => Sys2Proof.Machine.execBge a b imm s
  | .bltu a b imm => Sys2Proof.Machine.execBltu a b imm s
  | .bgeu a b imm => Sys2Proof.Machine.execBgeu a b imm s
  | .bp a imm => Sys2Proof.Machine.execBp a imm s
  | .bnp a imm => Sys2Proof.Machine.execBnp a imm s
  | .j imm => Sys2Proof.Machine.execJ imm s
  | .jal imm => Sys2Proof.Machine.execJal imm s
  | .ldf32 d a imm => Sys2Proof.Machine.execLdf32 d a imm s
  | .ldf64 d a imm => Sys2Proof.Machine.execLdf64 d a imm s
  | .stf32 d a imm => Sys2Proof.Machine.execStf32 d a imm s
  | .stf64 d a imm => Sys2Proof.Machine.execStf64 d a imm s
  | .lvf d a imm => Sys2Proof.Machine.execLvf d a imm s
  | .svf d a imm => Sys2Proof.Machine.execSvf d a imm s
  | .aadd d a b w sp => Sys2Proof.Machine.execAadd d a b w sp s
  | .aand d a b w sp => Sys2Proof.Machine.execAand d a b w sp s
  | .aor d a b w sp => Sys2Proof.Machine.execAor d a b w sp s
  | .axor d a b w sp => Sys2Proof.Machine.execAxor d a b w sp s
  | .amin d a b w sp => Sys2Proof.Machine.execAmin d a b w sp s
  | .amax d a b w sp => Sys2Proof.Machine.execAmax d a b w sp s
  | .aminu d a b w sp => Sys2Proof.Machine.execAminu d a b w sp s
  | .amaxu d a b w sp => Sys2Proof.Machine.execAmaxu d a b w sp s
  | .aswap d a b w sp => Sys2Proof.Machine.execAswap d a b w sp s
  | .acas d a b w sp => Sys2Proof.Machine.execAcas d a b w sp s
  | .xaddf a b t => Sys2Proof.Machine.execXaddf a b t s
  | .xrd d a t => Sys2Proof.Machine.execXrd d a t s
  | .xclr a => Sys2Proof.Machine.execXclr a s
  | .cpy d a b v => Sys2Proof.Machine.execCpy d a b v s
  | .cpypop d => Sys2Proof.Machine.execCpypop d s
  | .fold d a b => Sys2Proof.Machine.execFold d a b s
  | .foldrd d k => Sys2Proof.Machine.execFoldrd d k s
  | .vadd r d a b t => Sys2Proof.Machine.execVadd r d a b t s
  | .vsub r d a b t => Sys2Proof.Machine.execVsub r d a b t s
  | .vmul r d a b t => Sys2Proof.Machine.execVmul r d a b t s
  | .vfma r d a b t => Sys2Proof.Machine.execVfma r d a b t s
  | .vmin r d a b t => Sys2Proof.Machine.execVmin r d a b t s
  | .vmax r d a b t => Sys2Proof.Machine.execVmax r d a b t s
  | .vcmpeq r d a b t => Sys2Proof.Machine.execVcmpeq r d a b t s
  | .vcmplt r d a b t => Sys2Proof.Machine.execVcmplt r d a b t s
  | .vcmple r d a b t => Sys2Proof.Machine.execVcmple r d a b t s
  | .vredAdd r d a t => Sys2Proof.Machine.execVredAdd r d a t s
  | .vredMax r d a t => Sys2Proof.Machine.execVredMax r d a t s
  | .vredMin r d a t => Sys2Proof.Machine.execVredMin r d a t s
  | .vcvt r d a sp t => Sys2Proof.Machine.execVcvt r d a sp t s
  | .vdot r d a b t => Sys2Proof.Machine.execVdot r d a b t s
  | .vscale r d a b t => Sys2Proof.Machine.execVscale r d a b t s
  | .vpack r d a b t => Sys2Proof.Machine.execVpack r d a b t s
  | .vabs d a t => Sys2Proof.Machine.execVabs d a t s
  | .vneg d a t => Sys2Proof.Machine.execVneg d a t s
  | .vand d a b => Sys2Proof.Machine.execVand d a b s
  | .vor d a b => Sys2Proof.Machine.execVor d a b s
  | .vxor d a b => Sys2Proof.Machine.execVxor d a b s
  | .vshl d a b t => Sys2Proof.Machine.execVshl d a b t s
  | .vshr d a b t => Sys2Proof.Machine.execVshr d a b t s
  | .vsha d a b t => Sys2Proof.Machine.execVsha d a b t s
  | .vsel d a b p => Sys2Proof.Machine.execVsel d a b p s
  | .vbcast d a t => Sys2Proof.Machine.execVbcast d a t s
  | .vext d a n t => Sys2Proof.Machine.execVext d a n t s
  | .vperm d a b t => Sys2Proof.Machine.execVperm d a b t s
  | .vshuf d a b t => Sys2Proof.Machine.execVshuf d a b t s
  | .vrcp d a t => Sys2Proof.Machine.execVrcp d a t s
  | .vrsq d a t => Sys2Proof.Machine.execVrsq d a t s
  | .vexp2 d a t => Sys2Proof.Machine.execVexp2 d a t s
  | .vmaxexp d a t => Sys2Proof.Machine.execVmaxexp d a t s
  | .vunpk d a h t => Sys2Proof.Machine.execVunpk d a h t s
  | .mxopen p => Sys2Proof.Machine.execMxopen p s
  | .mxcfg d p => Sys2Proof.Machine.execMxcfg d p s
  | .mxpush a p => Sys2Proof.Machine.execMxpush a p s
  | .mxpushm a n p => Sys2Proof.Machine.execMxpushm a n p s
  | .mxscl a p => Sys2Proof.Machine.execMxscl a p s
  | .mxclose p => Sys2Proof.Machine.execMxclose p s
  | .mxstat d p => Sys2Proof.Machine.execMxstat d p s
  | .msetm a => Sys2Proof.Machine.execMsetm a s
  | .skld d a => Sys2Proof.Machine.execSkld d a s
  | .accz d => Sys2Proof.Machine.execAccz d s
  | .accrd v k r => Sys2Proof.Machine.execAccrd v k r s
  | .accwr k v r => Sys2Proof.Machine.execAccwr k v r s
  | .acccvt v k r t => Sys2Proof.Machine.execAcccvt v k r t s
  | .semset d a => Sys2Proof.Machine.execSemset d a s
  | .semadd d n => Sys2Proof.Machine.execSemadd d n s
  | .semwait d n => Sys2Proof.Machine.execSemwait d n s
  | .phreg d a m => Sys2Proof.Machine.execPhreg d a m s
  | .phdrop a => Sys2Proof.Machine.execPhdrop a s
  | .phsig d a => Sys2Proof.Machine.execPhsig d a s
  | .phwait d a b => Sys2Proof.Machine.execPhwait d a b s
  | .phnext d a => Sys2Proof.Machine.execPhnext d a s
  | .phaserRequest m => Sys2Proof.Machine.execPhaserRequest m s
  | .bar d => Sys2Proof.Machine.execBar d s
  | .bara d a => Sys2Proof.Machine.execBara d a s
  | .barw d a b => Sys2Proof.Machine.execBarw d a b s
  | .ratlineRelease l n m => Sys2Proof.Machine.execRatlineRelease l n m s
  | .vst d a b => Sys2Proof.Machine.execVst d a b s
  | .vld d a b => Sys2Proof.Machine.execVld d a b s
  | .vrecl a b => Sys2Proof.Machine.execVrecl a b s
  | .vldResend t c => Sys2Proof.Machine.execVldResend t c s
  | .fence d => Sys2Proof.Machine.execFence d s
  | .sysr d m n => Sys2Proof.Machine.execSysr d m n s
  | .sysw d m n => Sys2Proof.Machine.execSysw d m n s
  | .trap a b => Sys2Proof.Machine.execTrap a b s
  | .brk => Sys2Proof.Machine.execBrk s
  | .wfi => Sys2Proof.Machine.execWfi s
  | .wfiWake t c => Sys2Proof.Machine.execWfiWake t c s
  | .retireWord => Sys2Proof.Machine.execRetireWord s
  | .retireS a => Sys2Proof.Machine.execRetireS a s
  | .karg d n => Sys2Proof.Machine.execKarg d n s
  | .pfenceT => Sys2Proof.Machine.execPfenceT s
  | .pfenceG => Sys2Proof.Machine.execPfenceG s
  | .pstat d => Sys2Proof.Machine.execPstat d s
  | .pgate a m => Sys2Proof.Machine.execPgate a m s
  | .tsend d a b => Sys2Proof.Machine.execTsend d a b s
  | .cntrd d a => Sys2Proof.Machine.execCntrd d a s
  | .cntset a b => Sys2Proof.Machine.execCntset a b s
  | .send d a b n => Sys2Proof.Machine.execSend d a b n s
  | .sendm d a b n => Sys2Proof.Machine.execSendm d a b n s
  | .msgid d => Sys2Proof.Machine.execMsgid d s
  | .qpush d p q => Sys2Proof.Machine.execQpush d p q s
  | .qpop d p q => Sys2Proof.Machine.execQpop d p q s
  | .qpeek d p q => Sys2Proof.Machine.execQpeek d p q s
  | .qcnt d q => Sys2Proof.Machine.execQcnt d q s
  | .qpushw d q => Sys2Proof.Machine.execQpushw d q s
  | .qpopw d q => Sys2Proof.Machine.execQpopw d q s
  | .qwaitExpiry t c => Sys2Proof.Machine.execQwaitExpiry t c s
  | .rpush d p b => Sys2Proof.Machine.execRpush d p b s
  | .rpop d p b => Sys2Proof.Machine.execRpop d p b s
  | .chblk d a => Sys2Proof.Machine.execChblk d a s
  | .chunb d a => Sys2Proof.Machine.execChunb d a s
  | .chmask a k => Sys2Proof.Machine.execChmask a k s
  | .channelControlArrival t => Sys2Proof.Machine.execChannelControlArrival t s
  | .seal a b => Sys2Proof.Machine.execSeal a b s
  | .unseal a b => Sys2Proof.Machine.execUnseal a b s
  | .sealRequestArrival k => Sys2Proof.Machine.execSealRequestArrival k s
  | .lgd d a => Sys2Proof.Machine.execLgd d a s
  | .sgd a b => Sys2Proof.Machine.execSgd a b s
  | .lgv d a => Sys2Proof.Machine.execLgv d a s
  | .sgv d a => Sys2Proof.Machine.execSgv d a s
  | .pusht d a n => Sys2Proof.Machine.execPusht d a n s
  | .pushBeatArrival t => Sys2Proof.Machine.execPushBeatArrival t s
  | .tlbiH a b => Sys2Proof.Machine.execTlbiH a b s
  | .illW => Sys2Proof.Machine.execIllW s
  | .ill => Sys2Proof.Machine.execIll s
  | .nop => Sys2Proof.Machine.execNop s
  | .yield => Sys2Proof.Machine.execYield s
  | .retire => Sys2Proof.Machine.execRetire s
  | .cAlu d a o => Sys2Proof.Machine.execCAlu d a o s
  | .cAddi d imm => Sys2Proof.Machine.execCAddi d imm s
  | .cLi d imm => Sys2Proof.Machine.execCLi d imm s
  | .cLd d a o f => Sys2Proof.Machine.execCLd d a o f s
  | .cB imm => Sys2Proof.Machine.execCB imm s
  | .pfx p sp => Sys2Proof.Machine.execPfx p sp s
  | .messageArrival t => Sys2Proof.Machine.execMessageArrival t s
  | .activationStart t => Sys2Proof.Machine.execActivationStart t s
  | .priorityAgeing t => Sys2Proof.Machine.execPriorityAgeing t s
  | .outboxInject t => Sys2Proof.Machine.execOutboxInject t s
  | .watchdogExpiry t c => Sys2Proof.Machine.execWatchdogExpiry t c s
  | .trapSequenceComplete t c => Sys2Proof.Machine.execTrapSequenceComplete t c s
  | .remoteRecordArrival t => Sys2Proof.Machine.execRemoteRecordArrival t s
  | .farRequestService t => Sys2Proof.Machine.execFarRequestService t s
  | .caOperation t => Sys2Proof.Machine.execCaOperation t s
  | .farResponseArrival t => Sys2Proof.Machine.execFarResponseArrival t s
  | .completionRound => Sys2Proof.Machine.execCompletionRound s
  | .liveMigration t u => Sys2Proof.Machine.execLiveMigration t u s
  | .quiescePoint t c => Sys2Proof.Machine.execQuiescePoint t c s
  | .vfifoLanding t => Sys2Proof.Machine.execVfifoLanding t s
  | .vfifoCreditReturn t => Sys2Proof.Machine.execVfifoCreditReturn t s
  | .kStepConsume e => Sys2Proof.Machine.execKStepConsume e s
  | .deliverySend e => Sys2Proof.Machine.execDeliverySend e s
  | .deliveryApply t => Sys2Proof.Machine.execDeliveryApply t s
  | .deliveryAck e => Sys2Proof.Machine.execDeliveryAck e s
  | .copyCommandStart t => Sys2Proof.Machine.execCopyCommandStart t s
  | .copyCompletion t => Sys2Proof.Machine.execCopyCompletion t s
  | .foldPerform t => Sys2Proof.Machine.execFoldPerform t s
  | .launchDoorbell n q tail ds => Sys2Proof.Machine.execLaunchDoorbell n q tail ds s
  | .kernelRegister n file => Sys2Proof.Machine.execKernelRegister n file s
  | .launchPlace n q => Sys2Proof.Machine.execLaunchPlace n q s
  | .launchLoadComplete l => Sys2Proof.Machine.execLaunchLoadComplete l s
  | .launchAbort l => Sys2Proof.Machine.execLaunchAbort l s
  | .stationRequest k => Sys2Proof.Machine.execStationRequest k s
  | .tableWalkComplete k => Sys2Proof.Machine.execTableWalkComplete k s
  | .hbmAccessComplete k => Sys2Proof.Machine.execHbmAccessComplete k s
  | .routerArbitration t => Sys2Proof.Machine.execRouterArbitration t s
  | .haltHoldDelivery t => Sys2Proof.Machine.execHaltHoldDelivery t s
  | .spanFrameReceive p f => Sys2Proof.Machine.execSpanFrameReceive p f s
  | .spanLaneFail p lane => Sys2Proof.Machine.execSpanLaneFail p lane s
  | .spanEnable p => Sys2Proof.Machine.execSpanEnable p s
  | .spanTrainingDone p lanes => Sys2Proof.Machine.execSpanTrainingDone p lanes s
  | .spanTrainingTimeout p => Sys2Proof.Machine.execSpanTrainingTimeout p s
  | .spanPeerHalt p => Sys2Proof.Machine.execSpanPeerHalt p s
  | .spanPeerResume p => Sys2Proof.Machine.execSpanPeerResume p s
  | .spanPeerLost p => Sys2Proof.Machine.execSpanPeerLost p s
  | .spanDisable p => Sys2Proof.Machine.execSpanDisable p s
  | .transferResend x => Sys2Proof.Machine.execTransferResend x s
  | .transferAck x => Sys2Proof.Machine.execTransferAck x s
  | .releaseNotice dev x => Sys2Proof.Machine.execReleaseNotice dev x s
  | .landingCount imm => Sys2Proof.Machine.execLandingCount imm s
  | .counterEngineCycle => Sys2Proof.Machine.execCounterEngineCycle s
  | .bridgeDegrade b => Sys2Proof.Machine.execBridgeDegrade b s
  | .bridgeDown b => Sys2Proof.Machine.execBridgeDown b s
  | .trickle t => Sys2Proof.Machine.execTrickle t s
  | .commit t => Sys2Proof.Machine.execCommit t s
  | .commitComplete t => Sys2Proof.Machine.execCommitComplete t s
  | .autoCommitInterval t => Sys2Proof.Machine.execAutoCommitInterval t s
  | .persistRequest t => Sys2Proof.Machine.execPersistRequest t s
  | .powerLoss t => Sys2Proof.Machine.execPowerLoss t s
  | .resume t => Sys2Proof.Machine.execResume t s
  | .gateRequestAccept t => Sys2Proof.Machine.execGateRequestAccept t s
  | .gateOff t => Sys2Proof.Machine.execGateOff t s
  | .gateOn t => Sys2Proof.Machine.execGateOn t s
  | .gateQuiesced t => Sys2Proof.Machine.execGateQuiesced t s
  | .sleepWake t => Sys2Proof.Machine.execSleepWake t s
  | .tileHalt t => Sys2Proof.Machine.execTileHalt t s
  | .eccRollback t => Sys2Proof.Machine.execEccRollback t s
  | .healthMigration t u => Sys2Proof.Machine.execHealthMigration t u s
  | .sumacSession who authentic => Sys2Proof.Machine.execSumacSession who authentic s
  | .sumacSessionTimeout imm => Sys2Proof.Machine.execSumacSessionTimeout imm s
  | .list imm => Sys2Proof.Machine.execList imm s
  | .setgrp imm ts groups dbg => Sys2Proof.Machine.execSetgrp imm ts groups dbg s
  | .stop imm n groups => Sys2Proof.Machine.execStop imm n groups s
  | .sumacResume imm n groups own => Sys2Proof.Machine.execSumacResume imm n groups own s
  | .readctx imm t c => Sys2Proof.Machine.execReadctx imm t c s
  | .readmem imm t sp addr len => Sys2Proof.Machine.execReadmem imm t sp addr len s
  | .writemem imm t sp addr bytes => Sys2Proof.Machine.execWritemem imm t sp addr bytes s
  | .readrec imm => Sys2Proof.Machine.execReadrec imm s
  | .readglobal imm pid addr len => Sys2Proof.Machine.execReadglobal imm pid addr len s
  | .events imm => Sys2Proof.Machine.execEvents imm s
  | .intervalBoundary otherWatts peaks => Sys2Proof.Machine.execIntervalBoundary otherWatts peaks s
  | .throttleWindow cl e => Sys2Proof.Machine.execThrottleWindow cl e s
  | .frameBoundary t => Sys2Proof.Machine.execFrameBoundary t s
  | .powerToken token => Sys2Proof.Machine.execPowerToken token s
  | .tokenExpiry => Sys2Proof.Machine.execTokenExpiry s
  | .moduleReset fails => Sys2Proof.Machine.execModuleReset fails s
  | .getMeasurements => Sys2Proof.Machine.execGetMeasurements s
  | .pidBindWrite n q pid => Sys2Proof.Machine.execPidBindWrite n q pid s
  | .tenantCreate n cfg => Sys2Proof.Machine.execTenantCreate n cfg s
  | .tenantChange n cfg => Sys2Proof.Machine.execTenantChange n cfg s
  | .tenantDelete n => Sys2Proof.Machine.execTenantDelete n s
  | .hostRegisterWrite n off val => Sys2Proof.Machine.execHostRegisterWrite n off val s
  | .pageTableWrite pa val => Sys2Proof.Machine.execPageTableWrite pa val s
  | .kernelUnregister h => Sys2Proof.Machine.execKernelUnregister h s
  | .powerReturnTimeout t => Sys2Proof.Machine.execPowerReturnTimeout t s
  | .secondTierPortLost p => Sys2Proof.Machine.execSecondTierPortLost p s
  | .secondTierAccessComplete k => Sys2Proof.Machine.execSecondTierAccessComplete k s
  | .spanEngineDebugStop => Sys2Proof.Machine.execSpanEngineDebugStop s
  | .spanEngineDebugResume => Sys2Proof.Machine.execSpanEngineDebugResume s
  | .journalClear => Sys2Proof.Machine.execJournalClear s
  | .imageInstall kind slot ver good => Sys2Proof.Machine.execImageInstall kind slot ver good s

end Sys2Proof.Machine
end

