-- ==== Sys2Proof/Machine/Storage.lean ====
section
/-! DEFINITION. Errors of the storage (R332 to R335): what a turn of the agenda brings, and what an instruction meets that reads an
uncorrectable register or bank word. Scratchpad and HBM words are checked by the accesses themselves. -/

namespace Sys2Proof

/-- Under a prefix these execute for their enabled byte lanes; every other instruction executes in full or not at all (R55). -/
def Instr.laneMasked : Instr → Bool
  | .lv .. | .sv .. | .lvs .. | .lvg .. | .svx .. | .svf .. | .lgv .. => true
  | .ldPostinc _ _ k _ => k == 7
  | .stPostinc _ _ k _ => k == 4
  | .vadd .. | .vsub .. | .vmul .. | .vfma .. | .vmin .. | .vmax .. | .vabs .. | .vneg .. => true
  | .vand .. | .vor .. | .vxor .. | .vshl .. | .vshr .. | .vsha .. | .vsel .. => true
  | .vbcast .. | .vperm .. | .vshuf .. | .vredAdd .. | .vredMax .. | .vredMin .. => true
  | .vcvt .. | .vpack .. | .vunpk .. | .vdot .. | .vscale .. | .vmaxexp .. | .vrcp .. | .vrsq .. | .vexp2 .. => true
  | .accrd .. | .accwr .. | .acccvt .. => true
  | .qpop _ _ q | .qpeek _ _ q | .qpopw _ q => decide (4 ≤ q.val) && decide (q.val ≤ 6)
  | _ => false

/-- Scalar registers that an instruction reads (DEDUCED, log 61). -/
def Instr.readsS : Instr → List (Fin 32)
  | .add _ a b | .sub _ a b | .mul _ a b | .mulh _ a b | .mulhu _ a b | .div _ a b | .divu _ a b | .rem _ a b | .remu _ a b => [a, b]
  | .and _ a b | .or _ a b | .xor _ a b | .shl _ a b | .shr _ a b | .sha _ a b | .min _ a b | .max _ a b | .minu _ a b => [a, b]
  | .maxu _ a b | .slt _ a b | .sltu _ a b | .seq _ a b | .gaddr _ a b | .sel _ a b _ => [a, b]
  | .clz _ a | .ctz _ a | .popc _ a | .mov _ a | .widF _ a _ | .addi _ a _ | .andi _ a _ | .ori _ a _ | .xori _ a _ => [a]
  | .slti _ a _ | .lih _ a _ | .shli _ a _ | .shri _ a _ | .shai _ a _ | .bext _ a _ _ | .pset _ a | .jalr _ a _ | .loop _ a _ => [a]
  | .bins d a _ _ => [d, a]
  | .ldI8 _ a _ | .ldN8 _ a _ | .ldI16 _ a _ | .ldN16 _ a _ | .ldI32 _ a _ | .ldN32 _ a _ | .ldI64 _ a _ | .lv _ a _ => [a]
  | .ldPostinc _ a _ _ | .sv _ a _ => [a]
  | .st8 d a _ | .st16 d a _ | .st32 d a _ | .st64 d a _ | .stf32 d a _ | .stf64 d a _ => [d, a]
  | .stPostinc d a k _ => if k = 4 then [a] else [d, a]
  | .lvs _ a b _ => [a, b]
  | .lvg _ a _ _ | .svx _ a _ _ => [a]
  | .beq a b _ | .bne a b _ | .blt a b _ | .bge a b _ | .bltu a b _ | .bgeu a b _ => [a, b]
  | .ldf32 _ a _ | .ldf64 _ a _ | .lvf _ a _ | .svf _ a _ => [a]
  | .aadd _ a b _ _ | .aand _ a b _ _ | .aor _ a b _ _ | .axor _ a b _ _ | .amin _ a b _ _ | .amax _ a b _ _ => [a, b]
  | .aminu _ a b _ _ | .amaxu _ a b _ _ | .aswap _ a b _ _ | .xaddf a b _ => [a, b]
  | .acas d a b _ _ | .cpy d a b _ | .fold d a b | .vst d a b | .tsend d a b => [d, a, b]
  | .xrd _ a _ | .xclr a | .vbcast _ a _ | .mxpushm a _ _ | .msetm a | .skld _ a | .semset _ a | .phreg _ a _ | .phdrop a => [a]
  | .phsig _ a | .phnext _ a | .retireS a | .pgate a _ | .cntrd _ a | .chmask a _ | .lgd _ a | .lgv _ a | .sgv _ a => [a]
  | .phwait _ a b | .vld _ a b | .vrecl a b | .cntset a b | .seal a b | .unseal a b | .sgd a b | .tlbiH a b => [a, b]
  | .barw _ _ b => [b]
  | .mxcfg d _ | .sysw d _ _ => [d]
  | .send d a b _ | .sendm d a b _ => [d, a, b]
  | .qpush d _ q | .qpushw d q => if 4 ≤ q.val && q.val ≤ 6 then [] else [d]
  | .rpush d _ b => [d, b]
  | .rpop _ _ b => [b]
  | .chblk d a | .chunb d a | .pusht d a _ => [d, a]
  | .cAlu d a o => if o = 5 then [a] else [d, a]
  | .cAddi d _ => [d]
  | .cLd d a o _ => if 2 ≤ o.val then [Machine.cReg d, Machine.cReg a] else [Machine.cReg a]
  | _ => []

/-- Vector registers that an instruction reads. -/
def Instr.readsV : Instr → List (Fin 32)
  | .sv d _ _ | .svf d _ _ | .sgv d _ => [d]
  | .stPostinc d _ k _ => if k = 4 then [d] else []
  | .lvg _ _ b _ => [b]
  | .svx d _ b _ => [d, b]
  | .vadd _ _ a b _ | .vsub _ _ a b _ | .vmul _ _ a b _ | .vmin _ _ a b _ | .vmax _ _ a b _ => [a, b]
  | .vcmpeq _ _ a b _ | .vcmplt _ _ a b _ | .vcmple _ _ a b _ | .vscale _ _ a b _ | .vpack _ _ a b _ => [a, b]
  | .vfma _ d a b _ | .vdot _ d a b _ | .vshuf d a b _ => [d, a, b]
  | .vredAdd _ _ a _ | .vredMax _ _ a _ | .vredMin _ _ a _ | .vcvt _ _ a _ _ => [a]
  | .vand _ a b | .vor _ a b | .vxor _ a b | .vshl _ a b _ | .vshr _ a b _ | .vsha _ a b _ | .vsel _ a b _ | .vperm _ a b _ => [a, b]
  | .vabs _ a _ | .vneg _ a _ | .vext _ a _ _ | .vrcp _ a _ | .vrsq _ a _ | .vexp2 _ a _ | .vmaxexp _ a _ | .vunpk _ a _ _ => [a]
  | .mxpush a _ | .mxscl a _ => [a]
  | .accwr _ v _ => [v, v + 1]
  | .qpush d _ q | .qpushw d q => if 4 ≤ q.val && q.val ≤ 6 then [d] else []
  | _ => []

/-- A value in a register makes the instruction ILLEGAL: FOLD's descriptor (R194), TLBI.H's second operand (R265). -/
def Instr.operandIll (i : Instr) (s : Machine.State) : Bool :=
  match i with
  | .fold d _ _ =>
    let x := s.ctx.sreg d
    Machine.foldOp x = 3 || (!Machine.bit x.toNat 20 && s.me.core.foldSeen[Machine.foldSlotOf x] != some (Machine.foldOp x))
  | .tlbiH _ b => decide (2 ^ 17 ≤ (s.ctx.sreg b).toNat)
  | _ => false

/-- The register whose value decides that. -/
def Instr.decider : Instr → Option (Fin 32)
  | .fold d _ _ => some d
  | .tlbiH _ b => some b
  | _ => none

/-- A bank or row field raises ACC_INDEX before the instruction reads a vector register (R52, R245). -/
def Instr.fieldFault : Instr → Bool
  | .accwr k _ r => (Machine.bankTrap k.val r.val).isSome
  | _ => false

/-- 64-bit words of the banks that an instruction reads: a row has eight. -/
def Instr.readsBank : Instr → List Nat
  | .accrd _ k r | .acccvt _ k r _ => if k.val ≤ 7 && r.val ≤ 15 then (List.range 8).map fun j => 128 * k.val + 8 * r.val + j else []
  | _ => []

end Sys2Proof

namespace Sys2Proof.Machine

/-- Where a mode guards an instruction, PRIV comes first (R52). -/
def State.mayRun (s : State) (i : Instr) : Bool :=
  match i with
  | .sysw _ m n => s.sysMay (sysNumber m n)
  | .qpushw .. | .qpopw .. => s.me.krn.maint
  | .pgate _ m => m.val != 2
  | .tlbiH .. => isHelm s.cur.1 && s.me.super
  | _ => true

/-- A loop whose body or nesting is ILLEGAL, whatever its count (R93). -/
def State.loopIll (s : State) (i : Instr) : Bool :=
  match i with
  | .loop d _ _ | .loopi d _ _ => (s.loopBody i.size (d.val + 1)).isNone
  | _ => false

/-- A fault of the instruction's own fields or operands, which comes before what its registers hold is read (R52): ILLEGAL of an operand
whose register can be read, ILLEGAL of a loop's body or nesting, ACC_INDEX. -/
def State.refused (s : State) (i : Instr) : Bool :=
  i.fieldFault || s.loopIll i || (i.operandIll s && !((i.decider.map fun r => s.ctx.badS.contains r.val).getD false))

/-- The first uncorrectable word among the registers, bank words and outbox messages that the instruction reads: its structure and its
address there. -/
def State.meetsBad (s : State) (i : Instr) : Option (Nat × Nat) :=
  let y := s.ctx
  let c := s.cur.2.val
  (((i.readsS.find? fun r => r != 0 && y.badS.contains r.val).map fun r => (1, 32 * c + r.val)).orElse fun _ =>
    (y.badV.find? fun w => i.readsV.any fun r => w / 4 == r.val).map fun w => (2, 128 * c + w)).orElse fun _ =>
      ((i.readsBank.find? fun w => s.me.core.badAcc.contains w).map fun w => (3, w)).orElse fun _ =>
        if i.readsOutbox && y.outbox.any (·.bad) then some (6, c) else none

/-- The instruction executes and reads an uncorrectable word of a register, of a bank or of the outbox. A RETIRE that only waits for its
commit word reads nothing any more. -/
def State.readsBad (s : State) (i : Instr) : Bool :=
  s.legal i && s.mayRun i && !s.refused i && (s.ctx.cond || i.laneMasked) && s.ctx.persisted.isNone && (s.meetsBad i).isSome

/-- The precise ECC trap of such a read: word 3 is 0 (R333), and the helm gets a record (R335). -/
def State.eccRead (s : State) (i : Instr) : State :=
  let w := (s.meetsBad i).getD (1, 0)
  s.raise (eccIn s.cycle w.1 w.2)

/-- The instruction runs, unless it reads a bad word. -/
def runChecked (i : Instr) (run : State → Result) (s : State) : Result := if s.readsBad i then .next (s.eccRead i) else run s

/-- A slot of the ballast die fails its CRC. -/
def Ballast.spoil (b : Ballast) (e : StoreErr) : Ballast :=
  let line := fun (m : List (Nat × LineSlot)) (l : Nat) => m.map fun (x : Nat × LineSlot) => if x.1 = l then (l, { x.2 with ok := false }) else x
  match e with
  | .line _ l true => { b with slotB := line b.slotB l }
  | .line _ l false => { b with slotA := line b.slotA l }
  | .block _ true => { b with blkB := b.blkB.map fun x => { x with ok := false } }
  | .block _ false => { b with blkA := b.blkA.map fun x => { x with ok := false } }
  | .word _ true => { b with wordB := b.wordB.map fun x => { x with ok := false } }
  | .word _ false => { b with wordA := b.wordA.map fun x => { x with ok := false } }
  | _ => b

/-- An error of the storage (R332): a corrected one is counted, an uncorrectable word stays bad until a write covers it (R334). That of a
descriptor is found at once, for selection reads the queues all the time, and keeps its message from being selected (DESIGN CHOICE,
log 100). One of a word that the part does not have is none (log 10). -/
def State.storageError (s : State) (e : StoreErr) : Result :=
  let at' := fun (t : Nat) (s' : State) => .next (if isSite t then s' else s)
  match e with
  | .fixed t w => at' t (s.modSite t fun x => { x with fixed := x.fixed ++ [(w, s.cycle)] })
  | .selfTest t => at' t (s.modSite t fun x => { x with selfFail := true })
  | .scratch t a => at' t (s.modSite t fun x => { x with bad := setAdd x.bad (a % Config.localEnd / 8 * 8) })
  | .sreg t c r => at' t (s.modCtxAt t c fun y => { y with badS := setAdd y.badS r.val })
  | .vreg t c r w => at' t (s.modCtxAt t c fun y => { y with badV := setAdd y.badV (4 * r.val + w.val) })
  | .bank t w => at' t (s.modCore t fun k => { k with badAcc := setAdd k.badAcc (w % 1024) })
  | .queue t q i => at' t (s.modCore t fun k =>
      if q < 8 && i < (k.qcount q).1 then { k with badQ := (q, (k.qcount q).2.1 + i) :: k.badQ.filter (· != (q, (k.qcount q).2.1 + i)) } else k)
  | .desc t ch i => at' t ((s.errRecord t 5 ch.val).modCore t fun k =>
      { k with chq := k.chq.set ch (k.chq[ch].modify i fun d => { d with bad := true }) })
  | .outbox t c i => at' t (
      let n := (s.ctxAt t c).outbox.length
      if i < n then s.modCtxAt t c fun y => { y with outbox := y.outbox.modify i fun m => { m with bad := true } }
      else s.modCore t fun k => { k with pend := k.pend.modify (i - n) fun p => { p with msg := { p.msg with bad := true } } })
  | .other t what => at' t (s.errRecord t what 0)
  | .data h => .next { s with kernels := s.kernels.map fun (k : Kernel) => if k.handle = h then { k with lost := true } else k }
  | .hbm a => .next (if isHbm (a / 32 * 32) 32 then { s with badPhys := setAdd s.badPhys (a / 32 * 32) } else s)
  | .journal i => .next { s with boot := { s.boot with journal := s.boot.journal.modify i fun r => { r with ok := false } } }
  | .line t _ _ | .block t _ | .word t _ => at' t (s.modSite t fun x => { x with ballast := x.ballast.spoil e })

end Sys2Proof.Machine
end

