-- ==== Sys2Proof/Machine/Schedule.lean ====
section
/-! DEFINITION. Fetching and issuing an instruction (R47, R38), the passing of a cycle, memory-stage accesses that are served later
than they issue (R268, R269, R279), and what happens next when the agenda names nothing: the machine's own pending events in turn with
issue slots, so that each gets its chance. -/

namespace Sys2Proof

/-- For an access of the memory stage (R268): the scalar and vector registers that it writes when it is served. The scratchpad reads of
SKLD, SEND, SENDM, TSEND and MXPUSHM, which R268's list omits, take their place at their issue and wait for no other context's access
(DESIGN CHOICE, log 94). -/
def Instr.memDest : Instr → Option (List (Fin 32) × List (Fin 32))
  | .ldI8 d _ _ | .ldN8 d _ _ | .ldI16 d _ _ | .ldN16 d _ _ | .ldI32 d _ _ | .ldN32 d _ _ | .ldI64 d _ _ => some ([d], [])
  | .lv d _ _ | .lvs d _ _ _ | .lvg d _ _ _ => some ([], [d])
  | .ldPostinc d _ k _ => if k = 7 then some ([], [d]) else some ([d], [])
  | .st8 .. | .st16 .. | .st32 .. | .st64 .. | .sv .. | .svx .. | .stPostinc .. => some ([], [])
  | .cLd d _ o _ => if 2 ≤ o.val then some ([], []) else some ([Machine.cReg d], [])
  | _ => none

/-- An instruction that need not wait for earlier loads of the memory stage, with the registers that it writes: requests through the NI
or ca and commands to engines (R268, R284), queues and semaphores (R273), transfers of control (R278), WFI (R273), group synchronisation
(R205), FENCE, which waits for stores (R214), and instructions on registers alone. The ends of activations, persist fences, traps and
everything else wait. -/
def Instr.passing : Instr → Option (List (Fin 32) × List (Fin 32))
  | .ldf32 d _ _ | .ldf64 d _ _ | .xrd d _ _ | .vld d _ _ | .rpop d _ _ => some ([d], [])
  | .aadd d _ _ _ _ | .aand d _ _ _ _ | .aor d _ _ _ _ | .axor d _ _ _ _ | .amin d _ _ _ _ | .amax d _ _ _ _ => some ([d], [])
  | .aminu d _ _ _ _ | .amaxu d _ _ _ _ | .aswap d _ _ _ _ | .acas d _ _ _ _ => some ([d], [])
  | .lvf d _ _ => some ([], [d])
  | .stf32 .. | .stf64 .. | .svf .. | .xaddf .. | .xclr .. | .vst .. | .vrecl .. | .chblk .. | .chunb .. | .rpush .. | .qpush .. => some ([], [])
  | .add d _ _ | .sub d _ _ | .mul d _ _ | .mulh d _ _ | .mulhu d _ _ | .div d _ _ | .divu d _ _ | .rem d _ _ | .remu d _ _ => some ([d], [])
  | .and d _ _ | .or d _ _ | .xor d _ _ | .shl d _ _ | .shr d _ _ | .sha d _ _ | .min d _ _ | .max d _ _ | .minu d _ _ => some ([d], [])
  | .maxu d _ _ | .slt d _ _ | .sltu d _ _ | .seq d _ _ | .clz d _ | .ctz d _ | .popc d _ | .mov d _ | .sel d _ _ _ => some ([d], [])
  | .tileid d | .gaddr d _ _ | .widF d _ _ | .addi d _ _ | .andi d _ _ | .ori d _ _ | .xori d _ _ | .slti d _ _ => some ([d], [])
  | .li d _ | .lih d _ _ | .shli d _ _ | .shri d _ _ | .shai d _ _ | .bext d _ _ _ | .bins d _ _ _ | .cAlu d _ _ | .cAddi d _ => some ([d], [])
  | .cLi d _ | .vext d _ _ _ => some ([d], [])
  | .pset .. | .pand .. | .por .. | .pxor .. | .pnot .. | .nop => some ([], [])
  | .vadd _ d _ _ _ | .vsub _ d _ _ _ | .vmul _ d _ _ _ | .vfma _ d _ _ _ | .vmin _ d _ _ _ | .vmax _ d _ _ _ => some ([], [d])
  | .vredAdd _ d _ _ | .vredMax _ d _ _ | .vredMin _ d _ _ | .vcvt _ d _ _ _ | .vdot _ d _ _ _ | .vscale _ d _ _ _ => some ([], [d])
  | .vpack _ d _ _ _ | .vabs d _ _ | .vneg d _ _ | .vand d _ _ | .vor d _ _ | .vxor d _ _ | .vshl d _ _ _ | .vshr d _ _ _ => some ([], [d])
  | .vsha d _ _ _ | .vsel d _ _ _ | .vbcast d _ _ | .vperm d _ _ _ | .vshuf d _ _ _ | .vrcp d _ _ | .vrsq d _ _ => some ([], [d])
  | .vexp2 d _ _ | .vmaxexp d _ _ => some ([], [d])
  | .vunpk d _ _ _ => some ([], [d])
  | .vcmpeq .. | .vcmplt .. | .vcmple .. => some ([], [])
  | .beq .. | .bne .. | .blt .. | .bge .. | .bltu .. | .bgeu .. | .bp .. | .bnp .. | .j .. | .cB .. | .loop .. | .loopi .. | .yield => some ([], [])
  | .jal _ => some ([31], [])
  | .jalr d _ _ | .sysr d _ _ | .karg d _ | .msgid d | .pstat d | .mxstat d _ | .foldrd d _ | .cpypop d | .qcnt d _ => some ([d], [])
  | .qpop d _ q | .qpeek d _ q | .qpopw d q => if 4 ≤ q.val && q.val ≤ 6 then some ([], [d]) else some ([d], [])
  | .sysw .. | .qpushw .. | .semset .. | .semadd .. | .semwait .. | .chmask .. | .mxopen _ | .mxcfg .. | .mxpush .. | .mxscl .. => some ([], [])
  | .mxclose _ | .msetm _ | .skld .. | .accz _ | .accwr .. | .cpy .. | .fold .. | .send .. | .sendm .. => some ([], [])
  | .mxpushm a _ _ => some ([a], [])
  | .accrd v _ _ => some ([], [v, v + 1])
  | .acccvt v _ _ _ => some ([], [v])
  | .cntrd d _ | .lgd d _ => some ([d], [])
  | .lgv d _ => some ([], [d])
  | .cntset .. | .sgd .. | .sgv .. => some ([], [])
  | .wfi | .fence _ | .bar _ | .barw .. | .phdrop _ | .phwait .. | .seal .. | .unseal .. | .pusht .. | .tsend .. => some ([], [])
  | .pgate .. => some ([], [])
  | .bara d _ | .phreg d _ _ | .phsig d _ | .phnext d _ => some ([d], [])
  | _ => none

/-- One of these that waits for earlier stores: a FENCE (R214), a release at tile scope (R159, R273), the arming of a send (R282), a command
to an engine (R284), a read of the scratchpad in program order (R98). -/
def Instr.releases : Instr → Bool
  | .rpush .. | .qpush .. | .qpushw .. | .semset .. | .semadd .. => true
  | .mxopen _ | .mxcfg .. | .mxpush .. | .mxscl .. | .mxclose _ | .mxpushm .. | .cpy .. | .fold .. => true
  | .skld .. | .send .. | .sendm .. | .fence _ | .tsend .. => true
  | _ => false

/-- Events that come about while accesses wait at a memory stage: those of the network, the NI, ca, the engines and the stations. -/
def Instr.beside : Instr → Bool
  | .outboxInject _ | .messageArrival _ | .farRequestService _ | .caOperation _ | .farResponseArrival _ | .channelControlArrival _ => true
  | .remoteRecordArrival _ | .pushBeatArrival _ | .copyCommandStart _ | .copyCompletion _ | .foldPerform _ | .vfifoLanding _ => true
  | .vfifoCreditReturn _ | .vldResend _ _ | .routerArbitration _ | .kStepConsume _ | .deliverySend _ | .deliveryApply _ | .deliveryAck _ => true
  | .stationRequest _ | .tableWalkComplete _ | .hbmAccessComplete _ | .secondTierAccessComplete _ | .sealRequestArrival _ => true
  | .phaserRequest _ | .ratlineRelease _ _ _ | .counterEngineCycle | .landingCount _ | .wfiWake _ _ => true
  | _ => false

end Sys2Proof

namespace Sys2Proof.Machine

/-- A cycle passes: SY.CYCLE, the HALTHOLD marks, the watchdog counts (R144, R336), and what reached the engines in the cycle that ends
(R250) (DESIGN CHOICE, log 5). -/
def State.pass (s : State) : State :=
  let s := s.engines.foldl (fun (s : State) e => s.engineArrivals s.cycle e.1) s
  { s with cycle := s.cycle + 1, sites := s.sites.map fun (e : Nat × Site) => (e.1, s.markCtxs e.1 e.2) }

/-! Issue. -/

/-- The instruction at pc + off of the running context; what no instruction stands at raises ILLEGAL (R48, R54, R90). One
that reads a bad register or bank word traps (R333). -/
def fetchAndRun (off : Nat) (s : State) : Result :=
  match s.me.instrAt (s.ctx.pc.toNat + off) with
  | none => .next (s.raise { cause := cILLEGAL })
  | some i => runChecked i (exec i) s

/-- Then a prefixed pair's second half, in the same slot (R55). -/
def runPair (r : Result) : Result :=
  match r with
  | .next s => if s.ctx.pfx.isSome && s.ctx.st == .running then fetchAndRun 2 s else .next s
  | r => r

/-- Context c of site t takes an issue slot, or none for the next beat of an MXPUSHM, which has issued (R234). -/
def State.takeSlot (s : State) (t : Nat) (c : Fin 4) : State :=
  let s := { s with cur := (t, c) }
  if s.ctx.pushed ≠ 0 then s.modCtx fun y => { y with st := .running, pfx := none }
  else
    let s := s.modSite t fun x => { x with rr := c.val, issued := x.issued + 1, slotFrom := s.cycle + x.divider }
    s.modCtx fun y => { y with st := .running, pfx := none, quota := y.quota - 1, yielding := false }

/-- Context c of site t issues. -/
def State.issueAt (s : State) (t : Nat) (c : Fin 4) : Result := runPair (fetchAndRun 0 (s.takeSlot t c))

/-- Context c of site t still waits for its instruction to be issued again. -/
def State.retries (s : State) (t : Nat) (c : Fin 4) : Bool :=
  match (s.ctxAt t c).st, (s.ctxAt t c).wait with
  | .stalled, .retry _ => true
  | _, _ => false

/-- A context may take an issue slot (R38, R139): it runs and does not stand at a BRK that halts its tile, or it stalls in an
instruction that can go on: its condition has cleared, or part of it gets done (R202, R239). A returned VLD waits for its resend (R213) (DESIGN CHOICE, log 20). -/
def State.ready (s : State) (t : Nat) (c : Fin 4) : Bool :=
  let y := s.ctxAt t c
  if y.st = .running then !y.atBrk
  else s.retries t c && (match s.pending t c with
    | some (.vld _ _ _) => false
    | _ => match s.issueAt t c with
      | .next s' => !s'.retries t c || s'.ctxAt t c != (s.takeSlot t c).stall.ctxAt t c
      | _ => true)

/-! Accesses of the memory stage that are served later than they issue (R268, R269, R279) (DESIGN CHOICE, log 4). -/

/-- c with the scalar registers rs and the vector registers vs of u. -/
def Ctx.take (c u : Ctx) (rs vs : List (Fin 32)) : Ctx :=
  let inS := fun (n : Nat) => rs.any fun r => r.val == n
  let inV := fun (w : Nat) => vs.any fun r => r.val == w / 4
  { c with s := Vector.ofFn fun r => if rs.contains r then u.s[r] else c.s[r], v := Vector.ofFn fun r => if vs.contains r then u.v[r] else c.v[r],
           badS := c.badS.filter (fun n => !inS n) ++ u.badS.filter inS, badV := c.badV.filter (fun w => !inV w) ++ u.badV.filter inV }

/-- Access e of site t is served: it reads its operands as they stood at its issue. -/
def State.perform (t : Nat) (s : State) (e : Late) : State :=
  let now := s.ctxAt t e.ctx
  let s' : State := { s.setCtxAt t e.ctx e.snap with cur := (t, e.ctx) }
  match exec e.instr s', e.instr.memDest with
  | .next u, some (rs, vs) => { u.setCtxAt t e.ctx (now.take u.ctx rs vs) with cur := s.cur }
  | _, _ => s

/-- The waiting accesses of site t are served up to the last one that p names: the memory stage serves one at a time, in the order of
their issue (R78, R271). -/
def State.drain (s : State) (t : Nat) (p : Late → Bool) : State :=
  let l := (s.site t).late
  let n := l.length - (l.reverse.takeWhile fun e => !p e).length
  if n = 0 then s else (l.take n).foldl (State.perform t) (s.modSite t fun x => { x with late := l.drop n })

/-- Context c of site t traps if its watchdog has expired; its waiting accesses, which have issued, are served first. -/
def State.expireAt (t : Nat) (s : State) (c : Fin 4) : State :=
  if (s.site t).expired c then (s.drain t fun e => e.ctx == c).expire t c else s

/-- Every context whose watchdog has expired traps (R144). -/
def State.watchdogs (s : State) : State :=
  (s.sites.filter fun e => isSite e.1 && e.2.up && (List.finRange 4).any e.2.expired).foldl
    (fun (s : State) e => (List.finRange 4).foldl (State.expireAt e.1) s) s

/-- A cycle passes, and the watchdogs that it brings to their limit trap. -/
def State.tick (s : State) : State := s.pass.watchdogs

/-- All waiting accesses are served. -/
def State.drainAll (s : State) : State :=
  (s.sites.filter fun e => !e.2.late.isEmpty).foldl (fun (s : State) e => s.drain e.1 fun _ => true) s

/-- Instruction i of context c of site t, which writes rs and vs, meets no register that a waiting access will write. -/
def State.clearOf (s : State) (t : Nat) (c : Fin 4) (i : Instr) (rs vs : List (Fin 32)) : Bool :=
  (s.site t).late.all fun e => e.ctx != c || (match e.instr.memDest with
    | some (ps, pv) => ps.all (fun r => !(i.readsS ++ rs).contains r) && pv.all fun r => !(i.readsV ++ vs).contains r
    | none => true)

/-- ca performs what stands before the last posted reclaim of context c in its order. -/
def State.runOwnPosts (s : State) (t : Nat) (c : Fin 4) : Nat → State
  | 0 => s
  | n + 1 =>
    if (s.ctxAt t c).posted = 0 then s
    else match execCaOperation t s with
      | .next s' => s'.runOwnPosts t c n
      | _ => s

/-- What waits for context c of site t and its next instruction may not pass is served first: for an access of the memory stage every
waiting one, else those of its context. A QPUSH or QPUSHW, which never waits for them itself (R163, R164), comes after the reclaims that
it releases (R273). -/
def State.settleLate (s : State) (t : Nat) (c : Fin 4) : State :=
  let mine := fun (e : Late) => e.ctx == c
  match s.pending t c with
  | some i =>
    let s := if i.memDest.isSome then s.drain t fun _ => true
      else match i.passing with
        | some (rs, vs) =>
          if !s.clearOf t c i rs vs then s.drain t mine
          else if i.releases then s.drain t fun e => mine e && e.instr.memDest == some ([], [])
          else s
        | none => s.drain t mine
    match i with
    | .qpush _ _ _ | .qpushw _ _ => s.runOwnPosts t c (s.site t).core.caq.length
    | _ => s
  | none => s.drain t mine

/-- Context c of site t issues, after what its instruction may not pass; a trap that this brought about ends the activation first. -/
def State.issueNow (s : State) (t : Nat) (c : Fin 4) : Result :=
  let s := s.settleLate t c
  if (s.ctxAt t c).st = .trapped then .next s else s.issueAt t c

/-- Context c of site t takes its slot, and the prefix of its instruction has executed. -/
def State.openSlot (s : State) (t : Nat) (c : Fin 4) : Result :=
  let a := s.takeSlot t c
  match (s.site t).instrAt (s.ctxAt t c).pc.toNat with
  | some (.pfx _ _) => fetchAndRun 0 a
  | _ => .next a

/-- The registers that the waiting accesses of context c of site t will write. -/
def State.lateDest (s : State) (t : Nat) (c : Fin 4) : List (Fin 32) × List (Fin 32) :=
  let l := ((s.site t).late.filter fun e => e.ctx == c).filterMap fun e => e.instr.memDest
  (l.flatMap (·.1), l.flatMap (·.2))

/-- Context c of site t issues an access of the memory stage that will be served later: only its own registers as the issue leaves them
change now. Whether it traps is seen as it will be served, after every earlier access; one that traps, and any other instruction, runs as
ever (DESIGN CHOICE, log 4). -/
def State.issueLate (s : State) (t : Nat) (c : Fin 4) : Result :=
  match s.pending t c with
  | none => s.issueNow t c
  | some i => match i.memDest with
    | none => s.issueNow t c
    | some (rs, vs) =>
      let s := if s.clearOf t c i rs vs then s else s.drain t fun e => e.ctx == c
      match s.openSlot t c, (s.drain t fun _ => true).openSlot t c with
      | .next b, .next d =>
        if b.ctx.st != .running then .next b
        else match runChecked i (exec i) d with
          | .next u =>
            if u.ctx.st != .running then .next u
            else
              let l := s.lateDest t c
              let s := b.setCtx ((u.ctx.take b.ctx rs vs).take b.ctx l.1 l.2)
              .next (s.modSite t fun x => { x with late := x.late ++ [{ ctx := c, instr := i, snap := b.ctx }] })
          | r => r
      | r, _ => r

/-! The machine's own choice. -/

/-- The contexts of site t that are ready for an issue slot, in the order of R38: after the one that issued last. -/
def State.readyOrder (s : State) (t : Nat) : List (Fin 4) :=
  let r := (s.site t).rr
  ([1, 2, 3, 4].map fun j => fin4 (r + j)).filter fun c => (s.ctxAt t c).pushed = 0 && s.ready t c

/-- The round-robin reaches the contexts in their order: it passes over a yielding one and clears the mark (R38). -/
def State.walkSlot (s : State) (t : Nat) : List (Fin 4) → State × Option (Fin 4)
  | [] => (s, none)
  | c :: r =>
    if (s.ctxAt t c).yielding then (s.modCtxAt t c fun y => { y with yielding := false }).walkSlot t r else (s, some c)

/-- The context that takes the slot, if one does (R38, R346, R347): quota first; a yielding one only where no other is ready. -/
def State.pickCtx (s : State) (t : Nat) : State × Option (Fin 4) :=
  let l := s.readyOrder t
  let q := l.filter fun c => (s.ctxAt t c).quota != 0
  match l with
  | [c] => (s, some c)
  | l => s.walkSlot t (if q.isEmpty then l else q)

/-- The next issue slot of a site has come (R344), and its frame, still running, takes one more instruction: at most A issue in a
frame, and its other slots idle (R346, R347). -/
def Site.slotOpen (x : Site) (now : Nat) : Bool :=
  decide (x.slotFrom ≤ now) && decide (x.issued < x.allow) && !x.frameOver now

/-- Context c of site t has quota left in its frame, or no ready context has (R347). -/
def State.quotaLets (s : State) (t : Nat) (c : Fin 4) : Bool :=
  (s.ctxAt t c).quota != 0 || (s.readyOrder t).all fun d => (s.ctxAt t d).quota == 0

/-- The sites whose contexts may issue. -/
def State.runnable (s : State) : List Nat :=
  (s.sites.filter fun e => e.2.up && !e.2.halted && e.2.slotOpen s.cycle && !(s.readyOrder e.1).isEmpty).map (·.1)

/-- An MXPUSHM under way moves its next beat: it needs no further issue slot (R234). -/
def pushOn (t : Nat) (c : Fin 4) (s : State) : Result :=
  if (s.site t).up && !(s.site t).halted && (s.ctxAt t c).pushed ≠ 0 && s.ready t c then s.issueNow t c else .next s

/-- A gate that wakes resumes by itself; after a power loss the supply decides. -/
def wakeUp (t : Nat) (s : State) : Result := if (s.site t).powered then execResume t s else .next s

/-- Events of one site that happen by themselves. -/
def siteEvents (t : Nat) : List (State → Result) :=
  [execOutboxInject t, execMessageArrival t, execFarRequestService t, execCaOperation t, execFarResponseArrival t, execActivationStart t,
   execChannelControlArrival t, execRemoteRecordArrival t, execDeliveryApply t, execPushBeatArrival t, execCopyCommandStart t,
   execCopyCompletion t, execFoldPerform t, execVfifoLanding t, execVfifoCreditReturn t, execTrapSequenceComplete t 0,
   execTrapSequenceComplete t 1, execTrapSequenceComplete t 2, execTrapSequenceComplete t 3, execWfiWake t 0, execWfiWake t 1, execWfiWake t 2,
   execWfiWake t 3, execVldResend t 0, execVldResend t 1, execVldResend t 2, execVldResend t 3, execQwaitExpiry t 0, execQwaitExpiry t 1,
   execQwaitExpiry t 2, execQwaitExpiry t 3, execWatchdogExpiry t 0, execWatchdogExpiry t 1, execWatchdogExpiry t 2, execWatchdogExpiry t 3] ++
  [pushOn t 0, pushOn t 1, pushOn t 2, pushOn t 3, execQuiescePoint t 0, execQuiescePoint t 1, execQuiescePoint t 2, execQuiescePoint t 3, execGateRequestAccept t, execGateQuiesced t,
   execSleepWake t, wakeUp t, execCommit t, execCommitComplete t, execTrickle t, execAutoCommitInterval t, execPersistRequest t, execTileHalt t, execEccRollback t,
   execHaltHoldDelivery t, execRouterArbitration t]

/-- Events of a launch. -/
def launchEvents (e : Nat × Launch) : List (State → Result) :=
  execLaunchLoadComplete e.1 :: ((List.range 4).flatMap fun n => (List.range e.2.members.length).map fun m => execRatlineRelease e.1 n m)

/-- Events of the whole machine that happen by themselves. -/
def State.ownEvents (s : State) : List (State → Result) :=
  (s.sites.flatMap fun e => siteEvents e.1) ++ (s.routers.map fun e => execRouterArbitration e.1) ++
  (s.engines.flatMap fun e => [execKStepConsume e.1, execDeliverySend e.1, execDeliveryAck e.1]) ++
  (s.stations.flatMap fun e => [execStationRequest e.1, execTableWalkComplete e.1, execHbmAccessComplete e.1, execSecondTierAccessComplete e.1,
    execSealRequestArrival e.1]) ++
  (s.launches.flatMap launchEvents) ++
  (s.tenants.flatMap fun e => (List.range 16).flatMap fun q => [execLaunchPlace e.1 q, execLaunchPlace (16 + e.1) q]) ++
  ((List.range s.incoming.length).map execLandingCount) ++
  [execCompletionRound, execCounterEngineCycle, execPhaserRequest 0, execPhaserRequest 1, execPhaserRequest 2, execPhaserRequest 3,
   execTokenExpiry, execIntervalBoundary 0 []] ++
  (s.xfers.flatMap fun t => [execTransferResend t.num.toNat, execTransferAck t.num.toNat])

/-- The result of an event, if it does something. -/
def State.effect (s : State) (f : State → Result) : Option Result :=
  match f s with
  | .next s' => if s' = s then none else some (.next s')
  | r => some r

/-- A list that starts n places later. -/
def rotate {α : Type} (n : Nat) (l : List α) : List α := l.drop (n % l.length) ++ l.take (n % l.length)

/-- Frames that are over begin anew (R347). -/
def State.frames (s : State) : List (State → Result) :=
  (s.sites.filter fun e => e.2.frameOver s.cycle).map fun e => execFrameBoundary e.1

/-- Site t in its running frame: one that is over gives way to the next (R346). -/
def State.inFrame (s : State) (t : Nat) : State :=
  if (s.site t).frameOver s.cycle then
    match execFrameBoundary t s with
    | .next s' => s'
    | _ => s
  else s

/-- An issue slot of the next site in turn, if one can issue. -/
def State.autoIssue (s : State) : Option Result :=
  match rotate (s.rrSite + 1) s.runnable with
  | [] => none
  | t :: _ =>
    let r := ({ s with rrSite := s.rrSite + 1 } : State).pickCtx t
    some (match r.2 with
      | some c => r.1.issueNow t c
      | none => .next r.1)

/-- Without an agenda: own events in even cycles, from another place of their list each time, and issue slots in odd ones; when
one side has nothing to do, the other; when neither has, the machine idles. -/
def State.autoTurn (s : State) : Result :=
  let event := (s.frames ++ rotate (s.cycle / 2) s.ownEvents).findSome? s.effect
  let issue := s.autoIssue
  let pick := if s.cycle % 2 = 0 then (event.orElse fun _ => issue) else issue.orElse fun _ => event
  pick.getD (.next s)

/-- An issue slot of context c of a site, for an access that is served at once or later; it does nothing for one that is not ready or
has used its quota while another has some left (R347). An agenda names slots in any order: those in which the other contexts stall for
operands, memory or a bank (R38, R139). -/
def State.slotTurn (s : State) (site : Nat) (c : Fin 4) (later : Bool) : Result :=
  if !isSite site then .next s
  else
    let s := s.inFrame site
    if (s.ctxAt site c).pushed ≠ 0 then pushOn site c s
    else if (s.site site).up && !(s.site site).halted && (s.site site).slotOpen s.cycle && s.ready site c && s.quotaLets site c then
      if later then s.issueLate site c else s.issueNow site c
    else .next s

/-- What the agenda names: an issue slot of a context, an event, an error of the storage, or a setting of the helm. -/
def State.turn (s : State) (t : Turn) : Result :=
  match t with
  | .issue site c => s.slotTurn site c false
  | .late site c => s.slotTurn site c true
  | .event i => if i.size = 0 then exec i (if i.beside then s else s.drainAll) else .next s
  | .error e => s.drainAll.storageError e
  | .helm w => .next (s.drainAll.helmWrite w)

/-! Placing an instruction for the next step. -/

/-- The bytes of an instruction whose table word is w of n bits, up to four bytes. -/
def tableBytes (n w : Nat) : List Byte := leBytes 4 (w % 2 ^ n)

/-- Site 0 with bytes at the pc of context 0, and that context ready to issue them in a frame that begins now. -/
def Site.withBytes (x : Site) (now : Nat) (bs : List Byte) : Site :=
  let y := x.core.ctxs[0]
  let y' := { y with st := .running, wait := .none, pfx := none, persisted := none, atBrk := false, quota := max y.quota 1 }
  let a := y.pc.toNat
  { x with istore := memPut x.istore a bs, imgSize := max x.imgSize (a + bs.length), halted := false, powered := true,
           gate := { x.gate with st := .on }, issued := 0, allow := 16, slotFrom := 0, frameFrom := now, slots := 0, core := { x.core with ctxs := x.core.ctxs.set 0 y' } }

end Sys2Proof.Machine
end

