-- ==== Sys2Proof/Machine/Step.lean ====
section
/-! DEFINITION. One step of the machine, and placing an instruction for it. -/

namespace Sys2Proof.Machine

/-- One step: a cycle passes, then the next turn of the agenda, or the machine's own choice (DESIGN CHOICE, log 13). -/
def step (s : State) : Host.Outcome State Fault Refusal :=
  let s := s.tick
  match s.agenda with
  | t :: rest => ({ s with agenda := rest } : State).turn t
  | [] => s.drainAll.autoTurn

/-- s with an instruction stored where context 0 of tile 0 fetches, and that context's issue slot next. -/
def State.withFetchWord (s : State) (nbits w : Nat) : State :=
  { (s.modSite 0 fun x => x.withBytes s.cycle (tableBytes nbits w)) with agenda := [.issue 0 0], cur := (0, 0) }

end Sys2Proof.Machine
end

