-- ==== Sys2Proof/Safety.lean ====
section
/-! DEFINITION. The terms of the claims: when an instruction takes effect, what it may write, which events can happen, the
memories that a reader sees, what every safe state has. -/

namespace Sys2Proof

/-- An instruction with an encoding; the other rows of the opcode table are events of the machine. -/
def Instr.encoded (i : Instr) : Bool := i.size != 0

/-- Instructions that a mode guards: PRIV is raised whatever the prefix says (R52). -/
def Instr.guarded : Instr → Bool
  | .sysw .. | .qpushw .. | .qpopw .. | .pgate .. | .tlbiH .. => true
  | _ => false

/-- ILL, ILL.W and the prefix itself. -/
def Instr.special : Instr → Bool
  | .ill | .illW | .pfx .. => true
  | _ => false

/-- Instructions that touch nothing but their own context's registers and pc. -/
def Instr.registerOnly : Instr → Bool
  | .add .. | .sub .. | .mul .. | .mulh .. | .mulhu .. | .div .. | .divu .. | .rem .. | .remu .. => true
  | .and .. | .or .. | .xor .. | .shl .. | .shr .. | .sha .. | .min .. | .max .. | .minu .. | .maxu .. => true
  | .slt .. | .sltu .. | .seq .. | .clz .. | .ctz .. | .popc .. | .mov .. | .sel .. => true
  | .tileid .. | .gaddr .. | .widF .. | .karg .. | .msgid .. | .foldrd .. | .mxstat .. | .pstat .. | .qcnt .. | .sysr .. => true
  | .addi .. | .andi .. | .ori .. | .xori .. | .slti .. | .li .. | .lih .. | .shli .. | .shri .. | .shai .. => true
  | .bext .. | .bins .. | .pset .. | .pand .. | .por .. | .pxor .. | .pnot .. => true
  | .beq .. | .bne .. | .blt .. | .bge .. | .bltu .. | .bgeu .. | .bp .. | .bnp .. | .j .. | .jal .. | .jalr .. | .cB .. => true
  | .loop .. | .loopi .. | .cAlu .. | .cAddi .. | .cLi .. | .nop => true
  | .ldI8 .. | .ldN8 .. | .ldI16 .. | .ldN16 .. | .ldI32 .. | .ldN32 .. | .ldI64 .. | .lv .. | .lvs .. | .lvg .. | .ldPostinc .. => true
  | .vadd .. | .vsub .. | .vmul .. | .vfma .. | .vmin .. | .vmax .. | .vabs .. | .vneg .. => true
  | .vand .. | .vor .. | .vxor .. | .vshl .. | .vshr .. | .vsha .. | .vsel .. | .vcmpeq .. | .vcmplt .. | .vcmple .. => true
  | .vbcast .. | .vext .. | .vperm .. | .vshuf .. | .vredAdd .. | .vredMax .. | .vredMin .. => true
  | .vcvt .. | .vpack .. | .vunpk .. | .vdot .. | .vscale .. | .vmaxexp .. | .vrcp .. | .vrsq .. | .vexp2 .. => true
  | .accrd .. | .acccvt .. | .qpeek .. => true
  | _ => false

/-- Scalar registers that a register-only instruction may write: its destination, a post-incremented base, the link s31. -/
def Instr.writesS (i : Instr) (r : Fin 32) : Bool :=
  match i with
  | .add d _ _ | .sub d _ _ | .mul d _ _ | .mulh d _ _ | .mulhu d _ _ | .div d _ _ | .divu d _ _ | .rem d _ _ | .remu d _ _ => r == d
  | .and d _ _ | .or d _ _ | .xor d _ _ | .shl d _ _ | .shr d _ _ | .sha d _ _ => r == d
  | .min d _ _ | .max d _ _ | .minu d _ _ | .maxu d _ _ | .slt d _ _ | .sltu d _ _ | .seq d _ _ => r == d
  | .clz d _ | .ctz d _ | .popc d _ | .mov d _ | .sel d _ _ _ | .tileid d | .gaddr d _ _ | .widF d _ _ => r == d
  | .karg d _ | .msgid d | .foldrd d _ | .mxstat d _ | .pstat d | .qcnt d _ | .sysr d _ _ => r == d
  | .addi d _ _ | .andi d _ _ | .ori d _ _ | .xori d _ _ | .slti d _ _ | .li d _ | .lih d _ _ => r == d
  | .shli d _ _ | .shri d _ _ | .shai d _ _ | .bext d _ _ _ | .bins d _ _ _ | .jalr d _ _ => r == d
  | .jal _ => r == 31
  | .cAlu d _ _ | .cAddi d _ | .cLi d _ | .vext d _ _ _ => r == d
  | .ldI8 d _ _ | .ldN8 d _ _ | .ldI16 d _ _ | .ldN16 d _ _ | .ldI32 d _ _ | .ldN32 d _ _ | .ldI64 d _ _ => r == d
  | .ldPostinc d a k _ => r == a || (k != 7 && r == d)
  | .qpeek d _ q => (decide (q.val ≤ 3) || decide (7 ≤ q.val)) && r == d
  | _ => false

/-- Vector registers that a register-only instruction may write. -/
def Instr.writesV (i : Instr) (r : Fin 32) : Bool :=
  match i with
  | .lv d _ _ | .lvs d _ _ _ | .lvg d _ _ _ => r == d
  | .ldPostinc d _ k _ => k == 7 && r == d
  | .vadd _ d _ _ _ | .vsub _ d _ _ _ | .vmul _ d _ _ _ | .vfma _ d _ _ _ | .vmin _ d _ _ _ | .vmax _ d _ _ _ => r == d
  | .vabs d _ _ | .vneg d _ _ | .vand d _ _ | .vor d _ _ | .vxor d _ _ | .vshl d _ _ _ | .vshr d _ _ _ | .vsha d _ _ _ => r == d
  | .vsel d _ _ _ | .vbcast d _ _ | .vperm d _ _ _ | .vshuf d _ _ _ => r == d
  | .vredAdd _ d _ _ | .vredMax _ d _ _ | .vredMin _ d _ _ | .vcvt _ d _ _ _ | .vpack _ d _ _ _ | .vunpk d _ _ _ => r == d
  | .vdot _ d _ _ _ | .vscale _ d _ _ _ | .vmaxexp d _ _ | .vrcp d _ _ | .vrsq d _ _ | .vexp2 d _ _ => r == d
  | .accrd v _ _ => r == v || r == v + 1
  | .acccvt v _ _ _ => r == v
  | .qpeek d _ q => decide (4 ≤ q.val) && decide (q.val ≤ 6) && r == d
  | _ => false

/-- Predicate registers that a register-only instruction may write, by the low three bits of their field. -/
def Instr.writesP (i : Instr) (r : Fin 32) : Bool :=
  match i with
  | .pset d _ | .pand d _ _ | .por d _ _ | .pxor d _ _ | .pnot d _ => r.val % 8 == d.val % 8
  | .vcmpeq _ d _ _ _ | .vcmplt _ d _ _ _ | .vcmple _ d _ _ _ => r.val % 8 == d.val % 8
  | .qpeek _ p _ => r.val % 8 == p.val % 8
  | _ => false

/-- Instructions that store to the scratchpad of their own site at once. -/
def Instr.storesLocal : Instr → Bool
  | .st8 .. | .st16 .. | .st32 .. | .st64 .. | .sv .. | .svx .. | .stPostinc .. => true
  | .cLd _ _ o _ => decide (2 ≤ o.val)
  | _ => false

/-- Instructions that may raise a floating-point flag (R119). -/
def Instr.raisesFlags : Instr → Bool
  | .vadd .. | .vsub .. | .vmul .. | .vfma .. | .vmin .. | .vmax .. | .vcmpeq .. | .vcmplt .. | .vcmple .. => true
  | .vredAdd .. | .vredMax .. | .vredMin .. | .vcvt .. | .vpack .. | .vunpk .. | .vdot .. | .vscale .. => true
  | .vrcp .. | .vrsq .. | .vexp2 .. | .acccvt .. => true
  | _ => false

end Sys2Proof

namespace Sys2Proof.Machine

/-- The instruction takes effect: it is admitted where it runs, and its condition holds. -/
abbrev Ready (i : Instr) (s : State) : Prop := s.legal i = true ∧ s.ctx.cond = true

/-- The instruction is admitted where it runs. -/
abbrev Legal (i : Instr) (s : State) : Prop := s.legal i = true

/-- Site t exists and can perform its events: it has power, and it is not the new tile of a move (R42). -/
abbrev Live (s : State) (t : Nat) : Prop := isSite t = true ∧ (s.site t).up = true ∧ (s.site t).newTile = false

/-- i writes x to s_d, advances, and does nothing else. -/
def SetsS (i : Instr) (s : State) (d : Fin 32) (x : Word) : Prop :=
  Ready i s → exec i s = .next (s.done i.size (s.ctx.setS d x))

/-- i writes x to p_d, advances, and does nothing else. -/
def SetsP (i : Instr) (s : State) (d : Fin 32) (x : BitVec 32) : Prop :=
  Ready i s → exec i s = .next (s.done i.size (s.ctx.setP d x))

/-- i writes the enabled bytes of x to v_d, raises flags f, advances, and does nothing else. -/
def SetsV (i : Instr) (s : State) (d : Fin 32) (x : VWord) (f : BitVec 5) : Prop :=
  Legal i s → exec i s = .next (s.done i.size ((s.ctx.setVm d x).orFlags f))

/-- The instruction of n bytes completes in s, its context changed by f. -/
def State.finish (s : State) (n : Nat) (f : Ctx → Ctx) : State := s.done n (f s.ctx)

/-- i, where it takes effect, answers t. -/
def Gives (i : Instr) (s t : State) : Prop := Ready i s → exec i s = .next t

/-- i takes trap tr at its own address. -/
def Traps (i : Instr) (s : State) (tr : Trap) : Prop := exec i s = .next (s.raise tr)

/-- i waits and is issued again. -/
def Waits (i : Instr) (s : State) : Prop := exec i s = .next s.stall

/-- A byte of the scratchpad of site u, and of global memory. -/
def State.byteAt (s : State) (u a : Nat) : Byte := memGet (s.site u).mem a
def State.physAt (s : State) (a : Nat) : Byte := memGet s.phys a

/-- Two, four and eight bytes of a scratchpad, little-endian. -/
def State.le16 (s : State) (u a : Nat) : BitVec 16 := s.byteAt u (a + 1) ++ s.byteAt u a
def State.le32 (s : State) (u a : Nat) : BitVec 32 := s.le16 u (a + 2) ++ s.le16 u a
def State.le64 (s : State) (u a : Nat) : BitVec 64 := s.le32 u (a + 4) ++ s.le32 u a

/-- Every byte that a reader of t sees is the one in s, but for n bytes at a of site u. -/
def State.storesOnly (s t : State) (u a n : Nat) : Prop :=
  (∀ w b, w ≠ u ∨ b < a ∨ a + n ≤ b → t.byteAt w b = s.byteAt w b) ∧ ∀ b, t.physAt b = s.physAt b

/-- s with the running site's scratchpad, the lines of it that are dirty and its bad words as in t. -/
def State.withScratch (s t : State) : State :=
  s.modSite s.cur.1 fun x =>
    { x with mem := t.me.mem, bad := t.me.bad, ballast := { x.ballast with dirty := t.me.ballast.dirty } }

/-- Nothing but the running context differs. -/
def State.onlyCtx (s t : State) : Prop := t = s.setCtx t.ctx

/-- The context without what an instruction that writes registers may change: its registers with their
error marks, flags, pc, loops and prefix. -/
def Ctx.others (c : Ctx) : Ctx :=
  { c with s := Vector.replicate 32 0, v := Vector.replicate 32 0, p := Vector.replicate 8 0, flags := 0, pc := 0,
           lp := Vector.replicate 2 {}, pfx := none, st := .empty, wait := .none, badS := [], badV := [] }

/-- Memory in canonical form everywhere: global memory, and the scratchpad and code image of every site. -/
def State.MemOk (s : State) : Prop :=
  Memory.wf s.phys = true ∧ ∀ e ∈ s.sites, Memory.wf e.2.mem = true ∧ Memory.wf e.2.istore = true

/-- The state in which context c of site t executes what its pc names. -/
def State.issuing (s : State) (t : Nat) (c : Fin 4) : State :=
  let s : State := { s with cur := (t, c) }
  let s := s.modSite t fun x => { x with rr := c.val, issued := x.issued + 1, slotFrom := s.cycle + x.divider }
  s.modCtx fun y => { y with st := .running, pfx := none, quota := y.quota - 1, yielding := false }

/-- A response number that context c of site t waits for, with its destination. -/
def State.waitsFor (s : State) (t : Nat) (c : Fin 4) (id : Nat) (dest : Dest) : Prop :=
  (s.ctxAt t c).st = .stalled ∧ ∃ size owner, (s.ctxAt t c).wait = .resp id dest size owner

/-- A packet between two agents of the helm die, which crosses no bridge and no router (R305, R306). -/
def Pkt.inHelmDie (p : Pkt) : Prop := onHelmDie p.src = true ∧ onHelmDie p.dst = true

/-- A packet stands at the end of what the NI of its source has started to inject, if it enters the mesh. -/
def State.injected (s : State) (p : Pkt) : Prop := p.inHelmDie ∨ ∃ q, (s.router p.srcTile).startedBy p.src p.vc = q ++ p.flits

/-- A packet is among what the NI at its source has started to inject, if it enters the mesh. -/
def State.sends (s : State) (p : Pkt) : Prop := p.inHelmDie ∨ ∃ f ∈ (s.router p.srcTile).startedBy p.src p.vc, f.pkt = some p

end Sys2Proof.Machine
end

