-- ==== Sys2Proof/Certificates/Slice0/Obligations.lean ====
section
/-! DEFINITION. The statements for the provers. Terms are those of Safety; (R..) names the rules of the manual that a statement
rests on, (log n) a choice of the model. -/

section

open Sys2Proof Sys2Proof.Machine

/-- What reset leaves. The cycle counter (R147), the granted watts (R349), the throttle levels (R346), the receive counters
(R310), the bridges (R306) and the empty queues are the manual's; contexts EMPTY with every register zero and the program
counter zero, sites without a launch, memory reading zero are the model's choice (logs 1, 2). -/
def Obligations.ResetState : Prop :=
  State.reset.cycle = 0 ∧ State.reset.power.grant = 1800 ∧ (∀ t, (State.reset.cluster t).level = 0) ∧
    (∀ k, State.reset.counter k = 0) ∧ (∀ i : Fin 8, State.reset.bridges[i] = .up) ∧ State.reset.launches = [] ∧
    State.reset.kernels = [] ∧ State.reset.tenants = [] ∧
    (∀ u c, (State.reset.ctxAt u c).st = .empty ∧ (State.reset.ctxAt u c).pc = 0 ∧
      (∀ r, (State.reset.ctxAt u c).sreg r = 0 ∧ (State.reset.ctxAt u c).vreg r = 0) ∧
      (State.reset.ctxAt u c).flags = 0) ∧
    (∀ u a, State.reset.byteAt u a = 0) ∧ (∀ a, State.reset.physAt a = 0) ∧ State.reset.MemOk

/-- Every step keeps every memory in canonical form. -/
def Obligations.StepKeepsMemoryCanonical : Prop :=
  ∀ s t, s.MemOk → step s = .next t → t.MemOk

/-- Decoding the word of an admitted instruction gives it back, every operand at every value. -/
def Obligations.DecodeEncode : Prop :=
  ∀ i : Instr, i.encoded = true → i.wf = true →
    encode i < 2 ^ (8 * i.size) ∧ decodeTableWord (8 * i.size) (encode i) = some i

/-- Words that the manual writes out, and the instructions that they stand for. -/
def Obligations.WrittenWordsDecode : Prop :=
  decodeTableWord 32 0x12000BC7 = some (.pstat 5) ∧ decodeTableWord 32 0x130981C7 = some (.pgate 6 1) ∧
    decodeTableWord 32 0x18398BBF = some (.vst 5 6 7) ∧ decodeTableWord 32 0x192993BF = some (.vld 9 6 5) ∧
    decodeTableWord 16 0x0018 = some .retire ∧ decodeTableWord 16 0x0000 = some .ill

/-- A step that the agenda gives to a ready context runs the instruction that its pc names: what stands there decoded, then the
second half of a prefixed pair in the same slot; undecodable bytes raise ILLEGAL, and an instruction that would read an
uncorrectable register or bank word takes the ECC trap. An MXPUSHM under way needs no slot for its next beat (R234). Accesses of the
memory stage that wait and that the instruction may not pass are served first (log 4); where none waits nothing is, and where that
brings a trap of the context the slot ends there. That the error
of a register or bank word (R333) is checked before what the instruction does, under a prefix (R55) only where its condition holds or
it is lane-masked, is the model's reading (log 61). A slot lies in
its site's running frame, the next one where a frame is over, and a context that has used its quota gets it only where no ready one has
any left (R346, R347). An event of the agenda happens as exec says, and an error of the storage and a setting of the helm happen as
the agenda names them (logs 55, 60). A cycle passes in every step (log 5), and the contexts whose watchdog it brings to the limit, and no
others, trap in it (R144). -/
def Obligations.StepRunsDecoded : Prop :=
  (∀ (s : State) (t : Nat) (c : Fin 4) (rest : List Turn), s.agenda = .issue t c :: rest →
    let u := ({ s.tick with agenda := rest } : State).inFrame t
    let w := u.settleLate t c
    let v := w.issuing t c
    isSite t = true → (u.site t).up = true → (u.site t).halted = false → u.ready t c = true →
    ((u.ctxAt t c).pushed = 0 → (u.site t).slotOpen u.cycle = true ∧ u.quotaLets t c = true) →
    ((w.ctxAt t c).st = .trapped → step s = .next w) ∧
    ((w.ctxAt t c).st ≠ .trapped →
      (∀ i, v.me.instrAt v.ctx.pc.toNat = some i →
        (v.readsBad i = false → step s = runPair (exec i v)) ∧ (v.readsBad i = true → step s = runPair (.next (v.eccRead i)))) ∧
      (v.me.instrAt v.ctx.pc.toNat = none → step s = runPair (.next (v.raise { cause := cILLEGAL }))))) ∧
  (∀ (s : State) (t : Nat), (s.site t).frameOver s.cycle = false → s.inFrame t = s) ∧
  (∀ (s : State) (i : Instr) (rest : List Turn), s.agenda = .event i :: rest → i.encoded = false →
    let u : State := { s.tick with agenda := rest }
    step s = exec i (if i.beside then u else u.drainAll)) ∧
  (∀ (s : State) (e : StoreErr) (rest : List Turn), s.agenda = .error e :: rest →
    step s = ({ s.tick with agenda := rest } : State).drainAll.storageError e) ∧
  (∀ (s : State) (w : HelmWrite) (rest : List Turn), s.agenda = .helm w :: rest →
    step s = .next (({ s.tick with agenda := rest } : State).drainAll.helmWrite w)) ∧
  (∀ (s : State) (t : Nat) (c : Fin 4), (s.site t).late = [] → (s.ctxAt t c).posted = 0 → s.settleLate t c = s) ∧
  (∀ s : State, (∀ e ∈ s.sites, e.2.late = []) → s.drainAll = s) ∧
  (∀ (w : State) (i : Instr), w.ctx.pfx.isSome = true → w.ctx.st = .running → w.me.instrAt (w.ctx.pc.toNat + 2) = some i →
    runPair (.next w) = if w.readsBad i then .next (w.eccRead i) else exec i w) ∧
  (∀ (w : State) (i : Instr), w.ctx.badS = [] → w.ctx.badV = [] → w.me.core.badAcc = [] → (∀ m ∈ w.ctx.outbox, m.bad = false) →
    w.readsBad i = false) ∧
  (∀ (w : State) (i : Instr), (∃ r, (w.eccRead i).ctx.trap = some r ∧ ((r.headD 0).extractLsb' 0 8 : BitVec 8) = 0x09) ∧
    (w.eccRead i).ctx.st = .trapped) ∧
  (∀ w : State, w.ctx.pfx = none → runPair (.next w) = .next w) ∧
  (∀ s : State, s.tick = s.pass.watchdogs ∧ s.pass.cycle = s.cycle + 1) ∧
  (∀ s : State, (∀ e ∈ s.sites, ∀ c, e.2.expired c = false) → s.watchdogs = s) ∧
  ∀ (s : State) (t : Nat) (c : Fin 4),
    ((s.site t).expired c = true ↔
      ((s.ctxAt t c).st = .running ∨ (s.ctxAt t c).st = .stalled ∨ (s.ctxAt t c).st = .dormant) ∧ (s.site t).krn.limit ≠ 0 ∧
        (s.site t).krn.limit.toNat ≤ (s.ctxAt t c).wdog / 1024 ∧ (s.ctxAt t c).retired (s.site t).ballast = false) ∧
    ((s.site t).expired c = false → s.expireAt t c = s) ∧
    ((s.site t).expired c = true → (s.site t).late = [] →
      s.expireAt t c = (s.trapAt t c { cause := 0x12, w4 := (s.site t).krn.limit.setWidth 64 }).note 3 t)

/-- An instruction that the running site does not admit raises ILLEGAL and changes nothing else; among these are the forms whose
only effect is a register and that name s0 or p0 as their destination (R52). JALR and post-increment loads have another effect,
as have those that answer in a predicate. -/
def Obligations.IllegalComesFirst : Prop :=
  (∀ (i : Instr) (s : State), i.encoded = true → s.legal i = false → exec i s = .next (s.raise { cause := cILLEGAL })) ∧
  ∀ (i : Instr) (s : State), i.encoded = true →
    (i.writesS 0 = true ∧ (∀ d a k, i ≠ .jalr d a k) ∧ (∀ d a k n, i ≠ .ldPostinc d a k n) ∧ (∀ d p q, i ≠ .qpeek d p q)) ∨
      (i.writesP 0 = true ∧ ∀ d p q, i ≠ .qpeek d p q) →
    Traps i s { cause := 0x01 }

/-- Under a prefix whose condition fails (R55), an instruction that no byte mask governs only advances; one that a mode guards may
still raise PRIV, and one that an operand makes ILLEGAL still raises that. -/
def Obligations.FailedConditionSkips : Prop :=
  ∀ (i : Instr) (s : State), i.encoded = true → i.laneMasked = false → i.special = false → s.legal i = true →
    s.ctx.cond = false →
    (i.operandIll s = true → exec i s = .next (s.raise { cause := cILLEGAL })) ∧
    (i.operandIll s = false → i.guarded = false → exec i s = .next (s.done i.size s.ctx)) ∧
    (i.operandIll s = false → i.guarded = true → exec i s = .next (s.done i.size s.ctx) ∨
      ∃ w, exec i s = .next (s.raise { cause := cPRIV, w4 := w }))

/-- Every encoded instruction answers a next state in every state. Nothing is refused, and only events stop: global accesses, and
page-table writes, to an address without memory (the model's reading of R257, log 11). -/
def Obligations.EncodedNeverStop : Prop :=
  (∀ (i : Instr) (s : State), i.encoded = true → ∃ t : State, exec i s = .next t) ∧
  ∀ (i : Instr) (s : State), (∀ r, exec i s ≠ .refused r) ∧
    ∀ f, exec i s = .fault f → (∃ k, i = .hbmAccessComplete k ∨ i = .secondTierAccessComplete k) ∨ ∃ pa v, i = .pageTableWrite pa v

/-- A trap (R141, R142) leaves its context TRAPPED with a record of eight words, an empty outbox and free loops; registers,
flags, pc and memory stay. When the trap sequence ends the record is written to the context's slot and queued on channel 31 as a
message of two beats; inside channel 31, or without a handler there, the tile halts for its own cause, at once or when no trap
is in progress. -/
def Obligations.TrapTaking : Prop :=
  (∀ (s : State) (tr : Trap), s.ctx.chan < 32 →
    let y := s.ctx
    let z := (s.raise tr).ctx
    (∃ w0 : Word, z.trap = some [w0, y.pc, y.hdr, tr.w3, tr.w4, tr.w5, BitVec.ofNat 64 (s.me.rawPair y.pc.toNat),
        BitVec.ofNat 64 s.cycle] ∧
      w0.toNat = y.flags.toNat * 2 ^ 48 + tr.code.toNat * 2 ^ 32 + min 255 (hdrRetry y.hdr + 1) * 2 ^ 24 + y.chan * 2 ^ 16 +
        s.cur.2.val * 2 ^ 8 + tr.cause.toNat) ∧
    z.st = .trapped ∧ z.outbox = [] ∧ (∀ l : Fin 2, z.lp[l].active = false ∧ z.lp[l].lc = 0) ∧
    z.s = y.s ∧ z.v = y.v ∧ z.p = y.p ∧ z.flags = y.flags ∧ z.pc = y.pc ∧
    (∀ u a, (s.raise tr).byteAt u a = s.byteAt u a) ∧ ∀ a, (s.raise tr).physAt a = s.physAt a) ∧
  ∀ (s : State) (t : Nat) (c : Fin 4) (r : Rec), Live s t → (s.ctxAt t c).st = .trapped → (s.ctxAt t c).trap = some r →
    r.length = 8 →
    ∃ u : State, exec (.trapSequenceComplete t c.val) s = .next u ∧
      ((s.ctxAt t c).chan ≠ 31 → (s.site t).traps = true →
        (u.ctxAt t c).st = .empty ∧
        (∀ (j : Nat) (w : Word), r[j]? = some w → memRead (u.site t).mem (0x5FC00 + 64 * c.val + 8 * j) 8 = w.toNat) ∧
        c.val ∈ (u.site t).core.slots ∧
        ∃ d : Desc, (u.site t).core.chq[31] = (s.site t).core.chq[31] ++ [d] ∧ d.addr = 0x5FC00 + 64 * c.val ∧ d.beats = 2 ∧
          hdrChan d.hdr = 31) ∧
      ((s.ctxAt t c).chan = 31 ∨ (s.site t).traps = false →
        (u.ctxAt t c).st = .empty ∧ (u.site t).haltReq = true ∨
          (u.ctxAt t c).st = .halted ∧ (u.ctxAt t c).prior = .empty ∧ (u.site t).halted = true)

/-- The arithmetic register forms (R79): each writes its value to s_d and nothing else. -/
def Obligations.AluResults : Prop :=
  ∀ (s : State) (d a b : Fin 32),
    let x := s.ctx.sreg a
    let y := s.ctx.sreg b
    let n := y.toNat % 64
    SetsS (.add d a b) s d (x + y) ∧ SetsS (.sub d a b) s d (x - y) ∧ SetsS (.mul d a b) s d (x * y) ∧
    SetsS (.mulh d a b) s d ((x.signExtend 128 * y.signExtend 128).extractLsb' 64 64) ∧
    SetsS (.mulhu d a b) s d ((x.zeroExtend 128 * y.zeroExtend 128).extractLsb' 64 64) ∧
    SetsS (.and d a b) s d (x &&& y) ∧ SetsS (.or d a b) s d (x ||| y) ∧ SetsS (.xor d a b) s d (x ^^^ y) ∧
    SetsS (.shl d a b) s d (x <<< n) ∧ SetsS (.shr d a b) s d (x >>> n) ∧
    SetsS (.sha d a b) s d (BitVec.ofInt 64 (x.toInt / 2 ^ n)) ∧
    SetsS (.min d a b) s d (if y.slt x then y else x) ∧ SetsS (.max d a b) s d (if y.slt x then x else y) ∧
    SetsS (.minu d a b) s d (if y.ult x then y else x) ∧ SetsS (.maxu d a b) s d (if y.ult x then x else y) ∧
    SetsS (.slt d a b) s d (if x.slt y then 1 else 0) ∧ SetsS (.sltu d a b) s d (if x.ult y then 1 else 0) ∧
    SetsS (.seq d a b) s d (if x = y then 1 else 0) ∧ SetsS (.mov d a) s d x ∧
    (∀ p, SetsS (.sel d a b p) s d (if (s.ctx.pval p).getLsbD 0 then x else y)) ∧
    SetsS (.popc d a) s d (BitVec.ofNat 64 ((List.range 64).filter x.getLsbD).length) ∧
    (∃ k : Nat, SetsS (.clz d a) s d (BitVec.ofNat 64 k) ∧ k ≤ 64 ∧ (x = 0 ↔ k = 64) ∧
      (k < 64 → x.getLsbD (63 - k) = true ∧ ∀ j, 63 - k < j → x.getLsbD j = false)) ∧
    ∃ k : Nat, SetsS (.ctz d a) s d (BitVec.ofNat 64 k) ∧ k ≤ 64 ∧ (x = 0 ↔ k = 64) ∧
      (k < 64 → x.getLsbD k = true ∧ ∀ j, j < k → x.getLsbD j = false)

/-- Division (R80): toward zero, the remainder with the dividend's sign, a zero divisor and the most negative quotient defined.
-/
def Obligations.DivisionEdges : Prop :=
  ∀ (s : State) (d a b : Fin 32),
    let x := s.ctx.sreg a
    let y := s.ctx.sreg b
    SetsS (.div d a b) s d (if y = 0 then 0xFFFFFFFFFFFFFFFF else x.sdiv y) ∧
    SetsS (.rem d a b) s d (if y = 0 then x else x.srem y) ∧
    SetsS (.divu d a b) s d (if y = 0 then 0xFFFFFFFFFFFFFFFF else x / y) ∧
    SetsS (.remu d a b) s d (if y = 0 then x else x % y) ∧
    (x = 0x8000000000000000 → y = 0xFFFFFFFFFFFFFFFF →
      SetsS (.div d a b) s d 0x8000000000000000 ∧ SetsS (.rem d a b) s d 0) ∧
    (y ≠ 0 → ¬(x = 0x8000000000000000 ∧ y = 0xFFFFFFFFFFFFFFFF) →
      ∃ q r : Word, SetsS (.div d a b) s d q ∧ SetsS (.rem d a b) s d r ∧ x.toInt = q.toInt * y.toInt + r.toInt ∧
        r.toInt.natAbs < y.toInt.natAbs ∧ (r ≠ 0 → (r.toInt < 0 ↔ x.toInt < 0)))

/-- The immediate forms, the bit fields and the predicate instructions (R81 to R83, R87) write their value and nothing else; p0
reads as ones and is never written. -/
def Obligations.ImmediateForms : Prop :=
  (∀ (s : State) (d a : Fin 32) (i : BitVec 13) (n p l : Fin 64),
    let x := s.ctx.sreg a
    SetsS (.addi d a i) s d (x + i.signExtend 64) ∧ SetsS (.andi d a i) s d (x &&& i.signExtend 64) ∧
    SetsS (.ori d a i) s d (x ||| i.signExtend 64) ∧ SetsS (.xori d a i) s d (x ^^^ i.signExtend 64) ∧
    SetsS (.slti d a i) s d (if x.slt (i.signExtend 64) then 1 else 0) ∧ SetsS (.li d i) s d (i.signExtend 64) ∧
    SetsS (.lih d a i) s d ((x.extractLsb' 0 51 ++ i).setWidth 64) ∧
    SetsS (.shli d a n) s d (x <<< n.val) ∧ SetsS (.shri d a n) s d (x >>> n.val) ∧
    SetsS (.shai d a n) s d (BitVec.ofInt 64 (x.toInt / 2 ^ n.val)) ∧
    SetsS (.bext d a p l) s d ((x.extractLsb' p.val (l.val + 1)).setWidth 64) ∧
    ∃ v : Word, SetsS (.bins d a p l) s d v ∧ (p.val + l.val < 64 → ∀ j, j < 64 → v.getLsbD j =
      if p.val ≤ j ∧ j ≤ p.val + l.val then x.getLsbD (j - p.val) else (s.ctx.sreg d).getLsbD j)) ∧
  ∀ (s : State) (d a b : Fin 32),
    let x := s.ctx.preg a
    let y := s.ctx.preg b
    SetsP (.pset d a) s d ((s.ctx.sreg a).extractLsb' 0 32) ∧ SetsP (.pand d a b) s d (x &&& y) ∧
    SetsP (.por d a b) s d (x ||| y) ∧ SetsP (.pxor d a b) s d (x ^^^ y) ∧ SetsP (.pnot d a) s d (x ^^^ 0xFFFFFFFF) ∧
    s.ctx.preg 0 = 0xFFFFFFFF ∧
    (∀ p : BitVec 32, 0 < d.val → d.val < 8 → (s.ctx.setP d p).preg d = p) ∧
    ∀ p : BitVec 32, (s.ctx.setP 0 p) = s.ctx

/-- GADDR (R85): the window address of a member and an offset, unchecked; s0 is no destination; its word. -/
def Obligations.WindowAddress : Prop :=
  ∀ (s : State) (d a b : Fin 32),
    SetsS (.gaddr d a b) s d (BitVec.ofNat 64 ((s.ctx.sreg a).toNat * 2 ^ 19 + (s.ctx.sreg b).toNat)) ∧
    Traps (.gaddr 0 a b) s { cause := 0x01 } ∧
    (d ≠ 0 → decodeTableWord 32 (0x41 * 2 ^ 24 + b.val * 2 ^ 19 + a.val * 2 ^ 14 + d.val * 2 ^ 9 + 0x007) = some (.gaddr d a b))

/-- The compact forms (R53) do what their expansions do and are two bytes long; NOP has no effect and YIELD marks its context
(R91). The prefix (R55) opens the pair for p and sense, or raises ILLEGAL at its own address before what it may not govern and
at the end of the image. -/
def Obligations.CompactAndPrefix : Prop :=
  (∀ (s : State) (d a : Fin 32) (i : BitVec 8) (k : BitVec 13),
    let x := s.ctx.sreg d
    let y := s.ctx.sreg a
    SetsS (.cAlu d a 0) s d (x + y) ∧ SetsS (.cAlu d a 1) s d (x - y) ∧ SetsS (.cAlu d a 2) s d (x &&& y) ∧
    SetsS (.cAlu d a 3) s d (x ||| y) ∧ SetsS (.cAlu d a 4) s d (x ^^^ y) ∧ SetsS (.cAlu d a 5) s d y ∧
    SetsS (.cAlu d a 6) s d (x <<< (y.toNat % 64)) ∧ SetsS (.cAlu d a 7) s d (x >>> (y.toNat % 64)) ∧
    SetsS (.cAddi d i) s d (x + i.signExtend 64) ∧ SetsS (.cLi d i) s d (i.signExtend 64) ∧
    (∀ o, (Instr.cAlu d a o).size = 2) ∧ (Instr.cAddi d i).size = 2 ∧ (Instr.cLi d i).size = 2 ∧
    (Ready (.cB k) s → exec (.cB k) s = .next (s.setCtx (s.ctx.jump (s.ctx.ipc + 2 * k.signExtend 64)))) ∧
    (Ready .nop s → exec .nop s = .next (s.done 2 s.ctx)) ∧
    (Ready .yield s → exec .yield s = .next (s.done 2 { s.ctx with yielding := true }))) ∧
  ∀ (s : State) (p : Fin 8) (sense : Fin 2), s.ctx.pfx = none → p ≠ 0 →
    (∀ i, s.me.instrAt (s.ctx.pc.toNat + 2) = some i → noPrefix i = false → Legal (.pfx p sense) s →
      exec (.pfx p sense) s = .next (s.setCtx { s.ctx with pfx := some (p, sense.val == 1) })) ∧
    (∀ i, s.me.instrAt (s.ctx.pc.toNat + 2) = some i → noPrefix i = true →
      Traps (.pfx p sense) s { cause := 0x01 }) ∧
    (s.me.imgSize < s.ctx.pc.toNat + 4 → Traps (.pfx p sense) s { cause := 0x01 }) ∧
    Traps (.pfx 0 sense) s { cause := 0x01 }

/-- ILL and ILL.W raise ILLEGAL whatever the version (R54); the record names the address of the halfword. -/
def Obligations.IllegalWords : Prop :=
  decodeTableWord 16 0x0000 = some .ill ∧ decodeTableWord 32 0xFFFFFFFF = some .illW ∧
  ∀ (s : State) (i : Instr), i = .ill ∨ i = .illW →
    ∃ t : State, exec i s = .next t ∧ t.ctx.st = .trapped ∧
      ∃ r : Rec, t.ctx.trap = some r ∧ r[1]? = some s.ctx.pc ∧ (r[0]?.map fun w => w.extractLsb' 0 8) = some 0x01

/-- Conditional branches and jumps (R88, R89): the target counts from the instruction's own address, the link is the address
after it, an odd JALR target raises ALIGN before the link is written. -/
def Obligations.BranchesAndJumps : Prop :=
  ∀ (s : State) (d a b : Fin 32) (i : BitVec 13) (k : BitVec 23),
    let c := s.ctx
    let goes := fun (t : Word) => Host.Outcome.next (s.setCtx (c.jump t))
    let stays := Host.Outcome.next (s.done 4 c)
    let near := c.ipc + 2 * i.signExtend 64
    let far := c.ipc + 2 * k.signExtend 64
    let x := c.sreg a
    let y := c.sreg b
    (Ready (.beq a b i) s → exec (.beq a b i) s = if x = y then goes near else stays) ∧
    (Ready (.bne a b i) s → exec (.bne a b i) s = if x = y then stays else goes near) ∧
    (Ready (.blt a b i) s → exec (.blt a b i) s = if x.slt y then goes near else stays) ∧
    (Ready (.bge a b i) s → exec (.bge a b i) s = if x.slt y then stays else goes near) ∧
    (Ready (.bltu a b i) s → exec (.bltu a b i) s = if x.ult y then goes near else stays) ∧
    (Ready (.bgeu a b i) s → exec (.bgeu a b i) s = if x.ult y then stays else goes near) ∧
    (Ready (.bp a i) s → exec (.bp a i) s = if (c.preg a).getLsbD 0 then goes near else stays) ∧
    (Ready (.bnp a i) s → exec (.bnp a i) s = if (c.preg a).getLsbD 0 then stays else goes near) ∧
    (Ready (.j k) s → exec (.j k) s = goes far) ∧
    (Ready (.jal k) s → exec (.jal k) s = .next (s.setCtx ((c.setS 31 (c.ipc + 4)).jump far))) ∧
    (Ready (.jalr d a i) s → exec (.jalr d a i) s =
      let t := x + i.signExtend 64
      if t.getLsbD 0 then .next (s.raise { cause := 0x03, w3 := t })
      else .next (s.setCtx ((if d = 0 then c else c.setS d (c.ipc + 4)).jump t))) ∧
    ∀ t : Word, (c.jump t).pc = t ∧ (c.jump t).s = c.s ∧ ∀ l : Fin 2,
      (c.jump t).lp[l] = if c.lp[l].active ∧ ¬(c.lp[l].start.toNat ≤ t.toNat ∧ t.toNat ≤ c.lp[l].last.toNat)
        then { c.lp[l] with active := false, lc := 0 } else c.lp[l]

/-- LOOP and LOOPI start a level (R92, R93): level 0 when none is active, level 1 inside the body of level 0; no passes skip the
body (R19), and where that ends at the outer body's last instruction the outer pass ends with it; a body or a nesting that R93 refuses
raises ILLEGAL. That it does so for a loop of no passes too, and the end of the outer pass, are the model's reading (log 14; log 69). -/
def Obligations.LoopStart : Prop :=
  ∀ (s : State) (i : Instr) (d a : Fin 32) (t : BitVec 8) (n : Fin 32) (k : BitVec 13) (cnt : Nat) (step : Word),
    (i = .loop d a t ∧ cnt = (s.ctx.sreg a).toNat % 2 ^ 32 ∧ step = t.signExtend 64) ∨
      (i = .loopi d n k ∧ cnt = n.val * 2 ^ 13 + k.toNat ∧ step = 1) →
    Ready i s →
    let c := s.ctx
    let start := c.ipc + 4
    let ill := Host.Outcome.next (s.raise { cause := 0x01 })
    let body := s.me.body start.toNat (d.val + 1)
    (body = none → exec i s = ill) ∧
    (c.lp[0].active = true → c.lp[1].active = true → exec i s = ill) ∧
    (c.lp[0].active = true → ¬(c.lp[0].start.toNat ≤ c.pc.toNat ∧ c.pc.toNat ≤ c.lp[0].last.toNat) → exec i s = ill) ∧
    ∀ last stop, body = some (last, stop) →
      (c.lp[0].active = true → c.lp[0].last.toNat < last → exec i s = ill) ∧
      (∀ l : Fin 2, (l = 0 ∧ c.lp[0].active = false) ∨
          (l = 1 ∧ c.lp[0].active = true ∧ c.lp[1].active = false ∧ c.lp[0].start.toNat ≤ c.pc.toNat ∧
            c.pc.toNat ≤ c.lp[0].last.toNat ∧ last ≤ c.lp[0].last.toNat) →
        let go := { c with pfx := none, st := .running, wait := .none }
        (cnt = 0 → c.lp[1].active = false → exec i s = .next (s.setCtx
          (if c.lp[0].active = true ∧ c.lp[0].last = BitVec.ofNat 64 last
            then { go with lp := c.lp.set 0 c.lp[0].turn.1, pc := c.lp[0].turn.2.getD (BitVec.ofNat 64 stop) }
            else { go with pc := BitVec.ofNat 64 stop }))) ∧
        let level : LoopLevel := { active := true, lc := BitVec.ofNat 32 cnt, li := 0, step := step, start := start, last := BitVec.ofNat 64 last }
        (cnt ≠ 0 → exec i s = .next (s.setCtx { go with pc := start, lp := c.lp.set l level })))

/-- A body that a loop accepts lies in the image and does not end in a transfer, a loop or RETIRE. A level that starts with n
passes ends its body n times, its index growing by its step. On completing an instruction at the end of a body the inner level
goes first, the outer one only when the inner one frees or does not end here; elsewhere the next pc (R92, R93). -/
def Obligations.LoopRuns : Prop :=
  (∀ (x : Site) (a n last stop : Nat), x.body a n = some (last, stop) →
    0 < n ∧ a ≤ last ∧ last < stop ∧ stop ≤ x.imgSize ∧
      ∀ i, x.instrAt last = some i → i.wf = true → endsNoBody i = false) ∧
  (∀ (l : LoopLevel) (n : Nat), l.active = true → l.lc = BitVec.ofNat 32 n → 0 < n → n < 2 ^ 32 → l.li = 0 →
    ∀ k, k ≤ n →
      let m := (fun x : LoopLevel => x.turn.1)^[k] l
      m.li = BitVec.ofNat 64 k * l.step ∧ m.lc = BitVec.ofNat 32 (n - k) ∧ (m.active = true ↔ k < n) ∧
        (k + 1 < n → m.turn.2 = some l.start) ∧ (k + 1 = n → m.turn.2 = none)) ∧
  ∀ (c : Ctx) (n : Nat),
    let ends := fun (l : Fin 2) => c.lp[l].active && c.lp[l].last == c.pc
    let c' := c.advance n
    c'.s = c.s ∧ c'.v = c.v ∧ c'.p = c.p ∧ c'.flags = c.flags ∧ c'.pfx = none ∧ c'.st = .running ∧
    (ends 1 = false → ends 0 = false → c'.pc = c.ipc + BitVec.ofNat 64 n ∧ c'.lp = c.lp) ∧
    (ends 1 = true → c.lp[1].lc ≠ 1 → c'.pc = c.lp[1].start ∧ c'.lp = c.lp.set 1 c.lp[1].turn.1) ∧
    (ends 1 = false ∨ c.lp[1].lc = 1 → ends 0 = true → c.lp[0].lc ≠ 1 →
      c'.pc = c.lp[0].start ∧ c'.lp[0] = c.lp[0].turn.1 ∧ c'.lp[1] = if ends 1 then c.lp[1].turn.1 else c.lp[1]) ∧
    (ends 1 = true → c.lp[1].lc = 1 → ends 0 = false ∨ c.lp[0].lc = 1 →
      c'.pc = c.ipc + BitVec.ofNat 64 n ∧ c'.lp[1] = c.lp[1].turn.1 ∧ c'.lp[1].active = false) ∧
    (ends 1 = false → ends 0 = true → c.lp[0].lc = 1 → c'.pc = c.ipc + BitVec.ofNat 64 n ∧ c'.lp[0].active = false)

/-- TRAP raises SOFT with its code; BRK raises BREAK or halts a debugged tile with the pc at the BRK. WFI passes with the latch
set, which it clears, and else waits; a wake with the latch set completes it. The watchdog ends an activation whose count has
reached a limit that is not 0. A pending halt stops all four contexts together unless one is in its trap sequence or a packet is
being injected; a context that is already halted, saved or migrating stays as it is (R138, R144, R146, R150, R298). -/
def Obligations.TrapsWaitsHalts : Prop :=
  let halts := fun (y z : Ctx) =>
    if y.st = .running ∨ y.st = .stalled ∨ y.st = .dormant ∨ y.st = .empty then z.st = .halted ∧ z.prior = y.st
    else z.st = y.st ∧ z.prior = y.prior
  (∀ (s : State) (a b : Fin 32),
    (Ready (.trap a b) s → Traps (.trap a b) s { cause := 0x14, code := BitVec.ofNat 10 (a.val * 32 + b.val) }) ∧
    (Ready .brk s → s.me.dbg = false → Traps .brk s { cause := 0x13 }) ∧
    (Ready .brk s → s.me.dbg = true → ∃ t : State, exec .brk s = .next t ∧ t.ctx.pc = s.ctx.pc ∧ t.ctx.atBrk = true ∧
      (s.me.halted = false → s.injecting (attach s.cur.1 0) = false →
        (∀ c, c ≠ s.cur.2 → (s.ctxAt s.cur.1 c).st ≠ .trapped) →
        t.me.halted = true ∧ t.ctx.st = .halted ∧ t.ctx.prior = .running ∧
          ∀ c, c ≠ s.cur.2 → halts (s.ctxAt s.cur.1 c) (t.ctxAt s.cur.1 c)))) ∧
  ∀ (s : State) (t : Nat) (c : Fin 4),
    let y := s.ctxAt t c
    let x := s.site t
    (Ready .wfi s → exec .wfi s = .next (if s.ctx.latch then s.done 4 { s.ctx with latch := false }
      else s.setCtx { s.ctx with st := .dormant, wait := .none })) ∧
    (Live s t →
      (y.st = .dormant → y.latch = true →
        exec (.wfiWake t c.val) s = .next (s.setCtxAt t c { y.advance 4 with latch := false })) ∧
      (y.st = .running ∨ y.st = .stalled ∨ y.st = .dormant → x.krn.limit ≠ 0 →
        x.krn.limit.toNat * 1024 ≤ y.wdog → y.ending = none →
        exec (.watchdogExpiry t c.val) s =
          .next ((s.trapAt t c { cause := 0x12, w4 := x.krn.limit.setWidth 64 }).note 3 t)) ∧
      (x.krn.limit = 0 → exec (.watchdogExpiry t c.val) s = .next s) ∧
      (x.haltReq = true → x.halted = false → s.injecting (attach t 0) = false → (∀ d, (s.ctxAt t d).st ≠ .trapped) →
        ∃ u : State, exec (.tileHalt t) s = .next u ∧ (u.site t).halted = true ∧
          ∀ d, halts (s.ctxAt t d) (u.ctxAt t d)) ∧
      ((∃ d, (s.ctxAt t d).st = .trapped) ∨ s.injecting (attach t 0) = true → exec (.tileHalt t) s = .next s))

/-- SYSR reads every system register, and SYSW writes the bits that a register takes, or raises PRIV with the register's number
where it may not; a number that is not assigned is ILLEGAL for both (R147 to R149). SY.TILE shows the row that the spare-row map gives the
tile (R357), or the place to which its work has moved. That ELAPSED shows a longer watchdog count modulo 2^16 is the model's choice (log 86). -/
def Obligations.SystemRegisters : Prop :=
  (∀ (s : State) (d m n : Fin 32),
    let t := s.cur.1
    let c := s.cur.2
    let y := s.ctx
    let x := s.me
    let reads := fun (k : Nat) (v : Nat) => sysNumber m n = k → SetsS (.sysr d m n) s d (BitVec.ofNat 64 v)
    (∃ v : Nat, reads 0x000 v ∧ bits v 0 2 = c.val ∧ (bit v 2 = true ↔ y.chan = 31) ∧ bit v 3 = y.hold ∧
      (∀ j : Fin 4, bit v (4 + j.val) = true ↔ (s.ctxAt t j).st ≠ .empty) ∧ bits v 8 8 = min x.tdrop 255 ∧
      (y.chan < 32 → bits v 16 8 = y.chan ∧ v / 2 ^ 24 = hdrRetry y.hdr)) ∧
    (∃ v : Nat, reads 0x001 v) ∧ (t < 8192 → reads 0x001 (t + (if x.migrated then x.prow else s.physRow t) * 2 ^ 16 +
      (if x.migrated then x.pcol else t % 32) * 2 ^ 24 + if x.migrated then 2 ^ 32 else 0)) ∧
    (t < 8192 → let col := t / 1024 * 32 + t % 32
      let row := t / 32 % 32
      (mapGet? s.boot.spare col = none → s.physRow t = row) ∧
      ∀ y, mapGet? s.boot.spare col = some y → s.physRow t = if y ≤ row then row + 1 else row) ∧
    (∀ k, sysNumber m n = k → (0x00C ≤ k ∧ k ≤ 0x00F ∨ 0x014 ≤ k) →
      Traps (.sysr d m n) s { cause := 0x01 } ∧ Traps (.sysw d m n) s { cause := 0x01 }) ∧
    (∃ v : Nat, reads 0x002 v ∧ v % 2 ^ 32 = x.krn.handle.toNat ∧ (x.krn.ver < 4 → x.krn.tenant < 16 →
      bits v 32 2 = x.krn.ver ∧ bits v 40 8 = min x.krn.chain 255 ∧ v / 2 ^ 48 = x.krn.tenant)) ∧
    reads 0x003 y.flags.toNat ∧ reads 0x004 x.core.mxovf.toNat ∧ reads 0x005 (if x.krn.maint then 1 else 0) ∧
    reads 0x006 (x.core.free + if x.frozen then 256 else 0) ∧
    (∃ v : Nat, reads 0x007 v ∧ v % 2 ^ 16 = x.krn.limit.toNat ∧
      v / 2 ^ 32 = y.wdog / 1024 % 2 ^ 16) ∧
    reads 0x008 (x.haltg.toNat + x.lastg.toNat * 256 + if x.dbg then 65536 else 0) ∧
    reads 0x009 ((if x.gate.sleepReq then 1 else 0) + x.partner * 256) ∧ (y.chan ≠ 31 → reads 0x00A 0) ∧
    (∀ r : Rec, y.chan = 31 → y.record = some r → ∃ v : Nat, reads 0x00A v ∧
      bits v 0 8 = bits (r.headD 0).toNat 0 8 ∧ bits v 8 3 = bits (r.headD 0).toNat 8 3 ∧ bit v 16 = y.drop ∧
      bit v 17 = bit (r.headD 0).toNat 15) ∧
    reads 0x00B s.cycle ∧ reads 0x010 y.lp[0].lc.toNat ∧ reads 0x011 y.lp[1].lc.toNat ∧ reads 0x012 y.lp[0].li.toNat ∧
    reads 0x013 y.lp[1].li.toNat) ∧
  ∀ (s : State) (d m n : Fin 32),
    let i := Instr.sysw d m n
    let k := sysNumber m n
    let x := s.ctx.sreg d
    let no := Traps i s { cause := 0x02, w4 := BitVec.ofNat 64 k }
    (k = 3 → Ready i s → exec i s = .next (s.done 4 { s.ctx with flags := x.extractLsb' 0 5 })) ∧
    (k = 4 → Ready i s → exec i s = .next ((s.modCore s.cur.1 fun y => { y with mxovf := x.extractLsb' 0 32 }).done 4 s.ctx)) ∧
    (k = 7 → Ready i s → s.me.krn.maint = true → exec i s =
      .next ((s.modSite s.cur.1 fun y => { y with krn := { y.krn with limit := x.extractLsb' 0 16 } }).done 4 s.ctx)) ∧
    (k = 7 → Legal i s → s.me.krn.maint = false → no) ∧
    (k = 10 → Ready i s → s.ctx.chan = 31 → exec i s = .next (s.done 4 { s.ctx with drop := x.getLsbD 16 })) ∧
    (k = 10 → Legal i s → s.ctx.chan ≠ 31 → no) ∧
    (k ≠ 3 → k ≠ 4 → k ≠ 7 → k ≠ 10 → Legal i s → no)

/-- Scalar loads (R95, R96, R53) are little-endian and sign- or zero-extended; a post-increment adds to the base, which is
written before the loaded register. Of every form of a local access, post-increment, compact and vector forms among them, one whose
first byte lies at or above 0x6_0000 raises RANGE and one whose last byte does raises STRADDLE (R75); of a strided, gathered or scattered
one the lowest element that fails is named (R97). A load that touches an uncorrectable word raises ECC (R333): that word 3 of an access
without elements is the address of that word itself (log 64), that the syndrome is a free value (log 6) and that the helm's record has
structure number 0 (log 100) are the model's choices. -/
def Obligations.ScalarLoads : Prop :=
  (∀ (s : State) (d a : Fin 32) (i : BitVec 13) (k : BitVec 8) (e f : Fin 8) (o : BitVec 5),
    let u := s.cur.1
    let c := s.ctx
    let good := fun (w : Word) (n : Nat) => w.toNat + n ≤ 0x60000 ∧ ∀ b ∈ s.me.bad, w.toNat + n ≤ b ∨ b + 8 ≤ w.toNat
    let w := c.sreg a + i.signExtend 64
    let p := (c.sreg a).toNat
    let moved := c.setS a (c.sreg a + k.signExtend 64)
    let sets := fun (j : Instr) (c : Ctx) (x : Word) => Ready j s → exec j s = .next (s.done j.size (c.setS d x))
    let at8 := s.byteAt u w.toNat
    (good w 1 → sets (.ldI8 d a i) c (at8.signExtend 64) ∧ sets (.ldN8 d a i) c (at8.zeroExtend 64)) ∧
    (good w 2 → sets (.ldI16 d a i) c ((s.le16 u w.toNat).signExtend 64) ∧
      sets (.ldN16 d a i) c ((s.le16 u w.toNat).zeroExtend 64)) ∧
    (good w 4 → sets (.ldI32 d a i) c ((s.le32 u w.toNat).signExtend 64) ∧
      sets (.ldN32 d a i) c ((s.le32 u w.toNat).zeroExtend 64)) ∧
    (good w 8 → sets (.ldI64 d a i) c (s.le64 u w.toNat)) ∧
    (good (c.sreg a) 1 → sets (.ldPostinc d a 0 k) moved ((s.byteAt u p).signExtend 64) ∧
      sets (.ldPostinc d a 1 k) moved ((s.byteAt u p).zeroExtend 64)) ∧
    (good (c.sreg a) 2 → sets (.ldPostinc d a 2 k) moved ((s.le16 u p).signExtend 64) ∧
      sets (.ldPostinc d a 3 k) moved ((s.le16 u p).zeroExtend 64)) ∧
    (good (c.sreg a) 4 → sets (.ldPostinc d a 4 k) moved ((s.le32 u p).signExtend 64) ∧
      sets (.ldPostinc d a 5 k) moved ((s.le32 u p).zeroExtend 64)) ∧
    (good (c.sreg a) 8 → sets (.ldPostinc d a 6 k) moved (s.le64 u p)) ∧
    (let v4 := c.sreg (cReg f) + 4 * o.zeroExtend 64
     let v8 := c.sreg (cReg f) + 8 * o.zeroExtend 64
     (good v4 4 → SetsS (.cLd e f 0 o) s (cReg e) ((s.le32 u v4.toNat).zeroExtend 64)) ∧
     (good v8 8 → SetsS (.cLd e f 1 o) s (cReg e) (s.le64 u v8.toNat)))) ∧
  (∀ (s : State) (d a : Fin 32) (i : BitVec 13) (p : BitVec 8) (e f : Fin 8) (g : BitVec 5) (n : Nat) (w : Word) (j : Instr),
    let m := s.ctx.sreg a + i.signExtend 64
    let loads := w = m ∧ ((j = .ldI8 d a i ∧ n = 1) ∨ (j = .ldN8 d a i ∧ n = 1) ∨ (j = .ldI16 d a i ∧ n = 2) ∨
        (j = .ldN16 d a i ∧ n = 2) ∨ (j = .ldI32 d a i ∧ n = 4) ∨ (j = .ldN32 d a i ∧ n = 4) ∨ (j = .ldI64 d a i ∧ n = 8) ∨
        (j = .lv d a i ∧ n = 32)) ∨
      (w = s.ctx.sreg a ∧ ∃ k : Fin 8, j = .ldPostinc d a k p ∧ n = [1, 1, 2, 2, 4, 4, 8, 32].getD k.val 0) ∨
      (n = 4 ∧ j = .cLd e f 0 g ∨ n = 8 ∧ j = .cLd e f 1 g) ∧ w = s.ctx.sreg (cReg f) + BitVec.ofNat 64 (n * g.toNat)
    let stores := w = m ∧ ((j = .st8 d a i ∧ n = 1) ∨ (j = .st16 d a i ∧ n = 2) ∨ (j = .st32 d a i ∧ n = 4) ∨
        (j = .st64 d a i ∧ n = 8) ∨ (j = .sv d a i ∧ n = 32 ∧ s.ctx.pfx = none)) ∨
      (w = s.ctx.sreg a ∧ ∃ k : Fin 32, k.val ≤ 4 ∧ j = .stPostinc d a k p ∧ n = (if k = 4 then 32 else 2 ^ k.val) ∧
        (k = 4 → s.ctx.pfx = none)) ∨
      (n = 4 ∧ j = .cLd e f 2 g ∨ n = 8 ∧ j = .cLd e f 3 g) ∧ w = s.ctx.sreg (cReg f) + BitVec.ofNat 64 (n * g.toNat)
    Ready j s →
    (loads ∨ stores → (0x60000 ≤ w.toNat → Traps j s { cause := 0x04, w3 := w }) ∧
      (w.toNat < 0x60000 → 0x60000 < w.toNat + n → Traps j s { cause := 0x05, w3 := w })) ∧
    (loads → w.toNat + n ≤ 0x60000 → ∀ b, s.me.bad = [b] → b < w.toNat + n → w.toNat < b + 8 →
      Traps j s { cause := 0x09, w3 := BitVec.ofNat 64 b, w4 := Config.syndrome s.cycle (b % 2 ^ 64),
                  own := some (0, b % 2 ^ 64) })) ∧
  ∀ (s : State) (d a b : Fin 32) (w : Fin 4) (j : Instr) (at1 : Nat → Word),
    let n := 2 ^ w.val
    let loads := (j = .lvs d a b w ∧ at1 = fun e => s.ctx.sreg a + BitVec.ofNat 64 e * s.ctx.sreg b) ∨
      (j = .lvg d a b w ∧
        at1 = fun e => s.ctx.sreg a + BitVec.ofNat 64 (((s.ctx.vreg b).extractLsb' (8 * n * e) (8 * n)).toNat * n))
    let stores := j = .svx d a b w ∧ s.ctx.pfx = none ∧
      at1 = fun e => s.ctx.sreg a + BitVec.ofNat 64 (((s.ctx.vreg b).extractLsb' (8 * n * e) (8 * n)).toNat * n)
    Legal j s → ∀ e, e < 32 / n →
    (loads ∨ stores → (∀ k, k < e → (at1 k).toNat + n ≤ 0x60000) →
      (0x60000 ≤ (at1 e).toNat → Traps j s { cause := 0x04, w3 := at1 e }) ∧
      ((at1 e).toNat < 0x60000 → 0x60000 < (at1 e).toNat + n → Traps j s { cause := 0x05, w3 := at1 e })) ∧
    (loads → (∀ k, k < 32 / n → (at1 k).toNat + n ≤ 0x60000) → ∀ q, s.me.bad = [q] →
      (∀ k, k < e → (at1 k).toNat + n ≤ q ∨ q + 8 ≤ (at1 k).toNat) → q < (at1 e).toNat + n → (at1 e).toNat < q + 8 →
      Traps j s { cause := 0x09, w3 := at1 e, w4 := Config.syndrome s.cycle (at1 e).toNat, own := some (0, (at1 e).toNat) })

/-- Scalar stores (R95, R96, R53): the low bytes of s_d, little-endian, at the address and nowhere else; beside them the lines
that they dirty (R318), the bad words that they repair (R334), the pc and an incremented base. -/
def Obligations.ScalarStores : Prop :=
  ∀ (s : State) (d a : Fin 32) (i : BitVec 13) (k : BitVec 8) (e f : Fin 8) (o : BitVec 5) (j : Instr) (n : Nat) (w x : Word)
      (c : Ctx),
    let m := s.ctx.sreg a + i.signExtend 64
    let moved := s.ctx.setS a (s.ctx.sreg a + k.signExtend 64)
    (j = .st8 d a i ∧ n = 1 ∧ w = m ∧ x = s.ctx.sreg d ∧ c = s.ctx) ∨
      (j = .st16 d a i ∧ n = 2 ∧ w = m ∧ x = s.ctx.sreg d ∧ c = s.ctx) ∨
      (j = .st32 d a i ∧ n = 4 ∧ w = m ∧ x = s.ctx.sreg d ∧ c = s.ctx) ∨
      (j = .st64 d a i ∧ n = 8 ∧ w = m ∧ x = s.ctx.sreg d ∧ c = s.ctx) ∨
      (∃ q : Fin 4, j = .stPostinc d a ⟨q.val, by omega⟩ k ∧ n = 2 ^ q.val ∧ w = s.ctx.sreg a ∧ x = s.ctx.sreg d ∧ c = moved) ∨
      (j = .cLd e f 2 o ∧ n = 4 ∧ w = s.ctx.sreg (cReg f) + 4 * o.zeroExtend 64 ∧ x = s.ctx.sreg (cReg e) ∧ c = s.ctx) ∨
      (j = .cLd e f 3 o ∧ n = 8 ∧ w = s.ctx.sreg (cReg f) + 8 * o.zeroExtend 64 ∧ x = s.ctx.sreg (cReg e) ∧ c = s.ctx) →
    w.toNat + n ≤ 0x60000 → Ready j s →
    ∃ t : State, exec j s = .next t ∧ s.storesOnly t s.cur.1 w.toNat n ∧
      (∀ b, b < n → t.byteAt s.cur.1 (w.toNat + b) = x.extractLsb' (8 * b) 8) ∧
      (∀ b ∈ t.me.bad, b ∈ s.me.bad) ∧
      t = (s.withScratch t).done j.size c

/-- Vector loads (R95 to R97) fill the register with 32 bytes, or its elements from strided or indexed addresses, in the enabled
byte lanes; nothing else changes but the pc and an incremented base. A register write under a prefix changes the enabled byte
lanes only (R55). -/
def Obligations.VectorLoads : Prop :=
  (∀ (s : State) (d a b : Fin 32) (i : BitVec 13) (k : BitVec 8) (w : Fin 4),
    let u := s.cur.1
    let c := s.ctx
    let n := 2 ^ w.val
    let good := fun (w : Word) (n : Nat) => w.toNat + n ≤ 0x60000 ∧ ∀ b ∈ s.me.bad, w.toNat + n ≤ b ∨ b + 8 ≤ w.toNat
    let m := c.sreg a + i.signExtend 64
    let strided := fun e => c.sreg a + BitVec.ofNat 64 e * c.sreg b
    let indexed := fun e => c.sreg a + BitVec.ofNat 64 (((c.vreg b).extractLsb' (8 * n * e) (8 * n)).toNat * n)
    (good m 32 → Legal (.lv d a i) s → ∃ x : VWord, exec (.lv d a i) s = .next (s.done 4 (c.setVm d x)) ∧
      ∀ j, j < 32 → x.extractLsb' (8 * j) 8 = s.byteAt u (m.toNat + j)) ∧
    (good (c.sreg a) 32 → Legal (.ldPostinc d a 7 k) s → ∃ x : VWord,
      exec (.ldPostinc d a 7 k) s = .next (s.done 4 ((c.setVm d x).setS a (c.sreg a + k.signExtend 64))) ∧
      ∀ j, j < 32 → x.extractLsb' (8 * j) 8 = s.byteAt u ((c.sreg a).toNat + j)) ∧
    ((∀ e, e < 32 / n → good (strided e) n) → Legal (.lvs d a b w) s → ∃ x : VWord,
      exec (.lvs d a b w) s = .next (s.done 4 (c.setVm d x)) ∧
      ∀ e j, e < 32 / n → j < n → x.extractLsb' (8 * (n * e + j)) 8 = s.byteAt u ((strided e).toNat + j)) ∧
    ((∀ e, e < 32 / n → good (indexed e) n) → Legal (.lvg d a b w) s → ∃ x : VWord,
      exec (.lvg d a b w) s = .next (s.done 4 (c.setVm d x)) ∧
      ∀ e j, e < 32 / n → j < n → x.extractLsb' (8 * (n * e + j)) 8 = s.byteAt u ((indexed e).toNat + j))) ∧
  ∀ (c : Ctx) (d r : Fin 32) (x : VWord) (j : Nat), j < 32 →
    (((c.setVm d x).vreg d).extractLsb' (8 * j) 8 =
      if c.enabled j then x.extractLsb' (8 * j) 8 else (c.vreg d).extractLsb' (8 * j) 8) ∧
    (r ≠ d → (c.setVm d x).vreg r = c.vreg r) ∧
    (c.pfx = none → c.enabled j = true ∧ (c.setVm d x).vreg d = x) ∧
    ∀ p b, c.pfx = some (p, b) → (c.enabled j = true ↔ (c.pval p).getLsbD j ≠ b)

/-- A vector store writes its enabled bytes (R55), each at its address, and nothing else; of two bytes for one address the one of the
higher element stays. It completes where the enabled bytes lie inside (R75): that each element of a prefixed SVX is checked over the span
of its enabled bytes alone is the model's reading (log 9). -/
def Obligations.VectorStores : Prop :=
  ∀ (s : State) (d a b : Fin 32) (i : BitVec 13) (k : BitVec 8) (w : Fin 4) (j : Instr) (n : Nat) (at1 : Nat → Word) (c : Ctx),
    let m := s.ctx.sreg a + i.signExtend 64
    let size := 2 ^ w.val
    (j = .sv d a i ∧ n = 32 ∧ c = s.ctx ∧ at1 = fun _ => m) ∨
      (j = .stPostinc d a 4 k ∧ n = 32 ∧ c = s.ctx.setS a (s.ctx.sreg a + k.signExtend 64) ∧ at1 = fun _ => s.ctx.sreg a) ∨
      (j = .svx d a b w ∧ n = size ∧ c = s.ctx ∧
        at1 = fun e => s.ctx.sreg a + BitVec.ofNat 64 (((s.ctx.vreg b).extractLsb' (8 * size * e) (8 * size)).toNat * size)) →
    let byte := fun (q : Nat) => (at1 (q / n) + BitVec.ofNat 64 (q % n)).toNat
    (∀ q, q < 32 → s.ctx.enabled q = true → byte q < 0x60000) →
    s.me.bad = [] → Legal j s →
    ∃ t : State, exec j s = .next t ∧
      (∀ v x, v ≠ s.cur.1 ∨ (∀ q, q < 32 → s.ctx.enabled q = true → byte q ≠ x) → t.byteAt v x = s.byteAt v x) ∧
      (∀ x, t.physAt x = s.physAt x) ∧
      (∀ q, q < 32 → s.ctx.enabled q = true → (∀ r, q < r → r < 32 → s.ctx.enabled r = true → byte r ≠ byte q) →
        t.byteAt s.cur.1 (byte q) = (s.ctx.vreg d).extractLsb' (8 * q) 8) ∧
      t = (s.withScratch t).done j.size c

/-- Integer lanes (R122 to R124): arithmetic modulo 2^w, signed or unsigned order, absolute value and negation, shifts by the
amount modulo w; no flag. -/
def Obligations.VectorIntegerLanes : Prop :=
  ∀ (s : State) (d a b : Fin 32) (t : Fin 16), isInt t = true →
    let w := laneBits t
    let x := fun j => (s.ctx.vreg a).extractLsb' (w * j) w
    let y := fun j => (s.ctx.vreg b).extractLsb' (w * j) w
    let z := fun j => (s.ctx.vreg d).extractLsb' (w * j) w
    let less := fun j => if isSigned t then (x j).slt (y j) else (x j).ult (y j)
    let sets := fun (i : Instr) (f : Nat → BitVec w) =>
      ∃ v : VWord, SetsV i s d v 0 ∧ ∀ j, j < 256 / w → v.extractLsb' (w * j) w = f j
    sets (.vadd 0 d a b t) (fun j => x j + y j) ∧ sets (.vsub 0 d a b t) (fun j => x j - y j) ∧
    sets (.vmul 0 d a b t) (fun j => x j * y j) ∧ sets (.vfma 0 d a b t) (fun j => x j * y j + z j) ∧
    sets (.vmin 0 d a b t) (fun j => if less j then x j else y j) ∧
    sets (.vmax 0 d a b t) (fun j => if less j then y j else x j) ∧
    (isSigned t = true → sets (.vabs d a t) (fun j => if (x j).msb then -(x j) else x j) ∧
      sets (.vneg d a t) (fun j => -(x j))) ∧
    sets (.vshl d a b t) (fun j => x j <<< ((y j).toNat % w)) ∧ sets (.vshr d a b t) (fun j => x j >>> ((y j).toNat % w)) ∧
    sets (.vsha d a b t) (fun j => (x j).sshiftRight ((y j).toNat % w))

/-- Floating lanes (R119, R122, R123): each lane is the rounded result in its format and mode, flags come from the lanes that
have an enabled byte, and sign operations raise none. -/
def Obligations.VectorFloatLanes : Prop :=
  ∀ (s : State) (r : Fin 4) (d a b : Fin 32) (t : Fin 16), isFloat t = true →
    let w := laneBits t
    let p := fmtP t
    let m := rmOf r
    let x := fun j => ((s.ctx.vreg a).extractLsb' (w * j) w).toNat
    let y := fun j => ((s.ctx.vreg b).extractLsb' (w * j) w).toNat
    let z := fun j => ((s.ctx.vreg d).extractLsb' (w * j) w).toNat
    let on := fun j => ∃ k, k < w / 8 ∧ s.ctx.enabled (w / 8 * j + k) = true
    let sets := fun (i : Instr) (f : Nat → FRes) =>
      ∃ (v : VWord) (g : BitVec 5), SetsV i s d v g ∧
        (∀ j, j < 256 / w → v.extractLsb' (w * j) w = BitVec.ofNat w (f j).1) ∧
        ∀ n, n < 5 → (g.getLsbD n = true ↔ ∃ j, j < 256 / w ∧ on j ∧ (f j).2.getLsbD n = true)
    sets (.vadd r d a b t) (fun j => fadd p m (x j) (y j)) ∧ sets (.vsub r d a b t) (fun j => fsub p m (x j) (y j)) ∧
    sets (.vmul r d a b t) (fun j => fmul p m (x j) (y j)) ∧ sets (.vfma r d a b t) (fun j => ffma p m (x j) (y j) (z j)) ∧
    sets (.vmin r d a b t) (fun j => fmin p (x j) (y j)) ∧ sets (.vmax r d a b t) (fun j => fmax p (x j) (y j)) ∧
    sets (.vabs d a t) (fun j => (x j % 2 ^ (w - 1), 0)) ∧ sets (.vneg d a t) (fun j => (x j ^^^ 2 ^ (w - 1), 0))

/-- With a not-a-number operand the result is the one quiet NaN, with IV exactly for a signalling operand or for an invalid
product of the fused form (R100, R122); invalid sums and products give it with IV. A pattern that is no NaN, taken as its value
and delivered in its own format under any mode, comes back without a flag (R99). Any other value is delivered as the representable
magnitude that the mode names, next below, next above or nearest with ties to the even significand, with OF, UF and NX as R102 says
(R101): `q` is the magnitude of a pattern in units of the smallest subnormal, n / u that of the value, `inf` the first pattern that is not
finite. Sums, products and fused sums of finite operands deliver the exact result so (R122); an exact zero has the sign of R100. -/
def Obligations.FloatRules : Prop :=
  (∀ (p : Nat) (m : Rm) (a b c : Nat), p = 8 ∨ p = 24 →
    let nan := fun x => bits x (p - 1) 8 = 255 ∧ bits x 0 (p - 1) ≠ 0
    let sig := fun x => nan x ∧ bit x (p - 2) = false
    let q := 255 * 2 ^ (p - 1) + 2 ^ (p - 2)
    let inf := fun x => bits x 0 (p + 7) = 255 * 2 ^ (p - 1)
    let zero := fun x => bits x 0 (p + 7) = 0
    (nan a ∨ nan b → ∀ r, r = fadd p m a b ∨ r = fsub p m a b ∨ r = fmul p m a b ∨ r = fmin p a b ∨ r = fmax p a b →
      r.1 = q ∧ (r.2 = 16 ∧ (sig a ∨ sig b) ∨ r.2 = 0 ∧ ¬(sig a ∨ sig b))) ∧
    (nan a ∨ nan b ∨ nan c → let r := ffma p m a b c
      let iv := sig a ∨ sig b ∨ sig c ∨ inf a ∧ zero b ∨ zero a ∧ inf b
      r.1 = q ∧ (r.2 = 16 ∧ iv ∨ r.2 = 0 ∧ ¬iv)) ∧
    (inf a → zero b → fmul p m a b = (q, 16) ∧ fmul p m b a = (q, 16)) ∧
    (inf a → inf b → bit a (p + 7) ≠ bit b (p + 7) → fadd p m a b = (q, 16))) ∧
  (∀ (p : Nat) (m : Rm) (x : Nat), p = 8 ∨ p = 24 → x < 2 ^ (p + 8) → (∀ g, unpack p x ≠ .nan g) →
    pack p m (unpack p x) = (x, 0)) ∧
  (∀ (p : Nat) (m : Rm) (neg : Bool) (mag : Nat) (e : Int), p = 8 ∨ p = 24 → 0 < mag →
    let low : Int := -125 - p
    let n := mag * 2 ^ (e - low).toNat
    let u := 2 ^ (low - e).toNat
    let q := fun (x : Nat) => if x < 2 ^ (p - 1) then x else (x % 2 ^ (p - 1) + 2 ^ (p - 1)) * 2 ^ (x / 2 ^ (p - 1) - 1)
    let inf := 255 * 2 ^ (p - 1)
    let toZero := m = .rtz ∨ m = .rup ∧ neg = true ∨ m = .rdn ∧ neg = false
    let fromZero := m = .rup ∧ neg = false ∨ m = .rdn ∧ neg = true
    ∃ (x : Nat) (f : BitVec 5), pack p m (.fin neg mag e) = ((if neg then 2 ^ (p + 7) else 0) + x, f) ∧ x ≤ inf ∧
      (toZero → x < inf ∧ q x * u ≤ n ∧ (x + 1 < inf → n < q (x + 1) * u)) ∧
      (fromZero → 0 < x ∧ q (x - 1) * u < n ∧ (x < inf → n ≤ q x * u)) ∧
      (m = .rne → (x < inf → 2 * n ≤ (q x + q (x + 1)) * u ∧ (2 * n = (q x + q (x + 1)) * u → x % 2 = 0)) ∧
        (0 < x → (q (x - 1) + q x) * u ≤ 2 * n ∧ (2 * n = (q (x - 1) + q x) * u → x % 2 = 0))) ∧
      (f.getLsbD 0 = true ↔ x = inf ∨ n ≠ q x * u) ∧
      (f.getLsbD 1 = true ↔ n ≠ q x * u ∧
        (toZero → n < 2 ^ (p - 1) * u) ∧ (fromZero → 2 * n ≤ (2 ^ p - 1) * u) ∧ (m = .rne → 4 * n < (2 ^ (p + 1) - 1) * u)) ∧
      (f.getLsbD 2 = true ↔ (toZero → q inf * u ≤ n) ∧ (fromZero → q (inf - 1) * u < n) ∧
        (m = .rne → (q (inf - 1) + q inf) * u ≤ 2 * n)) ∧
      f.getLsbD 3 = false ∧ f.getLsbD 4 = false) ∧
  ∀ (p : Nat) (m : Rm) (a b c : Nat), p = 8 ∨ p = 24 →
    let num := fun (neg : Bool) (mag : Nat) (k : Nat) => (if neg then -1 else 1) * ((mag * 2 ^ k : Nat) : Int)
    let gives := fun (v : Int) (e : Int) => if v = 0 then ((if m = .rdn then 2 ^ (p + 7) else 0), 0) else pack p m (.fin (decide (v < 0)) v.natAbs e)
    ∀ sa ma ea sb mb eb, unpack p a = .fin sa ma ea → unpack p b = .fin sb mb eb →
      (let e := min ea eb
       fadd p m a b = gives (num sa ma (ea - e).toNat + num sb mb (eb - e).toNat) e ∧
       fsub p m a b = gives (num sa ma (ea - e).toNat - num sb mb (eb - e).toNat) e) ∧
      fmul p m a b = pack p m (.fin (sa ^^ sb) (ma * mb) (ea + eb)) ∧
      ∀ sc mc ec, unpack p c = .fin sc mc ec →
        let e := min (ea + eb) ec
        ffma p m a b c = gives (num (sa ^^ sb) (ma * mb) (ea + eb - e).toNat + num sc mc (ec - e).toNat) e

/-- Logic, selection and lane movement (R124, R126, R127): no flag. -/
def Obligations.VectorLogicAndMovement : Prop :=
  ∀ (s : State) (d a b : Fin 32) (p : Fin 8) (t : Fin 16), hasLanes t = true →
    let x := s.ctx.vreg a
    let y := s.ctx.vreg b
    let w := laneBits t
    let e := 256 / w
    let el := fun (v : VWord) (j : Nat) => v.extractLsb' (w * j) w
    let sets := fun (i : Instr) (f : Nat → BitVec w) => ∃ v : VWord, SetsV i s d v 0 ∧ ∀ j, j < e → el v j = f j
    SetsV (.vand d a b) s d (x &&& y) 0 ∧ SetsV (.vor d a b) s d (x ||| y) 0 ∧ SetsV (.vxor d a b) s d (x ^^^ y) 0 ∧
    (∃ v : VWord, SetsV (.vsel d a b p) s d v 0 ∧ ∀ j, j < 32 →
      v.extractLsb' (8 * j) 8 = if (s.ctx.pval p).getLsbD j then x.extractLsb' (8 * j) 8 else y.extractLsb' (8 * j) 8) ∧
    sets (.vbcast d a t) (fun _ => (s.ctx.sreg a).setWidth w) ∧
    sets (.vperm d a b t) (fun j => el x ((el y j).toNat % e)) ∧
    sets (.vshuf d a b t) (fun j =>
      let k := (el (s.ctx.vreg d) j).toNat % (2 * e)
      if k < e then el x k else el y (k - e)) ∧
    ∀ n : Fin 32, SetsS (.vext d a n t) s d (if isSigned t then (el x n.val).signExtend 64 else (el x n.val).setWidth 64)

/-- Compares (R125): all bits of a lane's bytes alike, −0 equal to +0, every relation with a NaN false; IV for a signalling NaN
under VCMPEQ, for any NaN under the others. -/
def Obligations.VectorCompares : Prop :=
  ∀ (s : State) (r : Fin 4) (d a b : Fin 32) (t : Fin 16),
    let w := laneBits t
    let x := fun j => (s.ctx.vreg a).extractLsb' (w * (j / (w / 8))) w
    let y := fun j => (s.ctx.vreg b).extractLsb' (w * (j / (w / 8))) w
    let sets := fun (i : Instr) (f : Nat → Bool) (g : BitVec 5 → Prop) => Ready i s → ∃ (m : BitVec 32) (fl : BitVec 5),
      exec i s = .next (s.done 4 ((s.ctx.setP d m).orFlags fl)) ∧ (∀ j, j < 32 → m.getLsbD j = f j) ∧ g fl
    (isInt t = true →
      sets (.vcmpeq 0 d a b t) (fun j => x j == y j) (· = 0) ∧
      sets (.vcmplt 0 d a b t) (fun j => if isSigned t then (x j).slt (y j) else (x j).ult (y j)) (· = 0) ∧
      sets (.vcmple 0 d a b t) (fun j => if isSigned t then (x j).sle (y j) else (x j).ule (y j)) (· = 0)) ∧
    (isFloat t = true →
      let p := fmtP t
      let nan := fun j => isNan (unpack p (x j).toNat) || isNan (unpack p (y j).toNat)
      let sig := fun j => unpack p (x j).toNat = .nan true ∨ unpack p (y j).toNat = .nan true
      let val := fun (z : BitVec w) => if z.toNat < 2 ^ (p + 7) then (z.toNat : Int) else -((z.toNat - 2 ^ (p + 7) : Nat) : Int)
      sets (.vcmpeq r d a b t) (fun j => !nan j && val (x j) == val (y j)) (fun f => f = 16 ∧ (∃ j, j < 32 ∧ sig j) ∨
        f = 0 ∧ ∀ j, j < 32 → ¬sig j) ∧
      sets (.vcmplt r d a b t) (fun j => !nan j && decide (val (x j) < val (y j))) (fun f =>
        f = 16 ∧ (∃ j, j < 32 ∧ nan j = true) ∨ f = 0 ∧ ∀ j, j < 32 → nan j = false) ∧
      sets (.vcmple r d a b t) (fun j => !nan j && decide (val (x j) ≤ val (y j))) (fun f =>
        f = 16 ∧ (∃ j, j < 32 ∧ nan j = true) ∨ f = 0 ∧ ∀ j, j < 32 → nan j = false))

/-- Reductions (R128) give over integers the exact sum, greatest or least lane in bits 63:0 with zeros above, over floating
lanes the fixed pairwise tree, with every flag that a node of it raises. Packing, unpacking, dot products and the largest exponent
(R130, R132, R133, R135) on integers, and the dot product of DPT8 with integers, saturate, extend, wrap. -/
def Obligations.VectorReduceAndPack : Prop :=
  (∀ (s : State) (r : Fin 4) (d a : Fin 32) (t : Fin 16),
    let w := laneBits t
    let e := 256 / w
    let x := fun j => (s.ctx.vreg a).extractLsb' (w * j) w
    let val := fun j => if isSigned t then (x j).toInt else ((x j).toNat : Int)
    let lows := fun (v : Int) => (BitVec.ofInt 64 v).setWidth 256
    (isInt t = true →
      SetsV (.vredAdd 0 d a t) s d (lows ((List.range e).map val).sum) 0 ∧
      (∃ m, m < e ∧ (∀ j, j < e → val j ≤ val m) ∧ SetsV (.vredMax 0 d a t) s d (lows (val m)) 0) ∧
      ∃ m, m < e ∧ (∀ j, j < e → val m ≤ val j) ∧ SetsV (.vredMin 0 d a t) s d (lows (val m)) 0) ∧
    (isFloat t = true →
      let p := fmtP t
      let sets := fun (i : Instr) (f : Nat → Nat → FRes) =>
        let node := fun (u v : FRes) => ((f u.1 v.1).1, u.2 ||| v.2 ||| (f u.1 v.1).2)
        let leaf := fun i => ((x i).toNat, (0 : BitVec 5))
        let two := fun i => node (leaf i) (leaf (i + 1))
        let four := fun i => node (two i) (two (i + 2))
        let eight := fun i => node (four i) (four (i + 4))
        let top := if t = tF32 then eight 0 else node (eight 0) (eight 8)
        SetsV i s d (BitVec.ofNat 256 top.1) top.2
      sets (.vredAdd r d a t) (fadd p (rmOf r)) ∧ sets (.vredMax r d a t) (fmax p) ∧ sets (.vredMin r d a t) (fmin p))) ∧
  ∀ (s : State) (d a b : Fin 32) (h : Fin 32) (t : Fin 16),
    let w := laneBits t
    let el := fun (v : VWord) (w j : Nat) => v.extractLsb' (w * j) w
    let x := s.ctx.vreg a
    let y := s.ctx.vreg b
    let z := s.ctx.vreg d
    let num := fun (n : Nat) (q : BitVec n) => if isSigned t then q.toInt else (q.toNat : Int)
    (isInt t = true → w < 64 →
      let wide := fun j => (if j < 128 / w then el x (2 * w) j else el y (2 * w) (j - 128 / w)).toInt
      let lo : Int := if isSigned t then -(2 ^ (w - 1)) else 0
      let hi : Int := if isSigned t then 2 ^ (w - 1) - 1 else 2 ^ w - 1
      ∃ (v : VWord) (f : BitVec 5), SetsV (.vpack 0 d a b t) s d v f ∧
        (∀ j, j < 256 / w → num w (el v w j) = max lo (min hi (wide j))) ∧
        (f = 16 ∧ (∃ j, j < 256 / w ∧ (wide j < lo ∨ hi < wide j)) ∨ f = 0 ∧ ∀ j, j < 256 / w → lo ≤ wide j ∧ wide j ≤ hi)) ∧
    (isInt t = true → 8 < w → h.val ≤ 1 → ∃ v : VWord, SetsV (.vunpk d a h t) s d v 0 ∧ ∀ j, j < 256 / w →
      num w (el v w j) = num (w / 2) (el x (w / 2) (h.val * (256 / w) + j))) ∧
    (t = tI8 ∨ t = tN8 ∨ t = tI16 →
      let u := if t = tI16 then 64 else 32
      ∃ v : VWord, SetsV (.vdot 0 d a b t) s d v 0 ∧ ∀ j, j < 256 / u →
        el v u j = el z u j +
          BitVec.ofInt u ((List.range 4).map fun k => num w (el x w (4 * j + k)) * num w (el y w (4 * j + k))).sum) ∧
    (∃ v : VWord, SetsV (.vdot 0 d a b tDP) s d v 0 ∧ ∀ j, j < 8 → el v 32 j = el z 32 j +
      BitVec.ofInt 32 ((List.range 4).map fun k => dpt8val (el x 8 (4 * j + k)).toNat * (el y 8 (4 * j + k)).toInt).sum) ∧
    (isFloat t = true → ∃ (v : VWord) (m : Nat), SetsV (.vmaxexp d a t) s d v 0 ∧
      (∀ j, j < 32 → (el v 8 j).toNat = m) ∧ (∃ j, j < 256 / w ∧ (el x w j).toNat / 2 ^ (fmtP t - 1) % 256 = m) ∧
      ∀ j, j < 256 / w → (el x w j).toNat / 2 ^ (fmtP t - 1) % 256 ≤ m)

/-- Conversions, scaling and approximations with floating or DPT8 operands (R104 to R106, R129 to R136): each lane by its
conversion, the flags of the lanes that compute; special inputs as the manual lists them; a DPT8 byte keeps its value. Conversions,
packed and unpacked lanes give on chosen values what the manual's rounding and its tables say. Every form completes in every state in
which it is admitted. That a prefixed VUNPK or VDOT is lane-wise is the model's choice (log 87), as are that 2^x is rounded from 192 bits
(log 8) and the IV of VDOT.bf with a NaN among its terms (log 70). -/
def Obligations.VectorConversions : Prop :=
  (∀ (s : State) (r : Fin 4) (d a b : Fin 32) (u t : Fin 16),
    let w := laneBits t
    let el := fun (v : VWord) (w j : Nat) => v.toNat / 2 ^ (w * j) % 2 ^ w
    let x := s.ctx.vreg a
    let gives := fun (i : Instr) (w : Nat) (f : Nat → FRes) (on : Nat → Prop) => Legal i s → ∃ (v : VWord) (g : BitVec 5),
      exec i s = .next (s.done i.size ((s.ctx.setVm d v).orFlags g)) ∧ (∀ j, j < 256 / w → el v w j = (f j).1 % 2 ^ w) ∧
      ∀ n, n < 5 → (g.getLsbD n = true ↔ ∃ j, j < 256 / w ∧ on j ∧ (f j).2.getLsbD n = true)
    let sets := fun (i : Instr) (w : Nat) (f : Nat → FRes) =>
      gives i w f fun j => ∃ k, k < w / 8 ∧ s.ctx.enabled (w / 8 * j + k) = true
    let packs := fun (i : Instr) (w : Nat) (f : Nat → FRes) => gives i w f fun _ => True
    sets (.vcvt r d a u t) w (fun j => cvtLane r u t (el x w j)) ∧
    sets (.vdot r d a b tBF) 32 (fun j => fdot2 (rmOf r) (el x 16 (2 * j)) (el (s.ctx.vreg b) 16 (2 * j)) (el x 16 (2 * j + 1))
      (el (s.ctx.vreg b) 16 (2 * j + 1)) (el (s.ctx.vreg d) 32 j)) ∧
    packs (.vpack r d a b tDP) 8 (fun j => dptOfF 8 (rmOf r) (if j < 16 then el x 16 j else el (s.ctx.vreg b) 16 (j - 16))) ∧
    packs (.vpack r d a b tBF) 16 (fun j =>
      packLane r tBF (if j < 8 then el x 32 j else el (s.ctx.vreg b) 32 (j - 8))) ∧
    (∀ h : Fin 32, sets (.vunpk d a h tF32) 32 (fun j => unpkLane tF32 (el x 16 (h.val * 8 + j))) ∧
      sets (.vunpk d a h tBF) 16 (fun j => unpkLane tBF (el x 8 (h.val * 16 + j)))) ∧
    (isFloat t = true →
      sets (.vscale r d a b t) w (fun j => fscale (fmtP t) (rmOf r) (el x w j) (el (s.ctx.vreg b) 8 j)) ∧
      sets (.vrcp d a t) w (fun j => frcp (fmtP t) (el x w j)) ∧ sets (.vrsq d a t) w (fun j => frsq (fmtP t) (el x w j)) ∧
      sets (.vexp2 d a t) w (fun j => fexp2 (fmtP t) (el x w j)))) ∧
  (frcp 24 0 = (0x7F800000, 8) ∧ frcp 24 0x80000000 = (0xFF800000, 8) ∧ frcp 24 0x7F800000 = (0, 0) ∧
    frcp 24 0xFF800000 = (0x80000000, 0) ∧ frsq 24 0 = (0x7F800000, 8) ∧ frsq 24 0x80000000 = (0xFF800000, 8) ∧
    frsq 24 0xFF800000 = (0x7FC00000, 16) ∧ frsq 24 0xBF800000 = (0x7FC00000, 16) ∧ fexp2 24 0 = (0x3F800000, 0) ∧
    fexp2 24 0x7F800000 = (0x7F800000, 0) ∧ fexp2 24 0xFF800000 = (0, 0) ∧ fexp2 24 0x43000000 = (0x7F800000, 5) ∧
    frsq 24 0x7F800000 = (0, 0) ∧ fexp2 24 0x80000000 = (0x3F800000, 0) ∧ frcp 24 0xC0000000 = (0xBF000000, 0) ∧
    fexp2 24 0xBF800000 = (0x3F000000, 0) ∧ ∀ f, f = frcp 24 ∨ f = frsq 24 ∨ f = fexp2 24 →
      f 0x7FC00001 = (0x7FC00000, 0) ∧ f 0x7F800001 = (0x7FC00000, 16)) ∧
  (∀ k : Nat, 1 ≤ k → k ≤ 253 → frcp 24 (k * 2 ^ 23) = ((254 - k) * 2 ^ 23, 0)) ∧
  (∀ p x : Nat, fscale p .rne x 255 = (255 * 2 ^ (p - 1) + 2 ^ (p - 2), 0)) ∧
  (cvtLane 0 tI32 tF32 16777217 = (0x4B800000, 1) ∧ cvtLane 2 tI32 tF32 16777217 = (0x4B800001, 1) ∧
    cvtLane 0 tI16 tBF 257 = (0x4380, 1) ∧ cvtLane 0 tF32 tI32 0x40200000 = (2, 1) ∧ cvtLane 2 tF32 tI32 0x40200000 = (3, 1) ∧
    cvtLane 1 tBF tI16 0xC020 = (0xFFFE, 1) ∧ cvtLane 0 tF32 tI32 0x7FC00000 = (0, 16) ∧
    cvtLane 0 tF32 tI32 0x50DF8475 = (0x7FFFFFFF, 16) ∧ cvtLane 0 tF32 tN32 0xBF800000 = (0, 16) ∧
    cvtLane 0 tI8 tDP 127 = (0x77, 1) ∧ cvtLane 0 tN8 tDP 200 = (0x77, 16) ∧ cvtLane 0 tDP tI8 0x77 = (127, 16) ∧
    cvtLane 0 tDP tDP 0x77 = (0x77, 0)) ∧
  (packLane 0 tBF 0x3F808000 = (0x3F80, 1) ∧ packLane 2 tBF 0x3F808000 = (0x3F81, 1) ∧ packLane 0 tBF 0x7F800001 = (0x7FC0, 16) ∧
    packLane 0 tBF 0x7F7FFFFF = (0x7F80, 5) ∧ dptOfF 8 .rne 0x4130 = (0x42, 1) ∧ dptOfF 8 .rup 0x4130 = (0x43, 1) ∧
    dptOfF 8 .rne 0x42E0 = (0x76, 1) ∧ dptOfF 8 .rup 0x42E0 = (0x77, 1) ∧ dptOfF 8 .rne 0xBF00 = (0, 1) ∧
    dptOfF 8 .rdn 0xBF00 = (0x90, 1) ∧ dptOfF 8 .rne 0x42C0 = (0x76, 0) ∧ dptOfF 8 .rne 0x4348 = (0x77, 16)) ∧
  (unpkLane tF32 0x3F80 = (0x3F800000, 0) ∧ unpkLane tF32 0x7F81 = (0x7FC00000, 16) ∧ unpkLane tBF 0x77 = (0x4300, 0) ∧
    unpkLane tBF 0x42 = (0x4120, 0) ∧ unpkLane tBF 0x90 = (0xBF80, 0)) ∧
  (∀ b : Nat, b < 256 → dpt8val (dptEnc .rne (dpt8val b) 0).1 = dpt8val b ∧ (dptEnc .rne (dpt8val b) 0).2 = 0)

/-- An instruction of the register-only forms that completes changes nothing but its own context, and there only its
destinations, the pc and the loop levels; the flags stay unless it may raise one. -/
def Obligations.RegisterFrame : Prop :=
  ∀ (i : Instr) (s t : State), i.registerOnly = true → exec i s = .next t → t.ctx.st = .running →
    s.onlyCtx t ∧ t.ctx.others = s.ctx.others ∧ (∀ r ∈ t.ctx.badS, r ∈ s.ctx.badS) ∧ (∀ w ∈ t.ctx.badV, w ∈ s.ctx.badV) ∧
    (∀ r : Fin 32, i.writesS r = false → t.ctx.sreg r = s.ctx.sreg r) ∧
    (∀ r : Fin 32, i.writesV r = false → t.ctx.vreg r = s.ctx.vreg r) ∧
    (∀ r : Fin 32, i.writesP r = false → t.ctx.preg r = s.ctx.preg r) ∧
    (i.raisesFlags = false → t.ctx.flags = s.ctx.flags)

/-- Every encoded instruction but the local stores, whatever it does, leaves every byte of every scratchpad, of every code image
and of global memory as it was. -/
def Obligations.MemoryFrame : Prop :=
  ∀ (i : Instr) (s t : State), i.encoded = true → i.storesLocal = false → exec i s = .next t →
    (∀ u a, t.byteAt u a = s.byteAt u a) ∧ (∀ a, t.physAt a = s.physAt a) ∧ ∀ u, (t.site u).istore = (s.site u).istore

/-- No instruction writes a register, a predicate or a flag of another context, or what a launch wrote into a tile, except that
SYSW of the watchdog changes its own tile's limit. -/
def Obligations.ContextsAndLaunchStateKept : Prop :=
  ∀ (i : Instr) (s t : State), i.encoded = true → exec i s = .next t →
    (∀ (u : Nat) (c : Fin 4), (u, c) ≠ s.cur → (t.ctxAt u c).s = (s.ctxAt u c).s ∧ (t.ctxAt u c).v = (s.ctxAt u c).v ∧
      (t.ctxAt u c).p = (s.ctxAt u c).p ∧ (t.ctxAt u c).flags = (s.ctxAt u c).flags) ∧
    ∀ u, { (t.site u).krn with limit := 0 } = { (s.site u).krn with limit := 0 } ∧
      ((∀ d m n, i ≠ .sysw d m n) ∨ u ≠ s.cur.1 → (t.site u).krn.limit = (s.site u).krn.limit)

/-- Reads of what the context and the tile hold: identity (R84), identifier fields (R86), arguments (R182), the last message
number (R162), the fold result (R195), a stream's status (R221, R243), a queue's count (R163). -/
def Obligations.IdentityReads : Prop :=
  ∀ (s : State) (d a : Fin 32) (f : Fin 8) (n q : Fin 32) (p : Fin 4),
    let x := s.me
    let w := fun (j : Nat) => x.krn.widths.getD j 0
    (x.krn.member < 8192 → s.cur.1 < 8192 → ∃ v : Word, SetsS (.tileid d) s d v ∧ (v.extractLsb' 0 16).toNat = s.cur.1 ∧
      (v.extractLsb' 16 16).toNat = s.cur.2.val ∧ (v.extractLsb' 32 32).toNat = x.krn.member) ∧
    (x.krn.widths.length = 6 → ∃ v : Word, SetsS (.widF d a f) s d v ∧ (f.val < 6 → (w f.val = 0 → v = 0) ∧
      v.toNat = ((s.ctx.sreg a).toNat >>> ((List.range f.val).map w).sum) % 2 ^ w f.val)) ∧
    SetsS (.msgid d) s d ((s.ctx.lastid.map fun i => i.setWidth 64).getD (BitVec.allOnes 64)) ∧
    SetsS (.foldrd d 0) s d (s.ctx.fr.extractLsb' 0 64) ∧ SetsS (.foldrd d 1) s d (s.ctx.fr.extractLsb' 64 64) ∧
    (∃ v : Nat, SetsS (.mxstat d p) s d (BitVec.ofNat 64 v) ∧ (s.ctx.status[p].dropped < 256 → s.ctx.status[p].kdone < 2 ^ 16 →
      v % 16 = s.ctx.status[p].st.code ∧ bit v 8 = s.ctx.status[p].ovf ∧ bit v 9 = s.ctx.status[p].parted ∧
      bit v 10 = s.ctx.status[p].recvfault ∧ bits v 16 8 = s.ctx.status[p].rcause.toNat ∧ bits v 24 8 = s.ctx.status[p].dropped ∧
      bits v 32 16 = s.ctx.status[p].kdone ∧ v / 2 ^ 48 = s.ctx.status[p].rank)) ∧
    SetsS (.qcnt d q) s d (BitVec.ofNat 64 (x.core.qcount q.val).1) ∧
    (∀ (l : Nat) (la : Launch), x.krn.launch = some l → mapGet? s.launches l = some la →
      (n.val < 8 → SetsS (.karg d n) s d (la.desc.largs.getD n.val 0)) ∧
      (n = 8 → SetsS (.karg d n) s d (BitVec.ofNat 64 la.members.length)) ∧
      (n = 9 → SetsS (.karg d n) s d (BitVec.ofNat 64 (la.rows + la.cols * 2 ^ 16 + la.kind * 2 ^ 32))) ∧
      (n = 10 → SetsS (.karg d n) s d la.desc.idbase) ∧ (n = 11 → SetsS (.karg d n) s d (BitVec.ofNat 64 la.pos)) ∧
      (n = 12 → SetsS (.karg d n) s d (BitVec.ofNat 64 (min 255 x.krn.chain))) ∧
      (n = 13 → SetsS (.karg d n) s d (x.krn.pred.setWidth 64)) ∧ (n = 14 → SetsS (.karg d n) s d (x.krn.inherit.setWidth 64)) ∧
      (n = 15 → SetsS (.karg d n) s d (if x.krn.fresh then 1 else 0)))

/-- A push appends, a pop takes the head, all ones in the predicate; a full or an empty queue gives a zero predicate and changes
nothing else, and neither ever waits (R21, R163). q6 goes to the tile across the bond and costs a free slot there, which its pop gives
back. A vector queue is popped into the enabled byte lanes (R155, R158, R163). A head that is an uncorrectable word raises ECC (R333).
QPUSHW and QPOPW raise PRIV outside maintenance, whatever the prefix says; in a maintenance kernel they have the effect of the plain
form without a predicate, or wait where that would fail; a wait that still cannot end after 65,536 cycles
ends in a QWAIT trap with the queue, its head and its tail, for q6 by the pusher's own count (R164). That cycles in which the tile is
halted count (log 78), that a push to q6 fails at a site that is no tile (log 7), the structure number and the addresses of the helm's
record of a queue word (log 100) and its syndrome, a free value (log 6), are the model's choices. -/
def Obligations.QueueInstructions : Prop :=
  (∀ (s : State) (d p q : Fin 32) (j : Fin 4) (h : Fin 2),
    let k := s.me.core
    let u := s.cur.1
    let ok := fun (c : Ctx) => c.setP p 0xFFFFFFFF
    let fails := s.finish 4 fun c => c.setP p 0
    let pushed := fun (f : Fifo 64) x => ({ items := f.items ++ [x], pops := f.pops, pushes := f.pushes + 1 } : Fifo 64)
    let popped := fun {w : Nat} (f : Fifo w) r => ({ items := r, pops := f.pops + 1, pushes := f.pushes } : Fifo w)
    let sound := (q.val, (k.qcount q.val).2.1) ∉ k.badQ
    (¬sound → (k.qcount q.val).1 ≠ 0 → Ready (.qpop d p q) s → Ready (.qpeek d p q) s →
      let a := 2 ^ 32 * q.val + (k.qcount q.val).2.1
      let ecc : Trap := { cause := 0x09, w4 := Config.syndrome s.cycle a, own := some (4, a) }
      Traps (.qpop d p q) s ecc ∧ Traps (.qpeek d p q) s ecc) ∧
    (q.val = j.val → Gives (.qpush d p q) s (if 8 ≤ k.qs[j].items.length then fails else
      (s.modCore u fun k => { k with qs := k.qs.set j (pushed k.qs[j] (s.ctx.sreg d)) }.wake).finish 4 ok)) ∧
    (q = 6 → Gives (.qpush d p q) s (if s.me.frozen = true ∨ k.free = 0 ∨ isTile u = false then fails else
      ((s.modCore u fun k => { k with free := k.free - 1, pushes6 := k.pushes6 + 1 }).modSite (partnerOf u) fun x =>
        { x with vland := x.vland ++ [s.ctx.vreg d] }).finish 4 ok)) ∧
    ((k.qcount q.val).1 = 0 → Gives (.qpop d p q) s fails ∧ Gives (.qpeek d p q) s fails) ∧
    (∀ x r, q.val = j.val → k.qs[j].items = x :: r → sound →
      Gives (.qpeek d p q) s (s.finish 4 fun c => ok (c.setS d x)) ∧
      Gives (.qpop d p q) s ((s.modCore u fun k => { k with qs := k.qs.set j (popped k.qs[j] r) }).finish 4 fun c =>
        ok (c.setS d x))) ∧
    (∀ x r, q.val = 4 + h.val → k.q45[h].items = x :: r → sound → Legal (.qpop d p q) s → Legal (.qpeek d p q) s →
      exec (.qpeek d p q) s = .next (s.finish 4 fun c => ok (c.setVm d x)) ∧
      exec (.qpop d p q) s = .next ((s.modCore u fun k =>
        { k with q45 := k.q45.set h (popped k.q45[h] r) }).finish 4 fun c =>
          ok (c.setVm d x))) ∧
    (∀ x r, q = 6 → k.q6.items = x :: r → sound → Legal (.qpop d p q) s → Legal (.qpeek d p q) s →
      exec (.qpeek d p q) s = .next (s.finish 4 fun c => ok (c.setVm d x)) ∧
      exec (.qpop d p q) s = .next (((s.modCore u fun k =>
        { k with q6 := popped k.q6 r }).modSite (partnerOf u) fun y =>
          { y with vcred := y.vcred + 1 }).finish 4 fun c => ok (c.setVm d x))) ∧
    (∀ x r, q = 7 → k.q7.items = x :: r → sound →
      Gives (.qpeek d p q) s (s.finish 4 fun c => ok (c.setS d x)) ∧
      Gives (.qpop d p q) s ((s.modCore u fun k =>
        { k with q7 := popped k.q7 r }).finish 4 fun c => ok (c.setS d x)))) ∧
  ∀ (s : State) (d q : Fin 32) (j : Fin 4) (t : Nat) (c : Fin 4),
    let k := s.me.core
    let u := s.cur.1
    let sound := (q.val, (k.qcount q.val).2.1) ∉ k.badQ
    (s.me.krn.maint = false → (Legal (.qpushw d q) s → Traps (.qpushw d q) s { cause := 0x02, w4 := 0x45 }) ∧
      (Legal (.qpopw d q) s → Traps (.qpopw d q) s { cause := 0x02, w4 := 0x46 })) ∧
    (s.me.krn.maint = true → q.val = j.val →
      (k.qs[j].items.length < 8 → Gives (.qpushw d q) s ((s.modCore u fun k =>
        { k with qs := k.qs.set j (k.qs[j].push (s.ctx.sreg d)) }.wake).finish 4 id)) ∧
      (8 ≤ k.qs[j].items.length → Gives (.qpushw d q) s s.stall) ∧
      (∀ x r, k.qs[j].items = x :: r → sound → Gives (.qpopw d q) s ((s.modCore u fun k =>
        { k with qs := k.qs.set j k.qs[j].pop }).finish 4 fun c => c.setS d x))) ∧
    (s.me.krn.maint = true → isTile u = true → s.me.frozen = false → k.free ≠ 0 → Gives (.qpushw d 6) s
      (((s.modCore u fun k => { k with free := k.free - 1, pushes6 := k.pushes6 + 1 }).modSite (partnerOf u) fun x =>
        { x with vland := x.vland ++ [s.ctx.vreg d] }).finish 4 id)) ∧
    (s.me.krn.maint = true → (k.qcount q.val).1 = 0 → Ready (.qpopw d q) s → exec (.qpopw d q) s = .next s.stall) ∧
    (∀ (h : Fin 2) x r, s.me.krn.maint = true → q.val = 4 + h.val → k.q45[h].items = x :: r → sound → Legal (.qpopw d q) s →
      exec (.qpopw d q) s = .next ((s.modCore u fun k => { k with q45 := k.q45.set h k.q45[h].pop }).finish 4 fun c => c.setVm d x)) ∧
    (∀ x r, s.me.krn.maint = true → q = 6 → k.q6.items = x :: r → sound → Legal (.qpopw d q) s →
      exec (.qpopw d q) s = .next (((s.modCore u fun k => { k with q6 := k.q6.pop }).modSite (partnerOf u) fun y =>
        { y with vcred := y.vcred + 1 }).finish 4 fun c => c.setVm d x)) ∧
    (∀ x r, s.me.krn.maint = true → q = 7 → k.q7.items = x :: r → sound → Gives (.qpopw d q) s ((s.modCore u fun k =>
      { k with q7 := k.q7.pop }).finish 4 fun c => c.setS d x)) ∧
    (∀ since r, Live s t → (s.ctxAt t c).st = .stalled → (s.ctxAt t c).wait = .retry since → s.pending t c = some (.qpopw r q) →
      let y := (s.site t).core.qcount q.val
      let ends := y.2.2 % (2 * depth q.val) * 2 ^ 32 + y.2.1 % (2 * depth q.val)
      (since + 65536 ≤ s.cycle → y.1 = 0 → exec (.qwaitExpiry t c.val) s =
        .next (s.trapAt t c { cause := 0x0C, w4 := BitVec.ofNat 64 q.val, w5 := BitVec.ofNat 64 ends })) ∧
      (s.cycle < since + 65536 ∨ y.1 ≠ 0 → exec (.qwaitExpiry t c.val) s = .next s)) ∧
    ∀ since r, Live s t → (s.ctxAt t c).st = .stalled → (s.ctxAt t c).wait = .retry since → s.pending t c = some (.qpushw r q) →
      let x := (s.site t).core
      let y := x.qcount q.val
      let full := if q = 6 then (s.site t).frozen = true ∨ x.free = 0 ∨ isTile t = false else depth q.val ≤ y.1
      let ends := if q = 6 then x.pushes6 % 16 * 2 ^ 32 + (x.pushes6 + 16 - (8 - x.free)) % 16
        else y.2.2 % (2 * depth q.val) * 2 ^ 32 + y.2.1 % (2 * depth q.val)
      (since + 65536 ≤ s.cycle → full → exec (.qwaitExpiry t c.val) s =
        .next (s.trapAt t c { cause := 0x0C, w4 := BitVec.ofNat 64 q.val, w5 := BitVec.ofNat 64 ends })) ∧
      (s.cycle < since + 65536 ∨ ¬full → exec (.qwaitExpiry t c.val) s = .next s)

/-- SEND and SENDM (R160, R161) post one outbox message of the beats read at the payload address, numbered by the tile's
counter; for both an absent member or a channel above 29 raises ACCESS, as a reserved bit of SENDM's descriptor does, then a payload
outside the scratchpad RANGE or STRADDLE, then an outbox of 64 beats or 16 messages OUTBOX, then an uncorrectable payload word ECC (its
address and syndrome as logs 6 and 64 say), with nothing sent. The NI injects the next copy of the oldest message whose context is EMPTY
again (R20), once its commit word is written and ca has performed the tile's reclaims (R277, R324), counted as released (R43); a
message whose targets are all served goes; one for an OFF member is dropped (R326). -/
def Obligations.Sends : Prop :=
  (∀ (s : State) (d a b n : Fin 32),
    let c := s.ctx
    let m := (c.sreg d).toNat
    let w := c.sreg b
    let len := 32 * (n.val + 1)
    let size := (s.membersOf s.cur.1).length
    let held := (c.outbox.map fun o => o.beats.length).sum
    let posts := fun (targets : List Nat) (t : State) => ∃ beats : List VWord, beats.length = n.val + 1 ∧
      (∀ j k, j ≤ n.val → k < 32 → (beats.getD j 0).extractLsb' (8 * k) 8 = s.byteAt s.cur.1 (w.toNat + 32 * j + k)) ∧
      let msg : OutMsg := { targets := targets, chan := (c.sreg a).toNat, id := s.me.nextid, beats := beats }
      t = (s.modSite s.cur.1 fun x => { x with nextid := x.nextid + 1 }).finish 4 fun c =>
        { c with lastid := some s.me.nextid, outbox := c.outbox ++ [msg] }
    let room := held + (n.val + 1) ≤ 64 ∧ c.outbox.length ≠ 16
    let fits := (c.sreg a).toNat < 30 ∧ w.toNat + len ≤ 0x60000 ∧ s.me.bad = [] ∧ room
    let reads := fun (i : Instr) => (c.sreg a).toNat < 30 →
      (0x60000 ≤ w.toNat → Traps i s { cause := 0x04, w3 := w }) ∧
      (w.toNat < 0x60000 → 0x60000 < w.toNat + len → Traps i s { cause := 0x05, w3 := w }) ∧
      ∀ x, w.toNat + len ≤ 0x60000 → room → s.me.bad = [x] → x < w.toNat + len → w.toNat < x + 8 →
        Traps i s { cause := 0x09, w3 := BitVec.ofNat 64 x, w4 := Config.syndrome s.cycle (x % 2 ^ 64), own := some (0, x % 2 ^ 64) }
    (m < size → fits → Ready (.send d a b n) s → ∃ t : State, exec (.send d a b n) s = .next t ∧ posts [m] t) ∧
    (m < size → Ready (.send d a b n) s → reads (.send d a b n)) ∧
    (size ≤ m → Ready (.send d a b n) s → Traps (.send d a b n) s { cause := 0x08, w4 := c.sreg d, w5 := c.sreg a }) ∧
    (m < size → 30 ≤ (c.sreg a).toNat → Ready (.send d a b n) s →
      Traps (.send d a b n) s { cause := 0x08, w4 := c.sreg d, w5 := c.sreg a }) ∧
    (m < size → (c.sreg a).toNat < 30 → w.toNat + len ≤ 0x60000 → 64 < held + (n.val + 1) ∨ c.outbox.length = 16 →
      Ready (.send d a b n) s → Traps (.send d a b n) s { cause := 0x15, w4 := BitVec.ofNat 64 held }) ∧
    (let base := m % 2 ^ 13
     let who := ((List.range 32).filter fun i => (c.sreg d).getLsbD (16 + i)).map fun i => base + i
     let first : Word := BitVec.ofNat 64 (who.headD 0)
     ((c.sreg d).extractLsb' 13 3 ≠ 0 ∨ (c.sreg d).extractLsb' 48 16 ≠ 0 → Ready (.sendm d a b n) s →
       Traps (.sendm d a b n) s { cause := 0x08, w4 := BitVec.ofNat 64 base }) ∧
     ((c.sreg d).extractLsb' 13 3 = 0 → (c.sreg d).extractLsb' 48 16 = 0 → Ready (.sendm d a b n) s →
       (∀ i, i < 32 → (c.sreg d).getLsbD (16 + i) = true → size ≤ base + i →
         (∀ j, j < i → (c.sreg d).getLsbD (16 + j) = true → base + j < size) →
         Traps (.sendm d a b n) s { cause := 0x08, w4 := BitVec.ofNat 64 (base + i), w5 := c.sreg a }) ∧
       ((∀ x ∈ who, x < size) →
         (30 ≤ (c.sreg a).toNat → Traps (.sendm d a b n) s { cause := 0x08, w4 := first, w5 := c.sreg a }) ∧
         ((c.sreg a).toNat < 30 → w.toNat + len ≤ 0x60000 → 64 < held + (n.val + 1) ∨ c.outbox.length = 16 →
           Traps (.sendm d a b n) s { cause := 0x15, w4 := BitVec.ofNat 64 held }) ∧ reads (.sendm d a b n) ∧
         (fits → ∃ t : State, exec (.sendm d a b n) s = .next t ∧ posts who t))))) ∧
  ∀ (s : State) (t : Nat) (p : PendMsg) (rest : List PendMsg), Live s t → (s.site t).core.pend = p :: rest →
    (s.site t).halted = false → p.ctx = none → (∀ n, p.gate = some n → n ≤ (s.site t).ballast.last) →
    (∀ r ∈ (s.site t).core.caq, r.isOwnPost = false) →
    (p.msg.targets = [] → exec (.outboxInject t) s = .next (s.modCore t fun k => { k with pend := rest })) ∧
    ∀ m ms u, p.msg.targets = m :: ms → s.memberTile t m = some u → p.vc < 4 →
      ∃ v : State, exec (.outboxInject t) s = .next v ∧
        (v.site t).core.pend = { p with msg := { p.msg with targets := ms } } :: rest ∧
        (s.isOff u = true → (v.site t).released = (s.site t).released ∧ v.routers = s.routers) ∧
        (s.isOff u = false → (v.site t).released = (s.site t).released + 1 ∧
          ∃ hdr, v.injected { src := t, dst := u, vc := p.vc, body := p.msg.beats.length, load := .msg hdr p.msg.beats } ∧
            (p.msg.chan < 32 → p.msg.beats.length < 64 → hdrChan hdr = p.msg.chan ∧ hdrBeats hdr = p.msg.beats.length ∧
              hdr.toNat / 2 ^ 48 = p.msg.id.toNat ∧ hdrRetry hdr = 0))

/-- Channel control (R167) changes the own tile's entry at once, another member's by a packet that its arrival carries out;
channels 30 and 31 stay as they are; an absent member or channel raises ACCESS. Records of a link engine take the lowest free
slot of 4 to 15 or are counted as dropped (R142, R228). Entries cross the bond and credits come back; nothing comes back while
the count is frozen (R158). That an entry on its way stays so while its tile's gate is COMMITTING is the model's choice (log 71). -/
def Obligations.ChannelControl : Prop :=
  (∀ (s : State) (d a k : Fin 32) (t : Nat) (b : Bool) (i : Instr),
    let m := s.ctx.sreg d
    let ch := s.ctx.sreg a
    (i = .chblk d a ∧ b = true) ∨ (i = .chunb d a ∧ b = false) →
    (∀ u, s.memberTile s.cur.1 m.toNat = some u → ch.toNat < 32 →
      Gives i s ((if u = s.cur.1 then s.setEnt u ch.toNat 26 b
        else s.sendTo s.cur.1 u 0 0 (.chctl ch.toNat b)).finish 4 id)) ∧
    (s.memberTile s.cur.1 m.toNat = none ∨ 32 ≤ ch.toNat → Ready i s → Traps i s { cause := 0x08, w4 := m, w5 := ch }) ∧
    (ch.toNat < 32 → Gives (.chmask a k) s ((s.setEnt s.cur.1 ch.toNat 27 (k.val == 1)).finish 4 id)) ∧
    (∀ p r n, Live s t → (s.site t).rxCtl = p :: r → p.load = .chctl n b → exec (.channelControlArrival t) s =
      .next ((s.modSite t fun x => { x with rxCtl := r }).setEnt t n 26 b)) ∧
    (32 ≤ ch.toNat → Ready (.chmask a k) s → Traps (.chmask a k) s { cause := 0x08, w5 := ch }) ∧
    (∀ n e, n < 30 → e < 64 → ∀ j, j < 64 → (((s.setEnt t n e b).site t).entry n).getLsbD j =
      if j = e then b else ((s.site t).entry n).getLsbD j) ∧
    (∀ n e, 30 ≤ n → s.setEnt t n e b = s)) ∧
  ∀ (s : State) (t : Nat), Live s t →
    let x := s.site t
    (∀ r src rest, x.rxRec = (r, src) :: rest →
      let s' := s.modSite t fun x => { x with rxRec := rest }
      (∀ i, 4 ≤ i → i < 16 → i ∉ x.core.slots → (∀ j, 4 ≤ j → j < i → j ∈ x.core.slots) →
        exec (.remoteRecordArrival t) s = .next (s'.queueRecord t i r (0, src))) ∧
      ((∀ j, 4 ≤ j → j < 16 → j ∈ x.core.slots) → exec (.remoteRecordArrival t) s =
        .next (s'.modSite t fun x => { x with tdrop := min 255 (x.tdrop + 1) }))) ∧
    (x.gate.st = .committing → exec (.vfifoLanding t) s = .next s) ∧
    (∀ v r, x.gate.st ≠ .committing → x.vland = v :: r → ∃ u : State, exec (.vfifoLanding t) s = .next u ∧ (u.site t).vland = r ∧
      (u.site t).core.q6.items = x.core.q6.items ++ [v] ∧ ∀ c, (u.ctxAt t c).latch = true) ∧
    (x.frozen = true ∨ x.vcred = 0 → exec (.vfifoCreditReturn t) s = .next s) ∧
    (x.frozen = false → x.vcred ≠ 0 → ∃ u : State, exec (.vfifoCreditReturn t) s = .next u ∧ (u.site t).vcred = x.vcred - 1 ∧
      (u.site t).core.free = min 8 (x.core.free + 1))

/-- Messages at a tile: arrival into the lowest free run of the mailbox and the end of its channel's queue (R151 to R153),
selection with the entry state of R31 (R35), the tiles of the cluster in lower columns first (R46), ageing (R36). Selection takes the
eligible channels in their order: channel 31 first (R142), then the higher effective priority, the older head, the lower channel. A
message is admitted where its ENERGY and PEAK fit what the cluster has left, or, where one exceeds the whole budget or limit, alone; its
ENERGY is charged (R45, R46). That a message with an uncorrectable descriptor is not selected is the model's choice (log 100). -/
def Obligations.MessagesAndActivations : Prop :=
  ∀ (s : State) (t : Nat), Live s t →
    let x := s.site t
    (∀ p rest hdr beats a, x.rxMsg = p :: rest → p.load = .msg hdr beats → x.core.findRun beats.length = some a →
      ∃ u : State, exec (.messageArrival t) s = .next u ∧ s.storesOnly u t a (32 * beats.length) ∧
        memBytes (u.site t).mem a (32 * beats.length) = ofBeats beats ∧ (u.site t).rxMsg = rest ∧
        (u.site t).accepted = x.accepted + (if fromLaunchUnit hdr then 0 else 1) ∧
        (∀ c, (u.ctxAt t c).latch = true) ∧
        ∃ (q : List Desc) (d : Desc), (u.site t).core.chq[chanFin (hdrChan hdr)] = q ++ [d] ∧
          q.length = x.core.chq[chanFin (hdrChan hdr)].length ∧ d.hdr = hdr ∧ d.addr = a ∧ d.beats = beats.length ∧
          d.entry = s.cycle ∧ d.held = false ∧ d.runBy = none) ∧
    (x.rxMsg = [] → exec (.messageArrival t) s = .next s) ∧
    (exec (.priorityAgeing t) s = .next (s.modCore t fun k => k.age s.cycle)) ∧
    (∀ d h, d.head = some h → d.runBy = none → (ageDesc s.cycle d).aged = max d.aged (min 3 ((s.cycle - h) / 4096))) ∧
    (∀ ch e d, (ch, e, d) ∈ x.order ↔
      ch < 32 ∧ x.eligible ch = some d ∧ e = min 3 (bits (x.entry ch).toNat 24 2 + d.aged)) ∧
    (∀ ch d, ch < 30 → (x.eligible ch = some d ↔
      (∃ l r, x.core.chq[chanFin ch] = l ++ d :: r ∧ d.runBy = none ∧ ∀ y ∈ l, y.runBy ≠ none) ∧
        d.held = false ∧ d.deferred = false ∧ d.bad = false ∧ (x.entry ch).getLsbD 26 = false ∧ (x.entry ch).getLsbD 27 = false ∧
        ((x.entry ch).getLsbD 28 = true → x.core.busyChan ch = false))) ∧
    (∀ (i j : Nat) (a b : Nat × Nat × Desc), i < j → x.order[i]? = some a → x.order[j]? = some b → a.1 = 31 ∨ b.1 ≠ 31 ∧
      (b.2.1 < a.2.1 ∨ b.2.1 = a.2.1 ∧ (a.2.2.entry < b.2.2.entry ∨ a.2.2.entry = b.2.2.entry ∧ a.1 < b.1))) ∧
    (∀ e d, let k := s.cluster t
      let nJ := bits e.toNat 36 16
      let mA := bits e.toNat 52 12
      let sum := (s.peaks t).sum
      (s.admits t e d = true ↔ (nJ ≤ k.left ∨ k.budget < nJ ∧ d.atStart = true ∧ k.any = false) ∧
        (sum + mA ≤ k.peak ∨ k.peak < mA ∧ s.peaks t = [])) ∧
      ((s.charge t e).cluster t).left = k.left - nJ ∧ ((s.charge t e).cluster t).any = true) ∧
    let s' := (s.selectBefore t).modCore t fun k => k.age s.cycle
    (x.selects = false → exec (.activationStart t) s = .next s) ∧
    ∀ ch e d rest c, x.selects = true → (s'.site t).order = (ch, e, d) :: rest → (s'.site t).core.freeCtx ch = some c → ch < 32 →
      ch = 31 ∨ isTile t = false ∨ s'.admits t (x.entry ch) d = true →
      ∃ u : State, exec (.activationStart t) s = .next u ∧
        let y := u.ctxAt t c
        y.st = .running ∧ y.chan = hdrChan d.hdr ∧ y.pc = BitVec.ofNat 64 (entEntry (x.entry (hdrChan d.hdr))) ∧ y.sreg 1 = d.hdr ∧
        y.sreg 2 = BitVec.ofNat 64 d.addr ∧ y.sreg 3 = x.krn.wid ∧ y.sreg 4 = BitVec.ofNat 64 x.krn.argBase ∧
        y.sreg 30 = BitVec.ofNat 64 (x.krn.stkBase + (c.val + 1) * x.krn.stkSize) ∧
        (∀ r : Fin 32, 5 ≤ r.val → r ≠ 30 → y.sreg r = 0) ∧ (∀ r, y.vreg r = 0) ∧ (∀ r : Fin 8, r ≠ 0 → y.pval r = 0) ∧
        (∀ r : Fin 2, y.lp[r].active = false ∧ y.lp[r].lc = 0 ∧ y.lp[r].li = 0) ∧ (∀ r : Fin 4, y.k[r] = {} ∧ y.b[r] = {}) ∧
        y.flags = 0 ∧ y.mrow = 0xFFFF ∧ y.mcol = 0xFFFF ∧ y.outbox = [] ∧ y.wdog = 0 ∧
        (∀ c', c' ≠ c → u.ctxAt t c' = s.ctxAt t c')

/-- RETIRE in its three forms (R180, R181): the activation's messages are handed to the NI, its message is consumed, its count
of overflows is committed (R244), its loops are free and the context is EMPTY. On a PERSIST channel the overflows are counted before the
wait for the commit that captures this (R180), and the context ends when its word is written (R324), when its messages are free to go; that
a trap in that wait takes the overflows back is the model's reading (log 99). RETIRE.S nominates a successor or withdraws the nomination; a
refused one raises INHERIT. -/
def Obligations.Retirement : Prop :=
  ∀ (s : State) (i : Instr) (a : Fin 32),
    let h : BitVec 32 := (s.ctx.sreg a).extractLsb' 0 32
    let ch := chanFin s.ctx.chan
    let k := s.me.core
    i = .retire ∨ i = .retireWord ∨ (i = .retireS a ∧ (h = 0 ∨ s.refuses h = false)) → Ready i s →
    (s.ctx.persisted = none → ∃ t : State, exec i s = .next t ∧
      (∀ l : Fin 2, t.ctx.lp[l].active = false ∨ entPersist (s.me.entry s.ctx.chan) = true) ∧ t.ctx.outbox = [] ∧
      t.me.core.pend.map (·.msg) = k.pend.map (·.msg) ++ s.ctx.outbox ∧
      (∀ d ∈ t.me.core.chq[ch], d.runBy ≠ some s.cur.2.val) ∧
      (entPersist (s.me.entry s.ctx.chan) = false → t.ctx.st = .empty ∧
        t.me.core.mxovf = BitVec.ofNat 32 (min (2 ^ 32 - 1) (k.mxovf.toNat + s.ctx.heldOvf)) ∧
        ∀ m ∈ t.me.core.pend.drop k.pend.length, m.gate = none ∧ m.vc = entVc (s.me.entry s.ctx.chan)) ∧
      (entPersist (s.me.entry s.ctx.chan) = true → t.ctx.st = .stalled ∧ t.ctx.pc = s.ctx.pc ∧
        t.me.core.mxovf = BitVec.ofNat 32 (min (2 ^ 32 - 1) (k.mxovf.toNat + s.ctx.heldOvf)) ∧ t.ctx.heldOvf = 0 ∧
        (∀ tr, (t.raise tr).me.core.mxovf = k.mxovf) ∧ t.ctx.persisted = some s.me.ballast.nextSeq ∧ ∀ m ∈ t.me.core.pend.drop k.pend.length,
          m.gate = some s.me.ballast.nextSeq) ∧
      ∀ l la, i = .retireS a → s.me.krn.launch = some l → mapGet? s.launches l = some la →
        (mapGet? t.launches l).map (·.nominee) = some (if h = 0 then none else some h)) ∧
    (∀ n, s.ctx.persisted = some n →
      (n ≤ s.me.ballast.last → exec i s = .next s.endCtx ∧ s.endCtx.ctx = s.ctx.ended ∧ s.ctx.ended.st = .empty ∧
        s.endCtx.me.core.lastCtx = s.cur.2.val ∧
        s.endCtx.me.core.mxovf = BitVec.ofNat 32 (min (2 ^ 32 - 1) (k.mxovf.toNat + s.ctx.heldOvf)) ∧ s.endCtx.me.core.pend.map (·.msg) = k.pend.map (·.msg) ∧
        ∀ m ∈ s.endCtx.me.core.pend, m.ctx ≠ some s.cur.2.val) ∧
      (s.me.ballast.last < n → exec i s = .next s.stall)) ∧
    (h ≠ 0 → s.refuses h = true → s.ctx.persisted = none → Ready (.retireS a) s →
      Traps (.retireS a) s { cause := 0x11, w4 := h.setWidth 64 })

/-- Far loads and stores (R185 to R187): the request goes to the member that the window address names, at its offset; a load
leaves its context waiting for the answer, a store advances and is counted until it is acknowledged, its pc and flags kept for a
fault that its owner may find (R140, R142; log 38). Each of the six forms
completes in every state in which it is admitted and its address is in the group, the scratchpad and an ON tile. Addresses
outside the group, the scratchpad or an ON tile trap. Under a prefix SVF stores and checks the span of its enabled bytes, and
completes without a request where none is enabled. -/
def Obligations.FarAccesses : Prop :=
  ∀ (s : State) (d a : Fin 32) (imm : BitVec 13),
    let w := s.ctx.sreg a + imm.signExtend 64
    let m := fun (v : Word) => v.toNat / 2 ^ 19 % 2 ^ 13
    let off := fun (v : Word) => v.toNat % 2 ^ 19
    let inGroup := fun (v : Word) => v.toNat < 2 ^ 32 ∧ m v < (s.membersOf s.cur.1).length
    let isOn := fun (v : Word) => ((s.memberTile s.cur.1 (m v)).map s.isOff).getD false = false
    let fine := fun (v : Word) n => inGroup v ∧ off v + n ≤ 0x60000 ∧ isOn v
    let owner := fun (v : Word) => (s.memberTile s.cur.1 (m v)).getD 0
    let pkt := fun (v : Word) (op : FarOp) body =>
      let r : FarReq := { ni := true, op := op, addr := off v, site := s.cur.1, ctx := s.cur.2.val, id := s.ctx.reqid }
      ({ src := s.cur.1, dst := owner v, vc := 0, body := body, load := .far r } : Pkt)
    let asks := fun (i : Instr) n dest => Ready i s → fine w n →
      let t := s.toOwner (.load n) w 0 dest 4 false
      exec i s = .next t ∧ t.injected (pkt w (.load n) 0) ∧ t.waitsFor s.cur.1 s.cur.2 s.ctx.reqid dest ∧ t.ctx.pc = s.ctx.pc
    let posts := fun (i : Instr) v n (bs : List (Nat × Byte)) body => fine v n →
      let t := s.postFar (.store bs) v body 4
      exec i s = .next t ∧ t.injected (pkt v (.store bs) body) ∧
        ∃ c : Ctx, t.ctx = c.advance 4 ∧ (m v ∈ c.owners ∨ c.ownAll = true) ∧ c.owners ⊆ m v :: s.ctx.owners ∧
          { c with owners := [], ownAll := false } = { s.ctx with
            owners := [], ownAll := false, unacked := s.ctx.unacked ++ [(owner v, s.ctx.reqid)], reqid := s.ctx.reqid + 1,
            posts := s.ctx.posts ++ [(s.ctx.reqid, s.ctx.pc, s.ctx.flags)] }
    let checks := fun (i : Instr) v n =>
      (¬inGroup v → Traps i s { cause := 0x08, w3 := v, w4 := BitVec.ofNat 64 (m v) }) ∧
      (inGroup v → 0x60000 ≤ off v → Traps i s { cause := 0x04, w3 := v }) ∧
      (inGroup v → off v < 0x60000 → 0x60000 < off v + n → Traps i s { cause := 0x05, w3 := v }) ∧
      (inGroup v → off v + n ≤ 0x60000 → ¬isOn v → Traps i s { cause := 0x0F, w3 := v, w4 := BitVec.ofNat 64 (m v) })
    let bytes := fun n => (List.range n).map fun j => (j, (s.ctx.sreg d).extractLsb' (8 * j) 8)
    asks (.ldf32 d a imm) 4 (.s d) ∧ asks (.ldf64 d a imm) 8 (.s d) ∧ asks (.lvf d a imm) 32 (.v d (BitVec.allOnes 32)) ∧
    (Ready (.ldf32 d a imm) s → checks (.ldf32 d a imm) w 4) ∧ (Ready (.ldf64 d a imm) s → checks (.ldf64 d a imm) w 8) ∧
    (Ready (.lvf d a imm) s → checks (.lvf d a imm) w 32) ∧
    (Ready (.stf32 d a imm) s → posts (.stf32 d a imm) w 4 (bytes 4) 0 ∧ checks (.stf32 d a imm) w 4) ∧
    (Ready (.stf64 d a imm) s → posts (.stf64 d a imm) w 8 (bytes 8) 0 ∧ checks (.stf64 d a imm) w 8) ∧
    (Legal (.svf d a imm) s →
      let on := (List.range 32).filter s.ctx.enabled
      (on = [] → exec (.svf d a imm) s = .next (s.done 4 s.ctx)) ∧
      ∀ lo hi, on.head? = some lo → on.getLast? = some hi →
        let v := w + BitVec.ofNat 64 lo
        posts (.svf d a imm) v (hi - lo + 1) (on.map fun j => (j - lo, (s.ctx.vreg d).extractLsb' (8 * j) 8)) 1 ∧
        checks (.svf d a imm) v (hi - lo + 1))

/-- Atomics go to ca of their home (R188): the own ca, the owner's, or a halyard core, and the context waits; a misaligned
address, one beyond the local space, a window address outside the group, the scratchpad or an ON tile, and a global one beyond 2^54
trap; while a commit is requested the forms of all three spaces wait (R319). An aligned address never straddles. -/
def Obligations.AtomicRequests : Prop :=
  ∀ (s : State) (d a b : Fin 32) (w : Fin 2) (p : Fin 4) (i : Instr) (op : Nat),
    let x := s.ctx.sreg a
    let n := 4 * (w.val + 1)
    let o : FarOp := .atomic op (8 * n) (s.ctx.sreg b) (s.ctx.sreg d)
    let c := s.cur.2.val
    let id := s.ctx.reqid
    let g : GReq := { op := .atomic op (8 * n) (s.ctx.sreg b) (s.ctx.sreg d), va := x, pid := s.me.krn.pid, site := s.cur.1, ctx := c, id := id }
    (i = .aadd d a b w p ∧ op = 0) ∨ (i = .aand d a b w p ∧ op = 1) ∨ (i = .aor d a b w p ∧ op = 2) ∨
      (i = .axor d a b w p ∧ op = 3) ∨ (i = .amin d a b w p ∧ op = 4) ∨ (i = .amax d a b w p ∧ op = 5) ∨
      (i = .aminu d a b w p ∧ op = 6) ∨ (i = .amaxu d a b w p ∧ op = 7) ∨ (i = .aswap d a b w p ∧ op = 8) ∨
      (i = .acas d a b w p ∧ op = 9) →
    Ready i s →
    (x.toNat % n ≠ 0 → Traps i s { cause := 0x03, w3 := x }) ∧
    (p = 0 → 0x60000 ≤ x.toNat → x.toNat % n = 0 → Traps i s { cause := 0x04, w3 := x }) ∧
    (x.toNat % n = 0 → s.commitHolds = false →
      (p = 0 → x.toNat + n ≤ 0x60000 → ∃ t : State, exec i s = .next t ∧ t.waitsFor s.cur.1 s.cur.2 s.ctx.reqid (.s d) ∧
        t.me.core.caq = s.me.core.caq ++ [{ op := o, addr := x.toNat, site := s.cur.1, ctx := s.cur.2.val, id := s.ctx.reqid }]) ∧
      (p = 1 → s.wcheck s.cur.1 x n = none → exec i s = .next (s.toOwner o x 0 (.s d) 4 true)) ∧
      (p = 2 → x.toNat < 2 ^ 54 → ∃ t : State, exec i s = .next t ∧ t.waitsFor s.cur.1 s.cur.2 s.ctx.reqid (.s d) ∧
        t.injected { src := s.cur.1, dst := Config.tiles + vaCore x.toNat, vc := 0, body := 0, load := .global g })) ∧
    (x.toNat % n = 0 → s.commitHolds = true →
      (p = 0 ∧ x.toNat + n ≤ 0x60000) ∨ (p = 1 ∧ s.wcheck s.cur.1 x n = none) ∨ (p = 2 ∧ x.toNat < 2 ^ 54) → exec i s = .next s.stall) ∧
    (x.toNat % n = 0 → p = 1 →
      let m := x.toNat / 2 ^ 19 % 2 ^ 13
      let inGroup := x.toNat < 2 ^ 32 ∧ m < (s.membersOf s.cur.1).length
      let gated := ((s.memberTile s.cur.1 m).map s.isOff).getD false = true
      (¬inGroup → Traps i s { cause := 0x08, w3 := x, w4 := BitVec.ofNat 64 m }) ∧
      (inGroup → 0x60000 ≤ x.toNat % 2 ^ 19 → Traps i s { cause := 0x04, w3 := x }) ∧
      (inGroup → x.toNat % 2 ^ 19 < 0x60000 → gated → Traps i s { cause := 0x0F, w3 := x, w4 := BitVec.ofNat 64 m })) ∧
    (x.toNat % n = 0 → p = 2 → 2 ^ 54 ≤ x.toNat → Traps i s { cause := 0x07, w3 := x, w4 := s.me.krn.pid.setWidth 64 })

/-- The instructions on exact-sum words, rings and versioned words (R166, R189, R210 to R213) send their request to the own ca,
or to the owner of a window address; all but VRECL wait for the answer; misaligned exact-sum and versioned addresses, malformed versioned
ones, those beyond the local space and window addresses outside the group, the scratchpad or an ON tile trap, and an aligned one never
straddles. While a commit is requested all but XRD, VLD and VRECL wait (R319). -/
def Obligations.OwnerRequests : Prop :=
  ∀ (s : State) (d a b p : Fin 32) (f : Fin 2),
    let x := s.ctx.sreg a
    let c := s.cur.2.val
    let id := s.ctx.reqid
    let free := s.commitHolds = false
    let local' := fun (i : Instr) (op : FarOp) (at' : Nat) (dest : Dest) => Ready i s → ∃ t : State, exec i s = .next t ∧
      t.me.core.caq = s.me.core.caq ++ [{ op := op, addr := at', site := s.cur.1, ctx := c, id := id }] ∧
      t.waitsFor s.cur.1 s.cur.2 id dest ∧ t.ctx.pc = s.ctx.pc
    let inside := x.toNat % 64 = 0 ∧ x.toNat + 64 ≤ 0x60000
    (s.wcheck s.cur.1 x 64 = none → x.toNat % 64 = 0 → free → Gives (.xaddf a b f) s
      (s.toOwner (.xadd (f.val == 1) ((s.ctx.sreg b).extractLsb' 0 32)) x 0 .none 4 true)) ∧
    (inside → local' (.xrd d a f) (.xrd (f.val == 1)) x.toNat (.xrd d)) ∧
    (inside → free → local' (.xclr a) .xclr x.toNat .none) ∧
    (x.toNat % 64 ≠ 0 → (Ready (.xaddf a b f) s → Traps (.xaddf a b f) s { cause := 0x03, w3 := x }) ∧
      (Ready (.xrd d a f) s → Traps (.xrd d a f) s { cause := 0x03, w3 := x }) ∧
      (Ready (.xclr a) s → Traps (.xclr a) s { cause := 0x03, w3 := x })) ∧
    (free → local' (.rpush d p b) (.rpush (s.ctx.sreg d)) (s.ctx.sreg b).toNat (.ring 0 p false) ∧
      local' (.rpop d p b) .rpop (s.ctx.sreg b).toNat (.ring d p true)) ∧
    (∀ (at' : Word) (v : Nat), verAddr x = some (false, at', v) → at'.toNat % (8 * v) = 0 → at'.toNat + 8 * v ≤ 0x60000 →
      (free → local' (.vst d a b) (.vst ((s.ctx.sreg d).extractLsb' 0 16) ((s.ctx.sreg b).extractLsb' 0 32) v) at'.toNat .none) ∧
      local' (.vld d a b) (.vld ((s.ctx.sreg b).extractLsb' 0 16) v) at'.toNat (.s d) ∧
      (Ready (.vrecl a b) s → ∃ t : State, exec (.vrecl a b) s = .next t ∧ t.ctx.posted = s.ctx.posted + 1 ∧ t.ctx.st = .running ∧
        ∃ r : FarReq, t.me.core.caq = s.me.core.caq ++ [r] ∧ r.op = .vrecl ((s.ctx.sreg b).extractLsb' 0 16) v ∧
          r.addr = at'.toNat ∧ r.site = s.cur.1 ∧ r.ctx = c ∧ r.ni = false)) ∧
    (∀ (at' : Word) (v : Nat), verAddr x = some (true, at', v) → at'.toNat % (8 * v) = 0 → s.wcheck s.cur.1 at' (8 * v) = none →
      (free → Gives (.vst d a b) s
        (s.toOwner (.vst ((s.ctx.sreg d).extractLsb' 0 16) ((s.ctx.sreg b).extractLsb' 0 32) v) at' 0 .none 4 true)) ∧
      Gives (.vld d a b) s (s.toOwner (.vld ((s.ctx.sreg b).extractLsb' 0 16) v) at' 0 (.s d) 4 false) ∧
      Gives (.vrecl a b) s (s.postFar (.vrecl ((s.ctx.sreg b).extractLsb' 0 16) v) at' 0 4)) ∧
    (let waits := fun (i : Instr) => Ready i s → exec i s = .next s.stall
     s.commitHolds = true →
      waits (.rpush d p b) ∧ waits (.rpop d p b) ∧ (inside → waits (.xclr a)) ∧
      (x.toNat % 64 = 0 → s.wcheck s.cur.1 x 64 = none → waits (.xaddf a b f)) ∧
      ∀ (win : Bool) (at' : Word) (v : Nat), verAddr x = some (win, at', v) → at'.toNat % (8 * v) = 0 →
        (win = false → at'.toNat + 8 * v ≤ 0x60000 → waits (.vst d a b)) ∧
        (win = true → s.wcheck s.cur.1 at' (8 * v) = none → waits (.vst d a b))) ∧
    (let m := fun (w : Word) => w.toNat / 2 ^ 19 % 2 ^ 13
     let inGroup := fun (w : Word) => w.toNat < 2 ^ 32 ∧ m w < (s.membersOf s.cur.1).length
     let checks := fun (i : Instr) (win : Bool) (w : Word) => Ready i s →
      (win = false → 0x60000 ≤ w.toNat → Traps i s { cause := 0x04, w3 := w }) ∧
      (win = true →
        (¬inGroup w → Traps i s { cause := 0x08, w3 := w, w4 := BitVec.ofNat 64 (m w) }) ∧
        (inGroup w → 0x60000 ≤ w.toNat % 2 ^ 19 → Traps i s { cause := 0x04, w3 := w }) ∧
        (inGroup w → w.toNat % 2 ^ 19 < 0x60000 → ((s.memberTile s.cur.1 (m w)).map s.isOff).getD false = true →
          Traps i s { cause := 0x0F, w3 := w, w4 := BitVec.ofNat 64 (m w) }))
     (x.toNat % 64 = 0 → checks (.xaddf a b f) true x ∧ checks (.xrd d a f) false x ∧ checks (.xclr a) false x) ∧
     ∀ (win : Bool) (at' : Word) (v : Nat) (i : Instr), verAddr x = some (win, at', v) →
      i = .vst d a b ∨ i = .vld d a b ∨ i = .vrecl a b →
      (at'.toNat % (8 * v) = 0 → checks i win at') ∧
      (at'.toNat % (8 * v) ≠ 0 → (win = true → m at' < (s.membersOf s.cur.1).length) → Ready i s →
        Traps i s { cause := 0x03, w3 := at' })) ∧
    (verAddr x = none → (Ready (.vst d a b) s → Traps (.vst d a b) s { cause := 0x08, w3 := x }) ∧
      (Ready (.vld d a b) s → Traps (.vld d a b) s { cause := 0x08, w3 := x }) ∧
      (Ready (.vrecl a b) s → Traps (.vrecl a b) s { cause := 0x08, w3 := x }))

/-- ca performs its oldest operation (R41, R188, R189, R211 to R213, R368) and the requester goes on: an atomic gives the old value and
stores the new one; XADDF, XRD and XCLR act on the exact-sum word (R113, R114), RPUSH and RPOP on the ring (R166); a versioned store fills
an empty slot or traps VFULL; a load of the version held gives its value, one that finds a newer one traps VGONE, one of a version not yet
there parks; a versioned store answers the loads that are parked for it, and a reclaim those whose version is not newer (R212); what came
through the NI is answered by packet. The NI serves far loads and stores itself (R301); a response completes the instruction that waits
for it (R138, R186). That an acknowledgement which carries a trap traps its context, with the record of the request that was refused (logs
22 and 38), unless its number is below that of the running activation's first request (log 39) or the activation's commit word is written,
is the model's choice. -/
def Obligations.OwnerService : Prop :=
  ∀ (s : State) (t : Nat) (c : Fin 4) (id : Nat) (d : Fin 32), Live s t →
    let x := s.site t
    let y := s.ctxAt t c
    let awaits := fun (dest : Dest) => y.st = .stalled ∧ id ∉ y.lost ∧ ∃ o, y.wait = .resp id dest 4 o
    let waiting := awaits (.s d)
    let req := fun (op : FarOp) (a : Nat) => ({ op := op, addr := a, site := t, ctx := c.val, id := id } : FarReq)
    let asks := fun (op : FarOp) (a : Nat) (rest : List FarReq) (dest : Dest) =>
      x.core.caq = req op a :: rest ∧ x.bad = [] ∧ awaits dest
    let runs := fun (u : State) (rest : List FarReq) => exec (.caOperation t) s = .next u ∧ (u.site t).core.caq = rest
    let quiet := fun (u : State) => ∀ w b, u.byteAt w b = s.byteAt w b
    let traps := fun (tr : Trap) => ∃ v : State, exec (.caOperation t) s = .next (v.trapAt t c tr) ∧ v.ctxAt t c = { y with wait := .none } ∧
      v.cycle = s.cycle ∧ quiet v
    (∀ (op w : Nat) (v cmp : Word) (a : Nat) (rest : List FarReq), op < 10 → w = 32 ∨ w = 64 → asks (.atomic op w v cmp) a rest (.s d) →
      let old := memRead x.mem a (w / 8)
      let new := atomicNew op w old (v.toNat % 2 ^ w) (cmp.toNat % 2 ^ w)
      ∃ u : State, runs u rest ∧ s.storesOnly u t a (w / 8) ∧ memRead (u.site t).mem a (w / 8) = new ∧
        u.ctxAt t c = (y.setS d (BitVec.ofNat 64 old)).advance 4) ∧
    (∀ op : Nat, ∀ w a b z : Nat, 0 < w → a < 2 ^ w → b < 2 ^ w → z < 2 ^ w → atomicNew op w a b z < 2 ^ w ∧
      BitVec.ofNat w (atomicNew 0 w a b z) = BitVec.ofNat w a + BitVec.ofNat w b ∧
      BitVec.ofNat w (atomicNew 1 w a b z) = BitVec.ofNat w a &&& BitVec.ofNat w b ∧
      BitVec.ofNat w (atomicNew 2 w a b z) = BitVec.ofNat w a ||| BitVec.ofNat w b ∧
      BitVec.ofNat w (atomicNew 3 w a b z) = BitVec.ofNat w a ^^^ BitVec.ofNat w b ∧
      (atomicNew 4 w a b z = if (BitVec.ofNat w b).slt (BitVec.ofNat w a) then b else a) ∧
      (atomicNew 5 w a b z = if (BitVec.ofNat w a).slt (BitVec.ofNat w b) then b else a) ∧
      atomicNew 6 w a b z = min a b ∧ atomicNew 7 w a b z = max a b ∧ atomicNew 8 w a b z = b ∧
      atomicNew 9 w a b z = if a = z then b else a) ∧
    (∀ (r : FarReq) (p : Pkt) (op w : Nat) (v cmp : Word) (rest : List FarReq) (more : List Pkt), x.core.caq = r :: rest → x.svc = p :: more →
      r.ni = true → r.op = .atomic op w v cmp → x.bad = [] → ∃ u : State, runs u rest ∧ (u.site t).svc = more ∧
        u.injected { src := t, dst := r.site, vc := 1, body := 0,
                     load := .resp r.ctx r.id { val := BitVec.ofNat 256 (memRead x.mem r.addr (w / 8)) } }) ∧
    (∀ (bf : Bool) (v : BitVec 32) (a : Nat) (rest : List FarReq), asks (.xadd bf v) a rest .none →
      let p := if bf then 8 else 24
      let old := memRead x.mem a 64
      ∃ u : State, runs u rest ∧ s.storesOnly u t a 64 ∧ u.ctxAt t c = y.advance 4 ∧
        let new := memRead (u.site t).mem a 64
        bits new 507 5 = 0 ∧ match unpack p (v.toNat % 2 ^ (p + 8)) with
          | .fin neg m e => bits new 504 3 = bits old 504 3 ∧ (bits new 0 504 : Int) =
              ((bits old 0 504 : Int) + (if neg then -1 else 1) * ((m * 2 ^ (e + 160).toNat : Nat) : Int)) % 2 ^ 504
          | .zero _ => new = bits old 0 507
          | .nan _ => bits new 0 504 = bits old 0 504 ∧ bits new 504 3 = bits old 504 3 ||| 1
          | .inf neg => bits new 0 504 = bits old 0 504 ∧ bits new 504 3 = bits old 504 3 ||| if neg then 4 else 2) ∧
    (∀ (bf : Bool) (a : Nat) (rest : List FarReq), asks (.xrd bf) a rest (.xrd d) →
      let p := if bf then 8 else 24
      let old := memRead x.mem a 64
      let v := (BitVec.ofNat 504 old).toInt
      ∃ u : State, runs u rest ∧ quiet u ∧ ∃ (z : Nat) (f : BitVec 5), u.ctxAt t c = ((y.setS d (BitVec.ofNat 64 z)).orFlags f).advance 4 ∧
        (bit old 504 = true ∨ bit old 505 = true ∧ bit old 506 = true → z = 255 * 2 ^ (p - 1) + 2 ^ (p - 2) ∧ f = 16) ∧
        (bit old 504 = false → bit old 505 = true → bit old 506 = false → z = 255 * 2 ^ (p - 1) ∧ f = 0) ∧
        (bit old 504 = false → bit old 505 = false → bit old 506 = true → z = 2 ^ (p + 7) + 255 * 2 ^ (p - 1) ∧ f = 0) ∧
        (bits old 504 3 = 0 → (v = 0 → z = 0 ∧ f = 0) ∧ (v ≠ 0 → (z, f) = pack p .rne (.fin (decide (v < 0)) v.natAbs (-160))))) ∧
    (∀ (a : Nat) (rest : List FarReq), asks .xclr a rest .none → ∃ u : State, runs u rest ∧ s.storesOnly u t a 64 ∧
      memRead (u.site t).mem a 64 = 0 ∧ u.ctxAt t c = y.advance 4) ∧
    (∀ (v : Word) (q : Fin 32) (pop : Bool) (a : Nat) (rest : List FarReq),
      asks (if pop then .rpop else .rpush v) a rest (.ring d q pop) → a < 2 ^ 64 →
      let base := memRead x.mem a 4
      let size := memRead x.mem (a + 4) 4
      let head := memRead x.mem (a + 8) 4
      let tail := memRead x.mem (a + 12) 4
      let n := 2 ^ size
      let w := BitVec.ofNat 64 a
      let v32 := BitVec.ofNat 64 base
      let block := a % 16 = 0 ∧ a < 0x60000
      let ring := 0 < size ∧ size ≤ 13 ∧ base % 8 = 0 ∧ base + 8 * n ≤ 0x60000
      (a % 16 ≠ 0 → traps { cause := 0x03, w3 := w }) ∧
      (a % 16 = 0 → 0x60000 ≤ a → traps { cause := 0x04, w3 := w }) ∧
      (block → size = 0 ∨ 13 < size → traps { cause := 0x04, w3 := w }) ∧
      (block → 0 < size → size ≤ 13 → (base % 8 ≠ 0 → traps { cause := 0x03, w3 := v32 }) ∧
        (base % 8 = 0 → 0x60000 ≤ base → traps { cause := 0x04, w3 := v32 }) ∧
        (base % 8 = 0 → base < 0x60000 → 0x60000 < base + 8 * n → traps { cause := 0x05, w3 := v32 })) ∧
      (block → ring → (if pop then tail = head else (tail + 2 ^ 32 - head) % 2 ^ 32 = n) →
        ∃ u : State, runs u rest ∧ quiet u ∧ u.ctxAt t c = (y.setP q 0).advance 4) ∧
      (block → ring → pop = false → (tail + 2 ^ 32 - head) % 2 ^ 32 ≠ n →
        let e := base + 8 * (tail % n)
        ∃ u : State, runs u rest ∧ u.ctxAt t c = (y.setP q 0xFFFFFFFF).advance 4 ∧
          memRead (u.site t).mem (a + 12) 4 = (tail + 1) % 2 ^ 32 ∧ (e + 8 ≤ a + 12 ∨ a + 16 ≤ e → memRead (u.site t).mem e 8 = v.toNat) ∧
          ∀ w b, w ≠ t ∨ (b < a + 12 ∨ a + 16 ≤ b) ∧ (b < e ∨ e + 8 ≤ b) → u.byteAt w b = s.byteAt w b) ∧
      (block → ring → pop = true → tail ≠ head →
        ∃ u : State, runs u rest ∧ s.storesOnly u t (a + 8) 4 ∧ memRead (u.site t).mem (a + 8) 4 = (head + 1) % 2 ^ 32 ∧
          u.ctxAt t c = ((y.setS d (BitVec.ofNat 64 (memRead x.mem (base + 8 * (head % n)) 8))).setP q 0xFFFFFFFF).advance 4)) ∧
    (∀ (n : BitVec 16) (v : BitVec 32) (k a : Nat) (rest : List FarReq), asks (.vst n v k) a rest .none → (∀ p ∈ x.core.parked, p.ni = true) →
      let slot := a + 8 * (n.toNat % k)
      let m := slotOf (memRead x.mem slot 8)
      let hit := fun (p : FarReq) => p.addr = a ∧ ∃ k', p.op = .vld n k'
      (m.2.1 = false ∨ m.2.2.1 = n → ∃ u : State, runs u rest ∧ s.storesOnly u t slot 8 ∧
        slotOf (memRead (u.site t).mem slot 8) = (false, true, n, v) ∧ u.ctxAt t c = y.advance 4 ∧
        (∀ p, p ∈ (u.site t).core.parked ↔ p ∈ x.core.parked ∧ ¬hit p) ∧
        ∀ p ∈ x.core.parked, hit p →
          u.sends { src := t, dst := p.site, vc := 1, body := 0, load := .resp p.ctx p.id { val := v.setWidth 256 } }) ∧
      (m.2.1 = true → m.2.2.1 ≠ n →
        traps { cause := 0x0A, w3 := BitVec.ofNat 64 a, w4 := n.setWidth 64, w5 := m.2.2.1.setWidth 64 })) ∧
    (∀ (n : BitVec 16) (k a : Nat) (rest : List FarReq), asks (.vld n k) a rest (.s d) →
      let m := slotOf (memRead x.mem (a + 8 * (n.toNat % k)) 8)
      let gone := traps { cause := 0x0B, w3 := BitVec.ofNat 64 a, w4 := n.setWidth 64, w5 := m.2.2.1.setWidth 64 }
      let waits := m.2.1 = false ∧ m.1 = false ∨ newer n m.2.2.1 = true ∧ newer m.2.2.1 n = false
      (m.2.1 = true → m.2.2.1 = n → ∃ u : State, runs u rest ∧ quiet u ∧ u.ctxAt t c = (y.setS d (m.2.2.2.zeroExtend 64)).advance 4) ∧
      (m.2.1 = true ∨ m.1 = true → newer m.2.2.1 n = true → gone) ∧ (m.2.1 = false → m.1 = true → m.2.2.1 = n → gone) ∧
      (waits → x.core.parked.length < 64 → ∃ u : State, runs u rest ∧ quiet u ∧
        (u.site t).core.parked = x.core.parked ++ [req (.vld n k) a] ∧ u.ctxAt t c = y) ∧
      (waits → 64 ≤ x.core.parked.length → ∃ u : State, runs u rest ∧ quiet u ∧
        (u.site t).core.parked = x.core.parked ∧ u.ctxAt t c = { y with wait := .retry s.cycle })) ∧
    (∀ (n : BitVec 16) (k a : Nat) (rest : List FarReq), x.core.caq = req (.vrecl n k) a :: rest → x.bad = [] → (∀ p ∈ x.core.parked, p.ni = true) →
      let slot := a + 8 * (n.toNat % k)
      let m := slotOf (memRead x.mem slot 8)
      let hit := fun (p : FarReq) (n' : BitVec 16) (k' : Nat) => p.addr = a ∧ p.op = .vld n' k' ∧ newer n' n = false
      ∃ u : State, runs u rest ∧ u.ctxAt t c = { y with posted := y.posted - 1, posts := y.posts.filter (·.1 != id) } ∧
        (m.2.1 = true → newer m.2.2.1 n = false → s.storesOnly u t slot 8 ∧
          slotOf (memRead (u.site t).mem slot 8) = (true, false, m.2.2.1, m.2.2.2)) ∧
        (m.2.1 = false ∨ newer m.2.2.1 n = true → quiet u) ∧
        (∀ p, p ∈ (u.site t).core.parked ↔ p ∈ x.core.parked ∧ ¬∃ n' k', hit p n' k') ∧
        ∀ p ∈ x.core.parked, ∀ n' k', hit p n' k' →
          let tag := (slotOf (memRead (u.site t).mem (a + 8 * (n'.toNat % k')) 8)).2.2.1
          let at' := winAddr (BitVec.ofNat 64 x.krn.member) (BitVec.ofNat 64 a)
          let tr : Trap := { cause := 0x0B, w3 := at', w4 := n'.setWidth 64, w5 := tag.setWidth 64 }
          u.sends { src := t, dst := p.site, vc := 1, body := 0, load := .resp p.ctx p.id { trap := some tr } }) ∧
    (∀ (p : Pkt) (rest : List Pkt) (r : FarReq) (n : Nat), x.svc = p :: rest → p.load = .far r → r.ni = true → r.op = .load n → x.bad = [] →
      let body := if n = 32 then 1 else 0
      let value := BitVec.ofNat 256 (memRead x.mem r.addr n)
      ∃ u : State, exec (.farRequestService t) s = .next u ∧ (u.site t).svc = rest ∧
        u.injected { src := t, dst := r.site, vc := 1, body := body, load := .resp r.ctx r.id { val := value } }) ∧
    (∀ (p : Pkt) (rest : List Pkt) (r : FarReq) (n z : Nat), x.svc = p :: rest → p.load = .far r → r.ni = true → r.op = .store (offsets (leBytes n z)) → n ≤ 32 →
      ∃ u : State, exec (.farRequestService t) s = .next u ∧ (u.site t).svc = rest ∧ s.storesOnly u t r.addr n ∧
        memBytes (u.site t).mem r.addr n = leBytes n z ∧
        u.injected { src := t, dst := r.site, vc := 1, body := 0, load := .ack r.ctx t r.id none }) ∧
    (∀ (p : Pkt) (rest : List Pkt) (r : Resp), x.halted = false → x.rxResp = p :: rest → p.load = .resp c.val id r → r.trap = none → r.again = false → waiting →
      ∃ u : State, exec (.farResponseArrival t) s = .next u ∧ (u.site t).rxResp = rest ∧
        (r.release = false → u.ctxAt t c = (y.setS d (r.val.extractLsb' 0 64)).advance 4)) ∧
    (∀ (p : Pkt) (rest : List Pkt) (r : Resp), x.halted = false → x.rxResp = p :: rest → p.load = .resp c.val id r → r.release = false → id ∈ y.lost →
      ∃ u : State, exec (.farResponseArrival t) s = .next u ∧ (u.site t).rxResp = rest ∧ u.ctxAt t c = { y with lost := y.lost.filter (· != id) }) ∧
    (∀ (p : Pkt) (rest : List Pkt) (o num : Nat) (tr : Option Trap), x.halted = false → x.rxResp = p :: rest → p.load = .ack c.val o num tr →
      ∃ u : State, exec (.farResponseArrival t) s = .next u ∧
        ((o, num) ∉ y.unacked → (u.site t).rxResp = rest ∧ u.ctxAt t c = y) ∧
        ((o, num) ∈ y.unacked → tr = none ∨ num < y.reqBase ∨ y.retired x.ballast = true → (u.site t).rxResp = rest ∧
          u.ctxAt t c = { y with unacked := y.unacked.filter (· != (o, num)), posts := y.posts.filter (·.1 != num) }) ∧
        (tr.isSome = true → (o, num) ∈ y.unacked → y.reqBase ≤ num → y.retired x.ballast = false →
          y.st = .running ∨ y.st = .stalled ∨ y.st = .dormant → (u.ctxAt t c).st = .trapped ∧
          ∀ (pc : Word) (f : BitVec 5), y.posts.find? (·.1 == num) = some (num, pc, f) → ∃ r : Rec, (u.ctxAt t c).trap = some r ∧
            r[1]? = some pc ∧ r[6]? = some (BitVec.ofNat 64 (x.rawPair pc.toNat)) ∧ (u.ctxAt t c).flags = f)) ∧
    (∀ (since : Nat) (e a b : Fin 32), y.st = .stalled → y.wait = .retry since → s.pending t c = some (.vld e a b) →
      (since + 64 ≤ s.cycle → exec (.vldResend t c.val) s =
        .next (s.setCtxAt t c { y with st := .running, wait := .none, pfx := none })) ∧
      (s.cycle < since + 64 → exec (.vldResend t c.val) s = .next s))

/-- Copies and folds (R190 to R195): CPY queues a command of at most 16 MiB, or waits for room or for a posted reclaim; the pieces cover
it, and no read of a source that is not local and no write packet crosses a 256-byte line (R292, R302; the cut of a local source is the
model's choice, log 23). What is read of or written to the tile's own scratchpad moves beat by beat (R302, R303), and so does a copy
packet at its home (R301). The completion names the bytes copied; CPYPOP takes the context's oldest completion, where an uncorrectable
entry raises ECC with word 3 zero (R333; that it is checked before any effect, log 61). FOLD queues a command; the engine opens the slot
where OPEN says so, adds the arrival but for NOARR, and a closing command leaves the result in FR with a completion once q7 has room; an
arrival is added as R115 (FIXED) and R117 (RUNNING) say, or as the maximum. -/
def Obligations.CopiesAndFolds : Prop :=
  ∀ (s : State) (d a b : Fin 32) (v : Fin 4) (t : Nat),
    let n := (s.ctx.sreg d).toNat
    let k := s.me.core
    let fine := fun (x : Word) => (∃ z, copySpace x = .scratch z ∧ z.toNat + n ≤ 0x60000) ∨
      (∃ z, copySpace x = .window z ∧ s.wcheck s.cur.1 z n = none) ∨ ∃ z, copySpace x = .global z
    let i := Instr.cpy d a b v
    (Ready i s → (n = 0 ∨ 2 ^ 24 < n → Traps i s { cause := 0x04, w4 := s.ctx.sreg d }) ∧
      (0 < n → n ≤ 2 ^ 24 → copySpace (s.ctx.sreg a) = .bad → Traps i s { cause := 0x08, w3 := s.ctx.sreg a }) ∧
      (0 < n → n ≤ 2 ^ 24 → fine (s.ctx.sreg a) → fine (s.ctx.sreg b) →
        (s.ctx.posted ≠ 0 ∨ 8 ≤ k.copyq.length → exec i s = .next s.stall) ∧
        (s.ctx.posted = 0 → k.copyq.length < 8 → ∃ u : State, exec i s = .next u ∧ u.ctx = { s.ctx with cpycount := s.ctx.cpycount + 1 }.advance 4 ∧
          ∃ c : CpCmd, u.me.core.copyq = k.copyq ++ [c] ∧ c.len = n ∧ c.src = s.ctx.sreg a ∧ c.dst = s.ctx.sreg b ∧ c.vc = v.val ∧
            c.ctx = s.cur.2.val ∧ c.tag = s.ctx.cpycount))) ∧
    (∀ (x y : Word) (m : Nat), x.toNat + m < 2 ^ 64 → y.toNat + m < 2 ^ 64 →
      ((cutPieces x y m m).map (·.len)).sum = m ∧ ∀ p ∈ cutPieces x y m m, 0 < p.len ∧
        (if isScratch p.src then p.dst else p.src).toNat % 256 + p.len ≤ 256 ∧
        (p.writes.map (·.2)).sum = p.len ∧ ∀ z ∈ p.writes, (p.dst.toNat + z.1) % 256 + z.2 ≤ 256) ∧
    (∀ (c : CpCmd) (rest : List CpCmd), Live s t → (s.site t).core.copies = [] → (s.site t).core.copyq = c :: rest →
      ∃ u : State, exec (.copyCommandStart t) s = .next u ∧ (u.site t).core.copyq = rest ∧
        (u.site t).core.copies = [{ c with num := (s.site t).core.copyNum, pieces := cutPieces c.src c.dst c.len c.len }]) ∧
    (∀ (c : CpCmd) (rest : List CpCmd), Live s t → (s.site t).core.copies = c :: rest → c.finished = true → c.ctx < 4 → (s.site t).core.q7.items.length < 16 →
      ∃ (u : State) (e : Word), exec (.copyCompletion t) s = .next u ∧ (u.site t).core.copies = rest ∧
        (u.site t).core.q7.items = (s.site t).core.q7.items ++ [e] ∧ bits e.toNat 60 4 = 1 ∧ bits e.toNat 58 2 = c.ctx ∧
        bits e.toNat 48 8 = c.cause.toNat ∧ bits e.toNat 32 16 = c.tag.toNat ∧
        bits e.toNat 0 32 = (c.pieces.map (·.good)).sum % 2 ^ 32) ∧
    (∀ (c : CpCmd) (v : State), Live s t → (s.site t).core.copies = [c] → c.sent = false → s.copyNext t c = some v →
      exec (.copyCommandStart t) s = .next v) ∧
    (∀ (c : CpCmd) (j : Nat) (q : Piece) (z : Word), (s.site t).bad = [] → copySpace q.src = .scratch z →
      let m := min 32 (q.len - q.data.length)
      s.copyRead t c j q = s.modCopy t c.num fun y => y.setPiece j
        { q with st := if q.len ≤ q.data.length + m then .ready else .reading,
                 data := q.data ++ memBytes (s.site t).mem (z.toNat + q.data.length) m }) ∧
    (∀ (c : CpCmd) (j : Nat) (q : Piece) (z : Word), q.data ≠ [] → q.good + q.data.length = q.len → copySpace q.dst = .scratch z →
      let v := s.copyWrite t c j q
      s.storesOnly v t (z.toNat + q.good) (min 32 q.data.length) ∧
        memBytes (v.site t).mem (z.toNat + q.good) (min 32 q.data.length) = q.data.take 32 ∧
        v = ({ s with sites := v.sites } : State) ∧
        (v.site t).core.copies = (s.site t).core.copies.map fun y => if y.num = c.num then
          y.setPiece j { q with st := if q.data.length ≤ 32 then .acked else q.st, data := q.data.drop 32,
                                good := q.good + min 32 q.data.length } else y) ∧
    (∀ (p : Pkt) (rest : List Pkt) (u cmd piece a m : Nat) (got : List Byte), Live s t → (s.site t).svc = p :: rest → (s.site t).bad = [] →
      p.load = .cpRead u cmd piece a m got → got.length < m →
      let all := got ++ memBytes (s.site t).mem (a + got.length) (min 32 (m - got.length))
      ∃ v : State, exec (.farRequestService t) s = .next v ∧ (∀ w b, v.byteAt w b = s.byteAt w b) ∧
        (32 < m - got.length → (v.site t).svc = { p with load := .cpRead u cmd piece a m all } :: rest) ∧
        (m - got.length ≤ 32 → (v.site t).svc = rest ∧
          v.injected { src := t, dst := u, vc := p.vc, body := (m + 31) / 32, load := .cpReply cmd piece all 0 })) ∧
    (∀ (p : Pkt) (rest : List Pkt) (num piece : Nat) (bs : List Byte) (cause : BitVec 8), Live s t → (s.site t).rxResp = p :: rest →
      p.load = .cpReply num piece bs cause →
      let left : List Pkt := if bs.length ≤ 32 then [] else [{ p with load := .cpReply num piece (bs.drop 32) cause }]
      exec (.farResponseArrival t) s =
        .next ((s.modSite t fun x => { x with rxResp := left ++ rest }).copyReply t num piece (bs.take 32) cause)) ∧
    (let mine := fun (e : Word) => (e.extractLsb' 58 2).toNat == s.cur.2.val
     (k.q7.items.any mine = false → Gives (.cpypop d) s (s.finish 4 fun c => c.setS d 0)) ∧
     ∀ (l : List Word) (e : Word) (r : List Word), k.q7.items = l ++ e :: r → l.any mine = false → mine e = true →
       (k.badQ = [] → Gives (.cpypop d) s ((s.modCore s.cur.1 fun k =>
         { k with q7 := { k.q7 with items := l ++ r, pops := k.q7.pops + 1 } }).finish 4 fun c => c.setS d e)) ∧
       ((7, k.q7.pops + l.length) ∈ k.badQ → Ready (.cpypop d) s →
         ∃ tr : Trap, Traps (.cpypop d) s tr ∧ tr.cause = 0x09 ∧ tr.w3 = 0)) ∧
    (let x := s.ctx.sreg d
     let slot : Fin 4 := Machine.fin4 (x.toNat / 2 ^ 16)
     let op := x.toNat / 2 ^ 18 % 4
     let cmd : FoldCmd := { desc := x, m := s.ctx.sreg a, e := (s.ctx.sreg b).extractLsb' 0 16, ctx := s.cur.2.val }
     let seen := if x.getLsbD 21 then none else some op
     (op < 3 → x.getLsbD 20 = true ∨ k.foldSeen[slot] = some op →
       (8 ≤ k.foldq.length → Gives (.fold d a b) s s.stall) ∧
       (k.foldq.length < 8 → Gives (.fold d a b) s ((s.modCore s.cur.1 fun k =>
         { k with foldSeen := k.foldSeen.set slot seen, foldq := k.foldq ++ [cmd] }).finish 4 id))) ∧
     (op = 3 ∨ x.getLsbD 20 = false ∧ k.foldSeen[slot] ≠ some op → Ready (.fold d a b) s → Traps (.fold d a b) s { cause := 0x01 })) ∧
    (∀ (c : FoldCmd) (rest : List FoldCmd) (f : FoldSlot) (i slot : Fin 4), Live s t → (s.site t).core.foldq = c :: rest → c.ctx = i.val →
      slot.val = bits c.desc.toNat 16 2 →
      let op := bits c.desc.toNat 18 2
      let empty : FoldSlot := { mode := op, exp := if op = 0 then (c.desc.extractLsb' 0 16).toInt else 0,
                                acc := if op = 2 then BitVec.ofInt 128 (-32768) else 0, sat := false, had := false }
      (bit c.desc.toNat 20 = true ∧ f = empty ∨ bit c.desc.toNat 20 = false ∧ (s.site t).core.folds[slot] = some f) →
      let g := if bit c.desc.toNat 22 then f else f.add c.m.toInt c.e.toInt
      (bit c.desc.toNat 21 = false → exec (.foldPerform t) s = .next (s.modCore t fun k =>
        { k with foldq := rest, folds := k.folds.set slot (some g) })) ∧
      (bit c.desc.toNat 21 = true → 16 ≤ (s.site t).core.q7.items.length → exec (.foldPerform t) s = .next s) ∧
      (bit c.desc.toNat 21 = true → (s.site t).core.q7.items.length < 16 → ∃ u : State, exec (.foldPerform t) s = .next u ∧
        (u.ctxAt t i).fr = g.acc ∧ (u.site t).core.foldq = rest ∧ (u.site t).core.folds[slot] = none ∧
        ∃ e, (u.site t).core.q7.items = (s.site t).core.q7.items ++ [e] ∧ bits e.toNat 60 4 = 2 ∧ bits e.toNat 58 2 = i.val ∧
          bit e.toNat 57 = g.sat ∧ e.extractLsb' 32 16 = BitVec.ofInt 16 (if g.mode = 2 then 0 else g.exp) ∧ bits e.toNat 0 32 = slot.val)) ∧
    (∀ (f : FoldSlot) (m : Word) (e : BitVec 16),
      let g := f.add m.toInt e.toInt
      let x := e.toInt - f.exp
      let z := m.toInt * 2 ^ x.toNat
      let plus := fun (z : Int) => f.acc + BitVec.ofInt 128 z
      g.mode = f.mode ∧ g.had = true ∧
      (f.mode = 0 → g.exp = f.exp ∧ (x ≤ 0 → g.sat = f.sat ∧ g.acc = plus (m.toInt / 2 ^ (-x).toNat)) ∧
        (0 < x → -2 ^ 127 ≤ z → z < 2 ^ 127 → g.sat = f.sat ∧ g.acc = plus z) ∧
        (0 < x → 2 ^ 127 ≤ z → g.sat = true ∧ g.acc = plus (2 ^ 127 - 1)) ∧ (0 < x → z < -2 ^ 127 → g.sat = true ∧ g.acc = plus (-2 ^ 127))) ∧
      (f.mode = 1 → g.sat = f.sat ∧ (f.had = false → g.exp = e.toInt ∧ g.acc = BitVec.ofInt 128 m.toInt) ∧
        (f.had = true → 0 < x → g.exp = e.toInt ∧ g.acc = BitVec.ofInt 128 (f.acc.toInt / 2 ^ x.toNat + m.toInt)) ∧
        (f.had = true → x ≤ 0 → g.exp = f.exp ∧ g.acc = plus (m.toInt / 2 ^ (-x).toNat))) ∧
      (f.mode = 2 → g.acc.toInt = max f.acc.toInt e.toInt))

/-- The halyard extension (R261, R263 to R265): a global load goes to the core that owns the address and waits; a store goes there too
and is counted until acknowledged, and its context goes on when the station has checked it (that it waits for this check is the model's
choice, log 22); a prefixed LGV reads all 32 bytes and writes the enabled ones (log 17); PUSHT reads its beats at their owners, then
sends them to its target, and waits for both; SEAL and UNSEAL check the whole range before any change (the first address that is not
mapped traps, as does a page that leaves the range) and wait; TLBI.H drops the translations that it names, ends the move of their pages
(R259), and completes when every request that was in service under them has been performed. A global address outside the space or across a
chunk traps, as do a misaligned PUSHT, one whose target word, scratchpad address or gate does not admit it, one all of whose beats are
outside, a misaligned, empty or too long seal range, and TLBI.H outside the helm. -/
def Obligations.GlobalRequests : Prop :=
  ∀ (s : State) (d a b n : Fin 32),
    let x := s.ctx.sreg a
    let y := s.ctx.sreg b
    let pid := s.me.krn.pid
    let id := s.ctx.reqid
    let waits := fun (t : State) (dest : Dest) => t.waitsFor s.cur.1 s.cur.2 id dest ∧ t.ctx.pc = s.ctx.pc
    let pkt := fun (op : GOp) (id body : Nat) =>
      ({ src := s.cur.1, dst := Config.tiles + vaCore x.toNat, vc := 0, body := body,
         load := .global { op := op, va := x, pid := pid, site := s.cur.1, ctx := s.cur.2.val, id := id } } : Pkt)
    let near := fun (len : Nat) => x.toNat < 2 ^ 54 ∧ x.toNat % 2048 + len ≤ 2048
    let counted := fun (t : State) => waits t .none ∧ t.ctx.unacked = s.ctx.unacked ++ [(Config.tiles + vaCore x.toNat, id)] ∧
      t.ctx.reqid = id + 1 ∧ t.ctx.slices = s.ctx.slices ||| BitVec.ofNat 64 (2 ^ (vaCore x.toNat % 64))
    let global := fun (i : Instr) (n : Nat) =>
      (2 ^ 54 ≤ x.toNat → Traps i s { cause := 0x07, w3 := x, w4 := pid.setWidth 64 }) ∧
      (x.toNat < 2 ^ 54 → 2048 < x.toNat % 2048 + n → Traps i s { cause := 0x05, w3 := x })
    (near 8 → Ready (.lgd d a) s → ∃ t : State, exec (.lgd d a) s = .next t ∧ t.injected (pkt (.read 8) id 0) ∧ waits t (.s d)) ∧
    (near 32 → Legal (.lgv d a) s → ∃ t : State, exec (.lgv d a) s = .next t ∧ t.injected (pkt (.read 32) id 0) ∧
      ∃ m : BitVec 32, waits t (.v d m) ∧ ∀ j, j < 32 → m.getLsbD j = s.ctx.enabled j) ∧
    (near 8 → Ready (.sgd a b) s → ∃ t : State, exec (.sgd a b) s = .next t ∧
      t.injected (pkt (.write (leBytes 8 y.toNat)) id 0) ∧ counted t) ∧
    (near 32 → Ready (.sgv d a) s → ∃ t, exec (.sgv d a) s = .next t ∧
      t.injected (pkt (.write (leBytes 32 (s.ctx.vreg d).toNat)) id 1) ∧ counted t) ∧
    (Ready (.lgd d a) s → global (.lgd d a) 8) ∧ (Ready (.sgd a b) s → global (.sgd a b) 8) ∧
    (Legal (.lgv d a) s → global (.lgv d a) 32) ∧ (Ready (.sgv d a) s → global (.sgv d a) 32) ∧
    (let z := (s.ctx.sreg d).toNat
     let tile := z % 2 ^ 13
     let addr := bits z 32 19
     z < 2 ^ 56 → bits z 51 3 = 0 → bits z 18 14 = 0 → bits z 13 3 = 0 → x.toNat % 32 = 0 →
       s.activeOf tile (pid.toNat / 4096) = true → s.isOff tile = false →
       (bit z 16 = true → addr % 32 = 0 ∧ addr + 32 * (n.val + 1) ≤ 0x5C000) → Ready (.pusht d a n) s →
       let mine := fun (p : Push) => p.site == s.cur.1 && p.ctx == s.cur.2.val
       (x.toNat + 32 * n.val < 2 ^ 54 → s.pushes.find? mine = none → ∃ t : State, exec (.pusht d a n) s = .next t ∧ waits t .none ∧
         t.pushes = s.pushes ++ [{ site := s.cur.1, ctx := s.cur.2.val, id := id, beats := List.replicate (n.val + 1) none }] ∧
         ∀ j, j ≤ n.val → t.sends
           { src := s.cur.1, dst := Config.tiles + vaCore (x.toNat + 32 * j), vc := 0, body := 0,
             load := .global { op := .read 32, va := x + BitVec.ofNat 64 (32 * j), pid := pid, site := s.cur.1, ctx := s.cur.2.val,
                               id := id, beat := some j } }) ∧
       (2 ^ 54 ≤ x.toNat → x.toNat + 32 * n.val < 2 ^ 64 → s.pushes.find? mine = none →
         Traps (.pusht d a n) s { cause := 0x07, w3 := x, w4 := pid.setWidth 64 }) ∧
       (∀ (e : Push) (vals : List VWord), s.pushes.find? mine = some e → e.beats = vals.map (fun v => some { val := v }) → vals ≠ [] →
         (bit z 16 = false → vals.length ≤ (s.site tile).pushRoom (bits z 17 1)) → ∃ t : State, exec (.pusht d a n) s = .next t ∧
           waits t .none ∧ t.pushes = s.pushes.filter (· != e) ∧
           let load := Load.push (!bit z 16) (bits z 17 1) addr vals s.cur.1 s.cur.2.val id
           t.injected { src := s.cur.1, dst := tile, vc := bits z 54 2, body := vals.length, load := load })) ∧
    (let z := (s.ctx.sreg d).toNat
     let tile := z % 2 ^ 13
     let addr := bits z 32 19
     let named := z < 2 ^ 56 ∧ bits z 51 3 = 0 ∧ bits z 18 14 = 0 ∧ bits z 13 3 = 0 ∧ s.activeOf tile (pid.toNat / 4096) = true
     let fits := bit z 16 = true → addr % 32 = 0 ∧ addr + 32 * (n.val + 1) ≤ 0x5C000
     let i := Instr.pusht d a n
     Ready i s → (x.toNat % 32 ≠ 0 → Traps i s { cause := 0x03, w3 := x }) ∧
       (x.toNat % 32 = 0 → ¬named → Traps i s { cause := 0x08, w4 := BitVec.ofNat 64 tile }) ∧
       (x.toNat % 32 = 0 → named → bit z 16 = true → addr % 32 ≠ 0 ∨ 0x5C000 ≤ addr → Traps i s { cause := 0x04, w3 := BitVec.ofNat 64 addr }) ∧
       (x.toNat % 32 = 0 → named → bit z 16 = true → addr % 32 = 0 → addr < 0x5C000 → 0x5C000 < addr + 32 * (n.val + 1) →
         Traps i s { cause := 0x05, w3 := BitVec.ofNat 64 addr }) ∧
       (x.toNat % 32 = 0 → named → fits → s.isOff tile = true → Traps i s { cause := 0x0F, w4 := BitVec.ofNat 64 tile })) ∧
    (∀ (i : Instr) (l : Bool), (i = .seal a b ∧ l = false) ∨ (i = .unseal a b ∧ l = true) → Ready i s →
      (x.toNat % 65536 = 0 → y.toNat % 65536 = 0 → 0 < y.toNat → y.toNat ≤ 2 ^ 36 → x.toNat + y.toNat ≤ 2 ^ 54 →
        ∀ (ps : List Page), s.pagesOf pid x.toNat (x.toNat + y.toNat) (y.toNat / 65536) x.toNat [] = .inr ps →
        ∃ (t : State) (o : SealOp), exec i s = .next t ∧ waits t .none ∧ t.seals = s.seals ++ [o] ∧ t.phys = s.phys ∧ o.lifts = l ∧ o.pid = pid ∧
          o.base = x.toNat ∧ o.len = y.toNat ∧ o.left = ownersOf x.toNat y.toNat ∧ o.site = s.cur.1 ∧ o.ctx = s.cur.2.val ∧ o.id = id ∧
          o.pages = ps.map (fun p => (p.base, p.bits))) ∧
      (x.toNat % 65536 ≠ 0 ∨ y.toNat % 65536 ≠ 0 → Traps i s { cause := 0x03, w3 := x, w4 := pid.setWidth 64 }) ∧
      (x.toNat % 65536 = 0 → y.toNat % 65536 = 0 → y = 0 ∨ 2 ^ 36 < y.toNat ∨ 2 ^ 54 < x.toNat + y.toNat →
        Traps i s { cause := 0x04, w3 := x, w4 := pid.setWidth 64 }) ∧
      (x.toNat % 65536 = 0 → y.toNat % 65536 = 0 → 0 < y.toNat → y.toNat ≤ 2 ^ 36 → x.toNat + y.toNat ≤ 2 ^ 54 →
        ∀ tr : Trap, s.pagesOf pid x.toNat (x.toNat + y.toNat) (y.toNat / 65536) x.toNat [] = .inl tr → tr.cause ≠ 0x09 → Traps i s tr)) ∧
    (∀ (lo stop va m : Nat) (l : List Page), s.walkBad pid va = none →
      (stop ≤ va → s.pagesOf pid lo stop m va l = .inr l.reverse) ∧
      (va < stop → s.walk pid va = none →
        s.pagesOf pid lo stop (m + 1) va l = .inl { cause := 0x07, w3 := BitVec.ofNat 64 va, w4 := pid.setWidth 64 }) ∧
      ∀ p : Page, va < stop → s.walk pid va = some p → s.absentIn p = none →
        (p.base < lo ∨ stop < p.base + 2 ^ p.bits →
          s.pagesOf pid lo stop (m + 1) va l = .inl { cause := 0x03, w3 := BitVec.ofNat 64 p.base, w4 := pid.setWidth 64 }) ∧
        (lo ≤ p.base → p.base + 2 ^ p.bits ≤ stop →
          s.pagesOf pid lo stop (m + 1) va l = s.pagesOf pid lo stop m (p.base + 2 ^ p.bits) (p :: l))) ∧
    (let i := Instr.tlbiH a b
     let me := (s.cur.1, s.cur.2.val)
     let named := y.extractLsb' 0 16
     let kept := fun (e : Tlb) => ¬(e.pid = named ∧ (y.getLsbD 16 = true ∨ e.base / 2 ^ e.bits = x.toNat / 2 ^ e.bits))
     let under := fun (q : GReq × Svc) => q.1.pid == named && match q.2 with
       | .place _ m => y.getLsbD 16 || q.1.va.toNat / 2 ^ m == x.toNat / 2 ^ m
       | .fault _ => false
     let waits := ∃ st ∈ s.stations, ∃ q ∈ st.2.svc, me ∈ q.1.tlbi
     let busy := waits ∨ ∃ st ∈ s.stations, ∃ q ∈ st.2.svc, under q = true
     (isHelm s.cur.1 = true → s.me.super = true → y.toNat < 2 ^ 17 → Ready i s → (∀ z, s.ctx.wait ≠ .retry z) → ∃ t : State, exec i s = .next t ∧
       (¬busy → t.ctx = s.ctx.advance 4) ∧ (busy → t.ctx.st = .stalled ∧ t.ctx.pc = s.ctx.pc) ∧
       (∀ k, (t.station k).svc = (s.station k).svc.map fun q => if under q then ({ q.1 with tlbi := me :: q.1.tlbi }, q.2) else q) ∧
       (∀ e, e ∈ t.settling → e ∈ s.settling) ∧
       (∀ p, y.getLsbD 16 = false → s.walk named x.toNat = some p → p.bits = 16 → eMig p.leaf = false → p.tbl ∉ t.settling) ∧
       ∀ k e, e ∈ (t.station k).cache ↔ e ∈ (s.station k).cache ∧ kept e) ∧
     (∀ z, isHelm s.cur.1 = true → s.me.super = true → y.toNat < 2 ^ 17 → Ready i s → s.ctx.wait = .retry z →
       (waits → exec i s = .next s.stall) ∧ (¬waits → exec i s = .next (s.finish 4 fun c => c))) ∧
     (2 ^ 17 ≤ y.toNat → Legal i s → Traps i s { cause := 0x01 }) ∧
     (isHelm s.cur.1 = false ∨ s.me.super = false → y.toNat < 2 ^ 17 → Legal i s → Traps i s { cause := 0x02, w4 := 0x10 }))

/-- Stations and global memory (R258 to R261, R292, R333, R334, R354, R355, R371): the next request is looked up in the cache or walked,
one of a helm core from that core's own root (log 90, the model's reading); one for a MIGRATING page is held, at most 64 of them; a mapped
one enters service with its physical address, an address in memory that is not there counts as unmapped (R350), and the context of a
store that passes its checks goes on (log 22, the model's choice); at most 64 are in service; what is performed there is answered; table
writes and pushes land; that a table word without a value faults the walk and that the helm is told of its own write by an error record
are the model's choices (logs 83 and 100); a station passes its seal point and acknowledges it, and the last acknowledgement ends the wait. -/
def Obligations.GlobalService : Prop :=
  ∀ (s : State) (k : Nat), Live s (Config.tiles + k) → isHalyard (Config.tiles + k) = true →
    let st := s.station k
    let me := Config.tiles + k
    (∀ (r : GReq) (rest : List GReq), st.held = [] → st.walk = none → st.rxq = r :: rest → isSealOp r.op = false → st.svc.length < 64 →
      (st.cache.find? (fun e => e.serves r) = none →
        exec (.stationRequest k) s = .next (s.setStation k { st with rxq := rest, walk := some r })) ∧
      (∀ (e : Tlb), st.cache.find? (fun e => e.serves r) = some e → eMig e.leaf.toNat = true →
        ∃ t : State, exec (.stationRequest k) s = .next t ∧ (t.station k).rxq = rest ∧ (t.station k).svc = st.svc ∧
          (t.station k).held = [r]) ∧
      (∀ (e : Tlb), st.cache.find? (fun e => e.serves r) = some e → eMig e.leaf.toNat = false →
        let pa := physOf e.leaf.toNat e.bits r.va.toNat
        (s.absentAt pa = true → ∃ t : State, exec (.stationRequest k) s = .next t ∧ (t.station k).rxq = rest ∧
          (t.station k).svc = st.svc ++ [(r, .fault { cause := 0x07, w3 := r.va, w4 := r.pid.setWidth 64 })]) ∧
        (s.absentAt pa = false → s.gcheck k r e.leaf.toNat = none → s.partBad r pa = none → ∃ t : State, exec (.stationRequest k) s = .next t ∧
          (t.station k).rxq = rest ∧ (t.station k).svc = st.svc ++ [(r, .place pa e.bits)] ∧
          ∀ (c : Fin 4) o, r.posted = true → r.ctx = c.val → (s.ctxAt r.site c).st = .stalled →
            (s.ctxAt r.site c).wait = .resp r.id .none 4 o → t.ctxAt r.site c = (s.ctxAt r.site c).advance 4) ∧
        ∀ tr : Trap, s.absentAt pa = false → s.gcheck k r e.leaf.toNat = some tr → ∃ t : State, exec (.stationRequest k) s = .next t ∧
          (t.station k).rxq = rest ∧ (t.station k).svc = st.svc ++ [(r, .fault tr)] ∧ ∀ v c, t.ctxAt v c = s.ctxAt v c)) ∧
    (∀ (r : GReq) (rest : List GReq) (e : Tlb), st.held.length = 64 →
      (∀ h ∈ st.held, ∃ p, s.walkOf h = some p ∧ s.walkBadFrom (s.rootOf h) h.va.toNat = none ∧ eMig p.leaf = true) → st.walk = none →
      st.rxq = r :: rest → r.inVc = 0 ∨ st.cache.find? (fun e => e.serves r) = some e ∧ eMig e.leaf.toNat = true → rest = [] →
      ∃ t : State, exec (.stationRequest k) s = .next t ∧ (t.station k).held = st.held ∧ (t.station k).rxq = [r]) ∧
    (64 ≤ st.svc.length → exec (.stationRequest k) s = .next s ∧ exec (.tableWalkComplete k) s = .next s) ∧
    (∀ (r : GReq) (p : Page), st.walk = some r → st.svc.length < 64 → st.held = [] → s.walkOf r = some p →
      s.walkBadFrom (s.rootOf r) r.va.toNat = none → s.pageMoves p = false → eMig p.leaf = false → s.gcheck k r p.leaf = none →
      (let pa := physOf p.leaf p.bits r.va.toNat
       s.absentAt pa = false ∧ s.partBad r pa = none) →
      ∃ t : State, exec (.tableWalkComplete k) s = .next t ∧ (t.station k).walk = none ∧
        (t.station k).svc = st.svc ++ [(r, .place (physOf p.leaf p.bits r.va.toNat) p.bits)] ∧
        (isHelm r.site = false → ∃ e ∈ (t.station k).cache, e.pid = r.pid ∧ e.base = p.base ∧ e.bits = p.bits) ∧
        (isHelm r.site = true → (t.station k).cache = st.cache)) ∧
    (∀ (r : GReq) (p : Page), st.walk = some r → st.svc.length < 64 → st.held = [] → isHelm r.site = false → s.walkOf r = some p →
      s.walkBadFrom (s.rootOf r) r.va.toNat = none → eMig p.leaf = true ∨ p.read ∈ s.settling →
      ∃ t : State, exec (.tableWalkComplete k) s = .next t ∧ (t.station k).walk = none ∧ (t.station k).held = [r] ∧ (t.station k).svc = st.svc) ∧
    (∀ (r : GReq), (isHelm r.site = false → s.walkOf r = s.walk r.pid r.va.toNat) ∧
      (isHelm r.site = true → s.walkOf r = s.walkFrom (mapGetD s.helmRoots r.site 0) r.va.toNat)) ∧
    (∀ (r : GReq), st.walk = some r → st.svc.length < 64 → s.walkOf r = none → s.walkBadFrom (s.rootOf r) r.va.toNat = none →
      exec (.tableWalkComplete k) s = .next (s.setStation k
        { st with walk := none, svc := st.svc ++ [(r, .fault { cause := 0x07, w3 := r.va, w4 := r.pid.setWidth 64 })] })) ∧
    (∀ (r : GReq) (a : Nat), st.walk = some r → st.svc.length < 64 → s.walkBadFrom (s.rootOf r) r.va.toNat = some a →
      ∃ t : State, exec (.tableWalkComplete k) s = .next t ∧ (t.station k).walk = none ∧ (t.station k).svc = st.svc ++
          [(r, .fault { cause := 0x09, w3 := r.va, w4 := Config.syndrome s.cycle a })] ∧
        t.tenants = (s.hbmError r.site r.pid a).tenants) ∧
    (∀ (r : GReq) (tr : Trap) (rest : List (GReq × Svc)) (i : Instr), st.svc = (r, .fault tr) :: rest → r.piece = none → r.beat = none →
      i = .hbmAccessComplete k ∨ i = .secondTierAccessComplete k → ∃ t : State, exec i s = .next t ∧ (t.station k).svc = rest ∧
        t.phys = s.phys ∧
        let load := match r.op with
          | .write _ => Load.ack r.ctx me r.id (some tr)
          | _ => Load.resp r.ctx r.id { trap := some tr }
        t.injected { src := me, dst := r.site, vc := 1, body := 0, load := load }) ∧
    (∀ (r : GReq) (pa m : Nat) (rest : List (GReq × Svc)) (i : Instr), st.svc = (r, .place pa m) :: rest → s.badPhys = [] → r.piece = none →
      r.beat = none →
      (i = .hbmAccessComplete k ∧ pa + r.op.size ≤ 0xC000000000) ∨
        (i = .secondTierAccessComplete k ∧ 0x10000000000 ≤ pa ∧ pa + r.op.size ≤ 0x90000000000) →
      (∀ (n : Nat), r.op = .read n → ∃ t : State, exec i s = .next t ∧ (t.station k).svc = rest ∧ t.phys = s.phys ∧ 
        let load := Load.resp r.ctx r.id { val := BitVec.ofNat 256 (leVal (memBytes s.phys pa n)) }
        t.injected { src := me, dst := r.site, vc := 1, body := 0, load := load }) ∧
      (∀ (bs : List Byte), r.op = .write bs → ∃ t : State, exec i s = .next t ∧ (t.station k).svc = rest ∧ memBytes t.phys pa bs.length = bs ∧
        (∀ b, b < pa ∨ pa + bs.length ≤ b → t.physAt b = s.physAt b) ∧ (∀ u b, t.byteAt u b = s.byteAt u b) ∧
        t.injected { src := me, dst := r.site, vc := 1, body := 0, load := .ack r.ctx me r.id none }) ∧
      (∀ (op w : Nat) (v z : Word), r.op = .atomic op w v z → w = 32 ∨ w = 64 → ∃ t : State, exec i s = .next t ∧
        memRead t.phys pa (w / 8) = atomicNew op w (memRead s.phys pa (w / 8)) (v.toNat % 2 ^ w) (z.toNat % 2 ^ w) ∧
        (∀ b, b < pa ∨ pa + w / 8 ≤ b → t.physAt b = s.physAt b) ∧ 
        let load := Load.resp r.ctx r.id { val := BitVec.ofNat 256 (memRead s.phys pa (w / 8)) }
        t.injected { src := me, dst := r.site, vc := 1, body := 0, load := load })) ∧
    (∀ (pa : Nat) (v : BitVec 64), pa + 8 ≤ 0xC000000000 →
      (s.absentAt pa = true → exec (.pageTableWrite pa v) s = .next s) ∧
      (s.badPhys = [] → s.absentAt pa = false → ∃ t : State, exec (.pageTableWrite pa v) s = .next t ∧ memRead t.phys pa 8 = v.toNat ∧
        ∀ b, b < pa ∨ pa + 8 ≤ b → t.physAt b = s.physAt b) ∧
      (∀ w, s.badPhys = [w] → w < pa + 8 → pa < w + 32 → s.absentAt pa = false → ∃ t : State, exec (.pageTableWrite pa v) s = .next t ∧
        t.phys = s.phys ∧ t.errors.length = s.errors.length + 1)) ∧
    (∀ (r : GReq) (rest : List GReq) (num : Nat) (o : SealOp), st.rxq = r :: rest → st.walk = none → st.svc = [] → st.held = [] →
      r.op = .seal num →
      s.seals = [o] → o.num = num →
      (∀ q ∈ o.pages, ∀ p, s.walk o.pid q.1 = some p → s.pageMoves p = false) →
      ∃ t : State, exec (.sealRequestArrival k) s = .next t ∧ (t.station k).rxq = rest ∧
        (o.lifts = false → (o.pid, o.base, o.len) ∈ (t.station k).seals) ∧
        (t.seals.map fun x => (x.left, x.acks)) = [(o.left.filter (· != k), o.acks)] ∧
        t.injected { src := me, dst := o.site, vc := 1, body := 0, load := .sealAck num } ∧
        ∀ (b : Nat) (p : Page), o.pages = [(b, 16)] → s.walk o.pid b = some p → p.bits = 16 → s.badPhys = [] →
          let last := k ∈ ownersOf b 65536 ∧ ∀ j ∈ ownersOf b 65536, j ∈ o.left → j = k
          (last → memRead t.phys p.tbl 8 = p.leaf / 256 * 256 + (if o.lifts then 0 else 128) + p.leaf % 128) ∧ (¬last → t.phys = s.phys) ∧
          ∀ a, a < p.tbl ∨ p.tbl + 8 ≤ a → t.physAt a = s.physAt a) ∧
    (∀ (t : Nat) (p : Pkt) (rest : List Pkt) (o : SealOp) (c : Fin 4), Live s t → (s.site t).halted = false → (s.site t).rxResp = p :: rest →
      p.load = .sealAck o.num → s.seals = [o] → o.site = t → o.ctx = c.val → ∃ u : State, exec (.farResponseArrival t) s = .next u ∧
        (u.site t).rxResp = rest ∧
        (1 < o.acks → u.seals = [{ o with acks := o.acks - 1 }] ∧ u.ctxAt t c = s.ctxAt t c) ∧
        (o.acks ≤ 1 → u.seals = [] ∧ ∀ d, (s.ctxAt t c).st = .stalled → (s.ctxAt t c).wait = .resp o.id .none 4 d →
          (o.bad = none → u.ctxAt t c = (s.ctxAt t c).advance 4) ∧
          (∀ a, o.bad = some a → (u.ctxAt t c).st = .trapped))) ∧
    (∀ (p : Pkt) (rest : List Pkt) (t j n : Nat) (c : Fin 4) (v : Resp) (e : Push), Live s t → (s.site t).halted = false →
      (s.site t).rxResp = p :: rest → p.load = .beat c.val n j v → s.pushes = [e] → e.site = t → e.ctx = c.val → e.id = n → v.trap = none →
      e.beats.length = j + 1 → (∀ x ∈ e.beats.take j, ∃ y : Resp, x = some y ∧ y.trap = none) →
      ∃ u : State, exec (.farResponseArrival t) s = .next u ∧ u.pushes = [{ e with beats := e.beats.set j (some v) }] ∧
        u.ctxAt t c = { s.ctxAt t c with wait := .retry s.cycle }) ∧
    (∀ (t : Nat) (p : Pkt) (rest : List Pkt) (q : Bool) (sel addr : Nat) (b : VWord) (bs : List VWord) (u c id : Nat), Live s t → (s.site t).rxPush = p :: rest → p.load = .push q sel addr (b :: bs) u c id →
      (q = false → ∃ v : State, exec (.pushBeatArrival t) s = .next v ∧ s.storesOnly v t addr 32 ∧ memBytes (v.site t).mem addr 32 = ofBeats [b] ∧
        (bs = [] → (v.site t).rxPush = rest ∧ v.injected { src := t, dst := u, vc := 1, body := 0, load := .resp c id {} })) ∧
      (q = true → ∀ j : Fin 2, sel = j.val → (s.site t).core.q45[j].items.length < 16 → ∃ v : State, exec (.pushBeatArrival t) s = .next v ∧
        (v.site t).core.q45[j].items = (s.site t).core.q45[j].items ++ [b] ∧ (bs = [] → (v.site t).rxPush = rest)))

/-- Semaphores and ratline barriers (R197 to R205): saturating counts, waiters served in their order; a barrier passes when
every member's line is up: the member is ahead or has arrived, or an OFF gate has raised its line; its token tells waiting, stale and
future (R200). An increase of a semaphore waits for the context's posted reclaims. What a barrier does on a site without a group is the
model's choice (log 110). -/
def Obligations.SemaphoresAndBarriers : Prop :=
  ∀ (s : State) (d a b n : Fin 32),
    let k := s.me.core
    let i := semNo d
    let u := s.cur.1
    let v : BitVec 32 := (s.ctx.sreg a).extractLsb' 0 32
    (s.ctx.posted ≠ 0 → Gives (.semset d a) s s.stall ∧ Gives (.semadd d n) s s.stall) ∧
    (s.ctx.posted = 0 → k.waiters = [] → (Ready (.semset d a) s → ∃ t : State, exec (.semset d a) s = .next t ∧ t.me.core.sem = k.sem.set i v ∧
        t.ctx = { s.ctx.advance 4 with latch := s.ctx.latch || decide (k.sem[i].toNat < v.toNat) }) ∧
      (Ready (.semadd d n) s → ∃ t : State, exec (.semadd d n) s = .next t ∧
        t.me.core.sem = k.sem.set i (BitVec.ofNat 32 (min (2 ^ 32 - 1) (k.sem[i].toNat + n.val))) ∧
        t.ctx = { s.ctx.advance 4 with latch := true })) ∧
    (∀ (c m : Nat), s.ctx.posted = 0 → k.waiters = [(i.val, c, m)] → c < 4 → c ≠ s.cur.2.val → (s.ctxAt u (Machine.fin4 c)).st = .stalled →
      m ≤ k.sem[i].toNat + n.val → k.sem[i].toNat + n.val < 2 ^ 32 → Ready (.semadd d n) s → ∃ t : State, exec (.semadd d n) s = .next t ∧
        t.me.core.waiters = [] ∧ (t.me.core.sem[i]).toNat = k.sem[i].toNat + n.val - m ∧ (t.ctxAt u (Machine.fin4 c)).st = .running ∧
        (t.ctxAt u (Machine.fin4 c)).s = (s.ctxAt u (Machine.fin4 c)).s) ∧
    ((∀ w ∈ k.waiters, w.1 ≠ i.val) → n.val ≤ k.sem[i].toNat → Gives (.semwait d n) s
      ((s.modCore u fun k => { k with sem := k.sem.set i (k.sem[i] - BitVec.ofNat 32 n.val) }).finish 4 id)) ∧
    ((∃ w ∈ k.waiters, w.1 = i.val) ∨ k.sem[i].toNat < n.val → Ready (.semwait d n) s → ∃ t : State, exec (.semwait d n) s = .next t ∧
      t.me.core.waiters = k.waiters ++ [(i.val, s.cur.2.val, n.val)] ∧ t.ctx.st = .stalled ∧ t.ctx.pc = s.ctx.pc ∧ t.me.core.sem = k.sem) ∧
    (∀ j : Fin 4, d.val = j.val → Ready (.bar d) s →
      (s.ctx.b[j].pend = false → (k.barA[j] - k.barC[j]).toNat = 2 → exec (.bar d) s = .next s.stall) ∧
      (s.ctx.b[j].pend = false → (k.barA[j] - k.barC[j]).toNat ≤ 1 → ∃ t : State, exec (.bar d) s = .next t ∧ t.ctx.st = .stalled ∧ t.ctx.pc = s.ctx.pc ∧
        t.me.core.barA = k.barA.set j (k.barA[j] + 1) ∧ t.ctx.b[j].pend = true ∧ t.ctx.b[j].token = k.barA[j]) ∧
      (s.ctx.b[j].pend = true → token s.ctx.b[j].token k.barC[j] ≠ .stale → exec (.bar d) s = .next s.stall) ∧
      (s.ctx.b[j].pend = true → token s.ctx.b[j].token k.barC[j] = .stale → exec (.bar d) s = .next
        (s.finish 4 fun c => { c with b := c.b.set j { c.b[j] with pend := false } }))) ∧
    (∀ j : Fin 4, a.val = j.val →
      ((k.barA[j] - k.barC[j]).toNat ≠ 2 → Ready (.bara d a) s → ∃ t : State, exec (.bara d a) s = .next t ∧
        t.me.core.barA = k.barA.set j (k.barA[j] + 1) ∧
        t.ctx = ({ s.ctx with b := s.ctx.b.set j { pend := false, token := k.barA[j] } }.setS d (k.barA[j].zeroExtend 64)).advance 4) ∧
      ((k.barA[j] - k.barC[j]).toNat = 2 → Gives (.bara d a) s s.stall) ∧
      (let tk : BitVec 16 := (s.ctx.sreg b).extractLsb' 0 16
       (token tk k.barC[j] = .stale → SetsP (.barw d a b) s d (if s.ctx.waited then 0xFFFFFFFF else 0)) ∧
       (token tk k.barC[j] = .wait → Gives (.barw d a b) s s.stall) ∧
       (token tk k.barC[j] = .future → Ready (.barw d a b) s →
         Traps (.barw d a b) s { cause := 0x10, w4 := tk.zeroExtend 64, w5 := k.barC[j].zeroExtend 64 }))) ∧
    (∀ t c : BitVec 16, (token t c = .wait ↔ t = c ∨ t = c + 1) ∧ (token t c = .stale ↔ 2 ^ 15 ≤ (t - c).toNat) ∧
      (token t c = .future ↔ 2 ≤ (t - c).toNat ∧ (t - c).toNat < 2 ^ 15) ∧ token (c + 0x7FFF) c = .future ∧ token (c + 0x8000) c = .stale ∧
      token (c - 1) c = .stale ∧ token (c + 2) c = .future) ∧
    (∀ (l : Nat) (la : Launch) (j : Fin 4) (m t : Nat), mapGet? s.launches l = some la → la.members[m]? = some t →
      ((s.site t).core.barC[j] ≠ la.barOpen[j] → ∃ w, exec (.ratlineRelease l j.val m) s = .next w ∧
        (w.site t).core.barC = (s.site t).core.barC.set j ((s.site t).core.barC[j] + 1) ∧ ∀ c, (w.ctxAt t c).latch = true) ∧
      ((s.site t).core.barC[j] = la.barOpen[j] → (∀ q ∈ la.members, s.lineUp la q j la.barOpen[j] = true) →
        ∃ w, exec (.ratlineRelease l j.val m) s = .next w ∧ w.sites = s.sites ∧
          (mapGet? w.launches l).map (·.barOpen) = some (la.barOpen.set j (la.barOpen[j] + 1))) ∧
      ((s.site t).core.barC[j] = la.barOpen[j] → (∃ q ∈ la.members, s.lineUp la q j la.barOpen[j] = false) →
        exec (.ratlineRelease l j.val m) s = .next s) ∧
      ∀ (q : Nat) (r : BitVec 16), s.lineUp la q j r = true ↔ q ∈ la.raised ∨ ((s.site q).core.barC[j] = r ∧
        ((s.site q).core.barA[j] = r + 1 ∨ (s.site q).core.barA[j] = r + 2)))

/-- Phasers (R206 to R209): every instruction asks the sync engine of the group's first mast and waits; the engine registers,
drops, counts signals, keeps one that is two phases ahead, completes a phase when each signaller of it has signalled (with a drop too,
and the next phase as well where early signals complete it), and answers waits by their token and as their phase completes. A second
registration, a mode that does not allow the request, and a member that is not registered trap. -/
def Obligations.Phasers : Prop :=
  (∀ (s : State) (d a b m : Fin 32) (i : Instr) (op : PhOp) (dest : Dest) (l : Nat),
    (i = .phreg d a m ∧ op = .reg m.val ∧ dest = .s d) ∨ (i = .phdrop a ∧ op = .drop ∧ dest = .none) ∨
      (i = .phsig d a ∧ op = .sig ∧ dest = .s d) ∨ (i = .phwait d a b ∧ op = .wait ((s.ctx.sreg b).extractLsb' 0 16) ∧ dest = .p d) ∨
      (i = .phnext d a ∧ op = .next ∧ dest = .s d) → Ready i s → s.me.krn.launch = some l →
    let x := s.ctx.sreg a
    let q : PhReq := { op := op, launch := l, phaser := x.toNat, member := s.me.krn.member, site := s.cur.1, ctx := s.cur.2.val, id := s.ctx.reqid }
    (x.toNat < 8 → ∃ t : State, exec i s = .next t ∧ t.waitsFor s.cur.1 s.cur.2 s.ctx.reqid dest ∧ t.ctx.pc = s.ctx.pc ∧
      t.injected { src := s.cur.1, dst := 8400 + (s.membersOf s.cur.1).headD 0 / 2048, vc := 2, body := 0, load := .phaser q }) ∧
    (8 ≤ x.toNat → Traps i s { cause := 0x08, w4 := x })) ∧
  (∀ (s : State) (m : Nat) (q : PhReq) (rest : List PhReq) (la : Launch), m < 4 → mapGetD s.phq m [] = q :: rest →
    mapGet? s.launches q.launch = some la → ∃ t : State, exec (.phaserRequest m) s = .next t ∧ mapGetD t.phq m [] = rest ∧
      (mapGet? t.launches q.launch).map (·.phasers) =
        some (la.phasers.set (ph8 q.phaser) ((la.phasers[ph8 q.phaser]).serve q).1)) ∧
  (∀ (p : Phaser) (q : PhReq) (mode : Nat), q.op = .reg mode → p.find q.member = none →
    let start := if mode = 1 ∨ p.regs.any (·.signals) = false then p.phase else p.phase + 1
    p.serve q = ({ p with regs := p.regs ++ [{ member := q.member, mode := mode, start := start, nextS := start }] },
      [(q, { val := start.zeroExtend 256 })])) ∧
  (∀ (p : Phaser) (q : PhReq) (m : PhMember), q.op = .sig → p.regs = [m] → m.member = q.member → m.mode ≠ 1 → m.start = p.phase →
    m.nextS = p.phase → p.queue = [] → (p.serve q).1.phase = p.phase + 1 ∧ (p.serve q).2 = [(q, { val := p.phase.zeroExtend 256 })]) ∧
  (∀ (p : Phaser) (q : PhReq) (m : PhMember) (regs : List PhMember) (own : Resp), p.find q.member = some m →
    (q.op = .sig ∧ m.mode ≠ 1 ∧ (p.phase + 1 - m.nextS).toNat < 2 ^ 15 ∧ own = { val := m.nextS.zeroExtend 256 } ∧
        regs = p.regs.map fun r => if r.member = q.member then { r with nextS := r.nextS + 1 } else r) ∨
      (q.op = .drop ∧ own = {} ∧ regs = p.regs.filter fun r => r.member != q.member) →
    let counts := fun (r : PhMember) (c : BitVec 16) => r.mode ≠ 1 ∧ (c - r.start).toNat < 2 ^ 15
    let given := fun (r : PhMember) (c : BitVec 16) => 1 ≤ (r.nextS - c).toNat ∧ (r.nextS - c).toNat < 2 ^ 15
    let complete := fun (l : List PhMember) (c : BitVec 16) => (∃ r ∈ l, counts r c) ∧ ∀ r ∈ l, counts r c → given r c
    let next := fun (l l' : List PhMember) (c : BitVec 16) => l'.length = l.length ∧ ∀ (i : Nat) (r : PhMember), l[i]? = some r →
      (counts r c → l'[i]? = some { r with start := c + 1 }) ∧ (¬counts r c → l'[i]? = some r)
    let c := p.phase
    (¬complete regs c → p.serve q = ({ p with regs := regs }, [(q, own)])) ∧
    ∀ l : List PhMember, complete regs c → next regs l c →
      ((∀ w ∈ p.queue, ∃ t, w.op = .wait t) → ¬complete l (c + 1) →
        let over' := fun (w : PhReq) => match w.op with
          | .wait t => token t (c + 1) == .stale
          | _ => false
        p.serve q = ({ phase := c + 1, regs := l, queue := p.queue.filter fun w => !over' w },
          (q, own) :: (p.queue.filter over').map fun w => (w, {}))) ∧
      (∀ l2 : List PhMember, p.queue = [] → complete l (c + 1) → next l l2 (c + 1) → ¬complete l2 (c + 2) →
        p.serve q = ({ phase := c + 2, regs := l2, queue := [] }, [(q, own)])) ∧
      ∀ (w : PhReq) (r : PhMember), p.queue = [w] → w.op = .sig → l.find? (fun x => x.member == w.member) = some r →
        (c + 2 - r.nextS).toNat < 2 ^ 15 →
        let l' := l.map fun x => if x.member = w.member then { x with nextS := x.nextS + 1 } else x
        ¬complete l' (c + 1) →
        p.serve q = ({ phase := c + 1, regs := l', queue := [] }, [(q, own), (w, { val := r.nextS.zeroExtend 256 })])) ∧
  (∀ (p : Phaser) (q : PhReq) (m : PhMember), p.find q.member = some m →
    (q.op = .sig → m.mode ≠ 1 → 2 ^ 15 ≤ (p.phase + 1 - m.nextS).toNat → p.serve q = ({ p with queue := p.queue ++ [q] }, [])) ∧
    (q.op = .sig ∧ m.mode = 1 ∨ (∃ t, q.op = .wait t) ∧ m.mode = 0 ∨ (∃ k, q.op = .reg k) →
      p.serve q = (p, [(q, { trap := some { cause := 0x08, w4 := BitVec.ofNat 64 q.phaser } })]))) ∧
  (∀ (p : Phaser) (q : PhReq) (m : PhMember) (t : BitVec 16), q.op = .wait t → p.find q.member = some m → m.mode ≠ 0 →
    (token t p.phase = .wait → p.serve q = ({ p with queue := p.queue ++ [q] }, [])) ∧
    (token t p.phase = .stale → p.serve q = (p, [(q, { pred := false })])) ∧
    (token t p.phase = .future → p.serve q =
      (p, [(q, { trap := some { cause := 0x10, w4 := t.zeroExtend 64, w5 := p.phase.zeroExtend 64 } })]))) ∧
  (∀ (p : Phaser) (q : PhReq), q.op = .next → p.serve q = (p, [(q, { val := p.phase.zeroExtend 256 })])) ∧
  (∀ (p : Phaser) (q : PhReq), p.find q.member = none → (q.op = .sig ∨ q.op = .drop ∨ ∃ t, q.op = .wait t) →
    p.serve q = (p, [(q, { trap := some { cause := 0x08, w4 := BitVec.ofNat 64 q.phaser } })]))

/-- Fences and persistence (R214, R305, R311, R314, R327 to R329): a fence passes when its scope lists nothing outstanding; PFENCE
asks for a commit, then passes when one is written; PSTAT reads the commit state; PGATE asks a member's controller and waits;
counters and sends go to the counter engine, those of a helm core on its own die: that its request stands in the engine's queue in the
same step is the model's choice (log 57). -/
def Obligations.FencesAndPersistence : Prop :=
  ∀ (s : State) (d a b m : Fin 32),
    let c := s.ctx
    let u := s.cur.1
    let bl := s.me.ballast
    let n := match bl.st with
      | .writing k _ _ _ => k + 1
      | _ => bl.last + 1
    let asked := fun (t : State) => t.ctx.persisted = some n ∧ t.ctx.st = .stalled ∧ t.ctx.pc = c.pc ∧ t.ctx.s = c.s ∧
      match bl.st with
      | .idle => t.me.ballast = { bl with st := .requested s.cycle }
      | .requested _ => t.me.ballast = bl
      | .writing _ _ _ _ => t.me.ballast = { bl with merged := true }
    let hold := (1 ≤ d.val ∧ c.posted ≠ 0) ∨ (2 ≤ d.val ∧ c.unacked ≠ [])
    (¬hold → Gives (.fence d) s (s.finish 4 fun c => { c with slices := if 3 ≤ d.val then 0 else c.slices })) ∧
    (hold → Gives (.fence d) s s.stall) ∧
    (c.persisted = none → Ready .pfenceT s → ∃ t : State, exec .pfenceT s = .next t ∧ asked t) ∧
    (∀ k, c.persisted = some k →
      (k ≤ bl.last → Gives .pfenceT s (s.finish 4 fun c => { c with persisted := none })) ∧
      (bl.last < k → Gives .pfenceT s s.stall) ∧
      (k ≤ bl.last → (∀ j ∈ c.owners, s.liveMember j = false) →
        Gives .pfenceG s (s.finish 4 fun c => { c with persisted := none, owners := [], ownAll := false })) ∧
      (bl.last < k ∨ (∃ j ∈ c.owners, s.liveMember j = true) → Gives .pfenceG s s.stall)) ∧
    (c.persisted = none → Ready .pfenceG s → ∃ t : State, exec .pfenceG s = .next t ∧ asked t ∧
      t.ctx.owners = (if c.ownAll then List.range (s.membersOf u).length else c.owners).filter s.liveMember ∧
      ∀ j ∈ t.ctx.owners, ∀ v : Nat, s.memberTile u j = some v →
        t.sends { src := u, dst := v, vc := 0, body := 0, load := .persist u s.cur.2.val j (c.fenceId + 1) }) ∧
    (let w : Word := BitVec.ofNat 64 bl.status
     SetsS (.pstat d) s d w ∧ (bl.dirty.length < 4096 → w.extractLsb' 32 32 = BitVec.ofNat 32 bl.last ∧
       w.extractLsb' 20 12 = BitVec.ofNat 12 bl.dirty.length ∧ w.extractLsb' 12 8 = BitVec.ofNat 8 (min 255 bl.resumes) ∧
       w.extractLsb' 3 9 = 0 ∧ (w.getLsbD 2 = true ↔ 16384 < journalBytes bl.journal) ∧
       (w.getLsbD 1 = true ↔ (∃ x, bl.st = .requested x) ∨ ((∃ x y z w, bl.st = .writing x y z w) ∧ bl.merged = true)) ∧
       (w.getLsbD 0 = true ↔ ∃ x y z w, bl.st = .writing x y z w))) ∧
    (let x := c.sreg a
     let i := Instr.pgate a m
     (m = 2 → Legal i s → Traps i s { cause := 0x02, w4 := 0x13 }) ∧
     (m ≠ 2 → Ready i s → (s.memberTile u x.toNat = none → Traps i s { cause := 0x08, w4 := x }) ∧
       ∀ v : Nat, s.memberTile u x.toNat = some v → (s.isOff v = true → Traps i s { cause := 0x0F, w4 := x }) ∧
         (s.isOff v = false → ∃ t : State, exec i s = .next t ∧ t.waitsFor u s.cur.2 c.reqid .none ∧ t.ctx.pc = c.pc ∧
           t.injected { src := u, dst := v, vc := 0, body := 0, load := .gate m.val u s.cur.2.val c.reqid }))) ∧
    (let x := c.sreg a
     let named := x.toNat < 64 ∧ (isTile u = false ∨
       ∃ te, mapGet? s.tenants s.me.krn.tenant = some te ∧ x.toNat ∈ te.cfg.counters)
     let reaches := fun (t : State) (op : CntOp) (body : Nat) (home : Option Nat) =>
       let r : CntReq := { op := op, cnt := x.toNat, tenant := s.me.krn.tenant, pid := s.me.krn.pid, home := home, site := u,
                           ctx := s.cur.2.val, id := c.reqid }
       t.injected { src := u, dst := helmDie, vc := 0, body := body, load := .counter r } ∧
         t.cntq = if onHelmDie u then s.cntq ++ [r] else s.cntq
     (named → Ready (.cntrd d a) s → ∃ t : State, exec (.cntrd d a) s = .next t ∧ reaches t .read 0 none ∧
       t.waitsFor u s.cur.2 c.reqid (.s d) ∧ t.ctx.pc = c.pc) ∧
     (named → Ready (.cntset a b) s → ∃ t : State, exec (.cntset a b) s = .next t ∧ reaches t (.set (c.sreg b)) 0 none ∧
       t.ctx = { c with unacked := c.unacked ++ [(helmDie, c.reqid)], reqid := c.reqid + 1 }.advance 4) ∧
     (let y := c.sreg d
      let desc := memBytes s.me.mem y.toNat 32
      let owns := x.toNat < 64 ∧ s.me.krn.launch.isSome = true ∧
        ∃ te, mapGet? s.tenants s.me.krn.tenant = some te ∧ x.toNat ∈ te.cfg.counters
      y.toNat % 32 = 0 → y.toNat + 32 ≤ 0x60000 → s.me.bad = [] → Ready (.tsend d a b) s →
        (¬owns → Traps (.tsend d a b) s { cause := 0x08, w4 := x }) ∧
        (owns → s.descOk desc = true → s.srcCheck (sendDesc desc) = none → s.armsHeld < 64 →
          (c.posted ≠ 0 → exec (.tsend d a b) s = .next s.stall) ∧
          (c.posted = 0 → ∃ t : State, exec (.tsend d a b) s = .next t ∧ t.ctx = c.advance 4 ∧
            reaches t (.arm (sendDesc desc) (c.sreg b)) 1 (s.sourceHome (sendDesc desc))))) ∧
     (¬named → (Ready (.cntrd d a) s → Traps (.cntrd d a) s { cause := 0x08, w4 := x }) ∧
       (Ready (.cntset a b) s → Traps (.cntset a b) s { cause := 0x08, w4 := x })))

/-- The matrix instructions (R222, R233, R235 to R242, R245, R246, R250): opening, configuring, filling and closing an end of a link
engine, its status, masks and skip lists, and the accumulator banks. What opens, configures and closes reaches the engine 2 cycles later.
MXPUSHM pushes one beat at each issue and waits until its last one is in the FIFO. A push that reads skip-list entries waits for the context's
posted reclaims (R284). A broken stream drops commands; no held end raises ACCESS. ACCCVT converts a row to each of its types; a DPT8
byte is the nearest one (R106). That no engine is opened toward a tile that has been migrated is the model's reading (log 98). -/
def Obligations.MatrixInstructions : Prop :=
  ∀ (s : State) (p : Fin 4) (d a n k r : Fin 32) (ty : Fin 16),
    let c := s.ctx
    let u := s.cur.1
    let me := some (u, s.cur.2.val)
    let e := portEngine u p.val
    let left := portLeft p.val
    let x := s.engine e
    let y := x.fin left
    let rank := portRank u p.val
    let rw : Word := BitVec.ofNat 64 rank
    let pw : Word := BitVec.ofNat 64 p.val
    let dropped := c.status[p].st.broken = true
    let holds := (portTile u p.val).isSome = true ∧ (y.held = me ∧ y.orphan = false ∨ y.claim = me)
    let held := ¬dropped ∧ holds
    let put := fun (z : EngEnd) => s.setEngine e (x.setFin left z)
    let sent := fun (q : EngCmd) => put { y with cmds := y.cmds ++ [(s.cycle + 2, q)] }
    (Ready (.mxopen p) s → isTile u = true →
      (portTile u p.val = none → Traps (.mxopen p) s { cause := 0x08, w4 := pw }) ∧
      ∀ v : Nat, portTile u p.val = some v →
        (y.held ≠ none ∨ y.claim ≠ none → Traps (.mxopen p) s { cause := 0x0D, w4 := rw, w5 := rw }) ∧
        (y.held = none → y.claim = none →
          (rank < c.floor → Traps (.mxopen p) s { cause := 0x0D, w4 := rw, w5 := BitVec.ofNat 64 c.floor }) ∧
          (c.floor ≤ rank → (s.activeLaunch u) = none ∨ s.activeLaunch v ≠ s.activeLaunch u ∨ s.me.migrated = true ∨
            (s.site v).migrated = true → Traps (.mxopen p) s { cause := 0x08, w4 := pw }) ∧
          (c.floor ≤ rank → (s.activeLaunch u).isSome = true → s.activeLaunch v = s.activeLaunch u → s.me.migrated = false →
            (s.site v).migrated = false → ∃ t : State, exec (.mxopen p) s = .next t ∧
              (let z := (t.engine e).fin left
               z.claim = me ∧ z.held = none ∧ z.cmds = [(s.cycle + 2, .opens)] ∧ z.list = c.k[p] ∧ (t.engine e).st = x.st) ∧
              t.ctx = { c with floor := rank, status := c.status.set p { rank := rank, st := .halfOpen } }.advance 4))) ∧
    (held → Gives (.mxcfg d p) s ((sent (.cfg (c.sreg d) (if left then c.mrow else c.mcol))).finish 4 id) ∧
      (y.fifo.length < 8 → s.me.bad = [] → c.posted = 0 ∨ y.list.count = 0 →
        Gives (.mxpush a p) s ((put { y with fifo := y.fifo ++ [.data (c.vreg a)] }).finish 4 id)) ∧
      (c.posted ≠ 0 → y.list.count ≠ 0 → Gives (.mxpush a p) s s.stall) ∧
      (y.fifo.length < 8 → Gives (.mxscl a p) s ((put { y with fifo := y.fifo ++ [.scale (c.vreg a)] }).finish 4 id)) ∧
      (8 ≤ y.fifo.length → Gives (.mxpush a p) s s.stall ∧ Gives (.mxscl a p) s s.stall) ∧
      (let at' := (c.sreg a).toNat
       let beat := fun (j : Nat) => Beat.data (BitVec.ofNat 256 (memRead s.me.mem (at' + 32 * j) 32))
       at' + 32 * (n.val + 1) ≤ 0x60000 → Ready (.mxpushm a n p) s →
         (c.posted ≠ 0 → exec (.mxpushm a n p) s = .next s.stall) ∧
         (c.posted = 0 → 8 ≤ y.fifo.length → exec (.mxpushm a n p) s = .next s.stall) ∧
         (c.posted = 0 → y.fifo.length < 8 → c.pushed ≤ n.val → s.me.bad = [] → ∃ t : State, exec (.mxpushm a n p) s = .next t ∧
           (t.me.mem = s.me.mem) ∧ ((t.engine e).fin left).fifo = y.fifo ++ [beat c.pushed] ∧
           (c.pushed = n.val → t.ctx = ({ c with pushed := 0 }.setS a (c.sreg a + BitVec.ofNat 64 (32 * (n.val + 1)))).advance 4) ∧
           (c.pushed < n.val → t.ctx.pushed = c.pushed + 1 ∧ t.ctx.st = .stalled ∧ t.ctx.pc = c.pc ∧ t.ctx.s = c.s)))) ∧
    (dropped → Gives (.mxcfg d p) s (s.finish 4 id) ∧ Gives (.mxpush a p) s (s.finish 4 fun c => c.dropPush p) ∧
      Gives (.mxscl a p) s (s.finish 4 fun c => c.dropPush p)) ∧
    (¬dropped → ¬holds → let tr : Trap := { cause := 0x08, w4 := pw, w5 := 1 }
      (Ready (.mxcfg d p) s → Traps (.mxcfg d p) s tr) ∧ (Ready (.mxpush a p) s → Traps (.mxpush a p) s tr) ∧
      (Ready (.mxscl a p) s → Traps (.mxscl a p) s tr) ∧ (Ready (.mxpushm a n p) s → Traps (.mxpushm a n p) s tr)) ∧
    (¬holds → Gives (.mxclose p) s (s.finish 4 id)) ∧
    (holds → let rest := x.st.broken = false ∨ y.claim ≠ none
      (¬rest → Gives (.mxclose p) s ((s.releaseEnd e left).finish 4 id)) ∧
      (rest → y.closed = false → (∀ z ∈ y.cmds, z.2 ≠ .close) → Gives (.mxclose p) s (sent .close).stall) ∧
      (rest → y.closed = true ∨ (∃ z ∈ y.cmds, z.2 = .close) → Gives (.mxclose p) s s.stall)) ∧
    (let z := c.status[p]
     let w := z.word
     SetsS (.mxstat d p) s d w ∧ (z.rank < 2 ^ 16 → z.kdone < 2 ^ 16 → z.dropped < 256 → w.extractLsb' 48 16 = BitVec.ofNat 16 z.rank ∧
       w.extractLsb' 32 16 = BitVec.ofNat 16 z.kdone ∧ w.extractLsb' 24 8 = BitVec.ofNat 8 z.dropped ∧ w.extractLsb' 16 8 = z.rcause ∧
       w.getLsbD 10 = z.recvfault ∧ w.getLsbD 9 = z.parted ∧ w.getLsbD 8 = z.ovf ∧ w.extractLsb' 0 8 = BitVec.ofNat 8 z.st.code)) ∧
    Gives (.msetm a) s (s.finish 4 fun c =>
      { c with mrow := (c.sreg a).extractLsb' 0 16, mcol := (c.sreg a).extractLsb' 16 16 }) ∧
    (∀ j : Fin 4, d.val = j.val → s.me.bad = [] →
      let h := memRead s.me.mem (c.sreg a).toNat 4
      ((c.sreg a).toNat % 4 ≠ 0 → Ready (.skld d a) s → Traps (.skld d a) s { cause := 0x03, w3 := c.sreg a }) ∧
      ((c.sreg a).toNat % 4 = 0 → (c.sreg a).toNat + 4 ≤ 0x60000 →
        (4096 ≤ h → Ready (.skld d a) s → Traps (.skld d a) s { cause := 0x04, w3 := c.sreg a }) ∧
        (h < 4096 → h = 0 ∨ (c.sreg a).toNat + 4 + 2 * h ≤ 0x60000 →
          Gives (.skld d a) s (s.finish 4 fun c => { c with k := c.k.set j { addr := c.sreg a + 4, count := h } })))) ∧
    (d.val ≤ 7 → Ready (.accz d) s → ∃ t : State, exec (.accz d) s = .next t ∧ t.ctx = c.advance 4 ∧
      ∀ q : Nat, t.me.core.cell q = if q / 256 = d.val then 0 else s.me.core.cell q) ∧
    (7 < d.val → Ready (.accz d) s → Traps (.accz d) s { cause := 0x0E, w4 := BitVec.ofNat 64 d.val }) ∧
    (k.val ≤ 7 → r.val ≤ 15 →
      let q := 256 * k.val + 16 * r.val
      let co := s.me.core
      (∀ z j : Nat, j < 8 → (co.cells8 z).extractLsb' (32 * j) 32 = co.cell (z + j)) ∧
      (Legal (.accrd d k r) s →
        exec (.accrd d k r) s = .next (s.done 4 ((c.setVm d (co.cells8 q)).setVm (d + 1) (co.cells8 (q + 8))))) ∧
      (Legal (.accwr k d r) s → ∃ t : State, exec (.accwr k d r) s = .next t ∧ t.ctx = c.advance 4 ∧
        (∀ j : Nat, j < 8 → t.me.core.cell (q + j) = (mergeBytes c.enabled (co.cells8 q) (c.vreg d)).extractLsb' (32 * j) 32 ∧
          t.me.core.cell (q + 8 + j) = (mergeBytes c.enabled (co.cells8 (q + 8)) (c.vreg (d + 1))).extractLsb' (32 * j) 32) ∧
        ∀ z : Nat, z < q ∨ q + 16 ≤ z → t.me.core.cell z = co.cell z) ∧
      (∃ (w : VWord) (f : BitVec 5), SetsV (.acccvt d k r ty) s d w f ∧
        let n := laneBits ty
        let cell := fun (j : Nat) => (co.cell (q + j)).toInt
        let on := fun (j : Nat) => ∃ z, z < n / 8 ∧ c.enabled (n / 8 * j + z) = true
        let sets := fun (g : Nat → Nat) (h : Nat → BitVec 5) =>
          (∀ j : Nat, j < 16 → w.toNat / 2 ^ (n * j) % 2 ^ n = g j % 2 ^ n) ∧ w.toNat < 2 ^ (16 * n) ∧
          ∀ b, b < 5 → (f.getLsbD b = true ↔ ∃ j, j < 16 ∧ on j ∧ (h j).getLsbD b = true)
        (ty = tI8 ∨ ty = tN8 ∨ ty = tI16 ∨ ty = tN16 →
          let lo : Int := if isSigned ty then -(2 ^ (n - 1)) else 0
          let hi : Int := if isSigned ty then 2 ^ (n - 1) - 1 else 2 ^ n - 1
          sets (fun j => (max lo (min hi (cell j)) % 2 ^ n).toNat) fun j => if lo ≤ cell j ∧ cell j ≤ hi then 0 else 16) ∧
        (ty = tBF → sets (fun j => (packLane 0 tBF (co.cell (q + j)).toNat).1) fun j => (packLane 0 tBF (co.cell (q + j)).toNat).2) ∧
        (ty = tDP → sets (fun j => (dptEnc .rne (cell j) 0).1) fun j => (dptEnc .rne (cell j) 0).2))) ∧
    (∀ z : Int, (z < -128 → dptEnc .rne z 0 = (0xFF, 16)) ∧ (128 < z → dptEnc .rne z 0 = (0x77, 16)) ∧
      (-128 ≤ z → z ≤ 128 → let b := dptEnc .rne z 0
        (∀ g : Nat, g < 256 → (dpt8val b.1 - z).natAbs ≤ (dpt8val g - z).natAbs) ∧
          b.2 = if dpt8val b.1 = z then 0 else 1)) ∧
    (7 < k.val → let tr : Trap := { cause := 0x0E, w4 := BitVec.ofNat 64 k.val }
      (Legal (.accrd d k r) s → Traps (.accrd d k r) s tr) ∧ (Legal (.accwr k d r) s → Traps (.accwr k d r) s tr) ∧
      (Legal (.acccvt d k r ty) s → Traps (.acccvt d k r ty) s tr))

/-- Link engines (R107 to R111, R217, R220, R224, R226 to R228, R250): commands take effect when they arrive, but none while a pre-empted
stream waits for its acknowledgement (R229); a configured stream starts or breaks; a k-step of 8-bit elements adds to a sum clamped to
20 bits, which moves to the outer cell at each promotion point, scaled where the format is block-scaled; one of BF16 adds to the outer
cell; a finished stream holds its delivery, which is sent, applied to the receiver's bank beat by beat and acknowledged by its number,
or refused for a bank above 7 with a remote record; a pre-emption waits for that acknowledgement. -/
def Obligations.EngineEvents : Prop :=
  ∀ (s : State) (e : Nat), e < 15872 →
    let x := s.engine e
    let none' := fun (l : Bool) => (x.fin l).due s.cycle = []
    let calm := none' true ∧ none' false
    (∀ (l : Bool) (q : EngCmd), (x.fin l).due s.cycle = [q] → none' (!l) → x.parting.isSome = true →
      (s.engineArrivals s.cycle e).engine e = x.setFin l ((x.fin l).taken s.cycle)) ∧
    (∀ (l : Bool) (q : EngCmd), (x.fin l).due s.cycle = [q] → none' (!l) → x.st.broken = false → x.parting = none →
      let y := x.fin l
      let z := y.taken s.cycle
      let u := s.engineArrivals s.cycle e
      (q = .opens → y.claim ≠ none → (u.engine e).fin l = { z with held := y.claim, claim := none } ∧
        (u.engine e).st = if x.st = .idle then .halfOpen else x.st) ∧
      (∀ w m, q = .cfg w m → y.held ≠ none → y.claim = none →
        (y.cfg = none → (u.engine e).fin l = { z with cfg := some w, mask := m } ∧ (u.engine e).st = x.st) ∧
        (y.cfg ≠ none → u = (s.setEngine e (x.setFin l z)).breakStream e .config)) ∧
      (q = .close → y.held ≠ none → (u.engine e).fin l = { z with closed := true } ∧
        (u.engine e).st = if x.st = .streaming then .closing else x.st) ∧
      ((u.engine e).left.cfg = none ∨ (u.engine e).right.cfg = none → exec (.kStepConsume e) s = .next u)) ∧
    (∀ w : Word, calm → x.left.cfg = some w → x.right.cfg = some w → x.st = .halfOpen →
      (cfgValid w x.left.ver x.right.ver = true → (x.left.fifo ++ x.right.fifo).any Beat.isScale = false →
        ∃ t : State, exec (.kStepConsume e) s = .next t ∧
          t.engine e = { x with st := if x.left.closed || x.right.closed then .closing else .streaming }) ∧
      (cfgValid w x.left.ver x.right.ver = false → exec (.kStepConsume e) s = .next (s.breakStream e .config))) ∧
    (∀ w w' : Word, calm → x.left.cfg = some w → x.right.cfg = some w' → x.st = .halfOpen → w ≠ w' →
      exec (.kStepConsume e) s = .next (s.breakStream e .config)) ∧
    (∀ (w : Word) (vl vr : VWord) (rl rr : List Beat) (sl sr : List VWord),
      calm → x.left.cfg = some w → x.right.cfg = some w → x.st = .streaming → x.pending = none → x.parting = none →
      x.inner = [] ∨ x.inner.length = 256 → x.outer = [] ∨ x.outer.length = 256 → x.clamped = [] → x.k + 1 < cfgK w →
      x.left.list.count = 0 → x.right.list.count = 0 → x.left.nextk = x.k → x.right.nextk = x.k → x.left.scales = sl →
      x.right.scales = sr → (cfgBs w = false → sl = [] ∧ sr = []) →
      (cfgBs w = true → sl.length = x.k / 32 + 1 ∧ sr.length = x.k / 32 + 1 ∧ cfgP w = 32) →
      x.left.fifo = .data vl :: rl → x.right.fifo = .data vr :: rr → ∃ t : State, exec (.kStepConsume e) s = .next t ∧
        let z := t.engine e
        let val := fun (ty : Nat) (b : BitVec 8) => if ty = 10 ∨ ty = 12 then dpt8val b.toNat else b.toInt
        let at' := fun (ty : Nat) (v : VWord) (m : BitVec 16) (i : Nat) => if m.getLsbD i then val ty (v.extractLsb' (8 * i) 8) else 0
        let sum := fun (q : Nat) => x.inner.getD q 0 +
          at' (cfgTl w) vl x.left.mask (q / 16) * at' (cfgTr w) vr x.right.mask (q % 16)
        let inn := fun (q : Nat) => max (-(2 ^ 19 - 1)) (min (2 ^ 19 - 1) (sum q))
        let old := fun (q : Nat) => x.outer.getD q 0
        z.k = x.k + 1 ∧ z.kdone = x.k + 1 ∧
        (cfgInt w = true ∨ cfgBs w = true → z.left.fifo = .upper vl (x.k + 1) :: rl ∧ z.right.fifo = .upper vr (x.k + 1) :: rr ∧
          ((x.k + 1) % cfgP w ≠ 0 → z.outer = x.outer ∧ z.ovfs = x.ovfs ∧ ∀ q, q < 256 → z.inner.getD q 0 = inn q) ∧
          ((x.k + 1) % cfgP w = 0 → (∀ q, q < 256 → z.inner.getD q 0 = 0) ∧ z.clamped = [] ∧
            (cfgInt w = true → let wide := fun (q : Nat) => (old q).toInt + inn q
              let hit := fun (q : Nat) => inn q != sum q || decide (wide q < -(2 ^ 31)) || decide (2 ^ 31 - 1 < wide q)
              z.ovfs = x.ovfs + ((List.range 256).filter hit).length ∧
              ∀ q, q < 256 → z.outer.getD q 0 = BitVec.ofInt 32 (max (-(2 ^ 31)) (min (2 ^ 31 - 1) (wide q)))) ∧
            (cfgBs w = true → ∀ q, q < 256 →
              let a := ((sl.getD (x.k / 32) 0).extractLsb' (8 * (q / 16)) 8).toNat
              let b := ((sr.getD (x.k / 32) 0).extractLsb' (8 * (q % 16)) 8).toNat
              let o := unpack 24 (old q).toNat
              let add := faddX .rne o (FVal.ofInt (inn q) ((a : Int) + b - 254) false)
              z.outer.getD q 0 = if a = 255 ∨ b = 255 ∨ isNan o = true then 0x7FC00000 else BitVec.ofNat 32 (pack 24 .rne add.1).1))) ∧
        (cfgBf w = true → z.left.fifo = rl ∧ z.right.fifo = rr ∧ z.inner = x.inner ∧ ∀ q, q < 256 →
          let el := fun (v : VWord) (m : BitVec 16) (i : Nat) => if m.getLsbD i then (v.extractLsb' (16 * i) 16).toNat else 0
          let prod := fmulX (unpack 8 (el vl x.left.mask (q / 16))) (unpack 8 (el vr x.right.mask (q % 16)))
          z.outer.getD q 0 = BitVec.ofNat 32 (pack 24 .rne (faddX .rne prod.1 (unpack 24 (old q).toNat)).1).1)) ∧
    (∀ w : Word, calm → x.left.cfg = some w → x.right.cfg = some w → x.st = .streaming ∨ x.st = .closing → x.pending = none → x.parting = none →
      x.absorbed.look w (s.site (engLeft e)).mem (s.site (engRight e)).mem = .finish → ∃ (t : State) (d : Delivery), exec (.kStepConsume e) s = .next t ∧
        (t.engine e).pending = some (cfgRmem w, d) ∧ d.engine = e ∧ d.bank = cfgRbank w ∧ d.sem = cfgRsem w ∧ d.mode = cfgMode w ∧
        d.mrow = x.left.mask ∧ d.mcol = x.right.mask ∧ d.parted = false ∧ d.kdone = cfgK w) ∧
    (∀ (m : Nat) (d : Delivery), x.pending = some (m, d) → x.sent = false →
      (∀ v : Nat, s.memberTile (engLeft e) m = some v → s.isOff v = false → d.bank ≤ 7 → ∃ t : State, exec (.deliverySend e) s = .next t ∧
        t.engine e = { x with sent := true, num := s.fresh } ∧
        t.injected { src := engLeft e, dst := v, vc := 1, body := 32, load := .delivery { d with num := s.fresh } }) ∧
      (∀ v : Nat, s.memberTile (engLeft e) m = some v → s.isOff v = false → 7 < d.bank →
        let r : Rec := [BitVec.ofNat 64 (30 * 2 ^ 16 + 2 ^ 15 + 7 * 2 ^ 8 + 0x0E), 0, 0, 0, BitVec.ofNat 64 d.bank,
          BitVec.ofNat 64 (engRank e), 0, BitVec.ofNat 64 s.cycle]
        exec (.deliverySend e) s = .next ((s.sendTo (engLeft e) v 1 2 (.remote r (engLeft e))).closeStream e 0x0E)) ∧
      (s.memberTile (engLeft e) m = none → exec (.deliverySend e) s = .next (s.closeStream e 0x08)) ∧
      (∀ v : Nat, s.memberTile (engLeft e) m = some v → s.isOff v = true → exec (.deliverySend e) s = .next (s.closeStream e 0x0F))) ∧
    (∀ (t : Nat) (p : Pkt) (rest : List Pkt) (d : Delivery), Live s t → (s.site t).rxDel = p :: rest → p.load = .delivery d → d.beat < 32 →
      d.cells.length = 256 → (s.site t).core.badAcc = [] → ∃ v : State, exec (.deliveryApply t) s = .next v ∧
        (d.beat < 31 → (v.site t).rxDel = { p with load := .delivery { d with beat := d.beat + 1 } } :: rest ∧
          (v.site t).core.sem = (s.site t).core.sem) ∧
        (d.beat = 31 → (v.site t).rxDel = rest ∧ v.injected { src := t, dst := p.src, vc := 1, body := 0, load := .delAck d.engine d.num } ∧
          (d.parted = true → (v.site t).core.sem = (s.site t).core.sem) ∧
          (d.parted = false → (s.site t).core.waiters = [] → ∀ i : Fin 16, d.sem = i.val →
            ((v.site t).core.sem[i]).toNat = min (2 ^ 32 - 1) ((s.site t).core.sem[i].toNat + 1))) ∧
        ∀ q : Nat, let old := (s.site t).core.cell q
          let new := d.cells.getD (q % 256) 0
          (v.site t).core.cell q =
            if q / 256 = d.bank ∧ q % 256 / 8 = d.beat ∧ d.mrow.getLsbD (q % 256 / 16) = true ∧ d.mcol.getLsbD (q % 16) = true then
              (if d.mode = 1 then old + new else if d.mode = 2 then deliverCell 2 old new else new)
            else old) ∧
    (∀ (l r : List Pkt) (p : Pkt) (num : Nat), (s.site (engLeft e)).rxResp = l ++ p :: r → p.load = .delAck e num →
      (∀ q ∈ l, ∀ n, q.load ≠ .delAck e n) → ∃ t : State, exec (.deliveryAck e) s = .next t ∧ (t.site (engLeft e)).rxResp = l ++ r ∧
        (x.num ≠ num → t.engine e = x) ∧ (x.num = num → x.sent = true → t.engine e = {}) ∧
        ∀ left, x.num = num → x.sent = false → x.parting = some left → (t.engine e).parting = none ∧ (t.engine e).pending = none)

/-- The ballast shadow (R317 to R324, R327, R330, R333, R335, R338, R340): trickle and commit leave the committed copy of every line; the
commit cycle captures contexts and dirty lines; its word makes it the last commit, and the fences that it makes good are
answered; a tile halted meanwhile is gated only by a later one. A loss drops what the NI held but journals a PERSIST message, and a
resume restores the last valid commit; a waking tile that has none fails its launch, or is ON if it has been released. A rollback takes
an own-cause halt since the commit with it. That the lines are captured and the dirty set emptied in the commit cycle (log 41), that a
gate's commit waits for what the tile has accepted (log 37), that entries on their way to q6 are lost with the power (log 77) and which
free tile takes over (spareOf, log 56) are the model's choices. -/
def Obligations.BallastEvents : Prop :=
  ∀ (s : State) (t : Nat), isTile t = true →
    let x := s.site t
    let b := x.ballast
    let up := Live s t
    let copyOf := fun (b : Ballast) l n => slotFor (mapGet? b.slotA l) (mapGet? b.slotB l) n
    let isBlock := fun (b : Ballast) (n : Nat) (k : Block) => (if n % 2 = 0 then b.blkA else b.blkB) = some k
    let valid := fun (w : CommitWord) (k : Block) => b.newest t = some w ∧ isBlock b w.seq k ∧ k.ok = true ∧ k.seq = w.seq
    let back := fun (v : State) (w : CommitWord) (k : Block) =>
      (v.site t).powered = true ∧ (v.site t).ballast.last = w.seq ∧ (v.site t).ballast.resumes = b.resumes + 1 ∧
        (∀ c : Fin 4, (v.ctxAt t c).s = k.core.ctxs[c].s ∧ (v.ctxAt t c).v = k.core.ctxs[c].v ∧ (v.ctxAt t c).pc = k.core.ctxs[c].pc) ∧
        (b.journal = [] → (∀ e ∈ b.slotA ++ b.slotB, e.2.data.length = 256) → ∀ l y, l < 1536 → copyOf b l w.seq = some y →
          memBytes (v.site t).mem (256 * l) 256 = y.data)
    (∀ l rest, up → b.dirty = l :: rest → x.rollback = false → x.bad = [] → b.st = .idle ∨ (∃ r, b.st = .requested r) →
      ∃ v : State, exec (.trickle t) s = .next v ∧ (v.site t).ballast.dirty = rest ∧ (v.site t).mem = x.mem ∧
        (let y : LineSlot := { seq := b.last + 1, data := memBytes x.mem (256 * l) 256, ok := true }
         mapGet? (v.site t).ballast.slotA l = some y ∨ mapGet? (v.site t).ballast.slotB l = some y) ∧
        ∀ j, copyOf (v.site t).ballast j b.last = copyOf b j b.last) ∧
    (∀ r, up → b.st = .requested r → x.rollback = false → x.bad = [] → x.core.badWords = [] →
      (s.commitBlocked t = true ∨ s.commitEarly t = true → exec (.commit t) s = .next s) ∧
      (s.commitBlocked t = false → s.commitEarly t = false → ∃ v : State, exec (.commit t) s = .next v ∧ (v.site t).mem = x.mem ∧ (v.site t).core = x.core ∧
        (v.site t).ballast.st = .writing (b.last + 1) s.cycle b.dirty.length b.journal.length ∧ (v.site t).ballast.dirty = [] ∧
        isBlock (v.site t).ballast (b.last + 1) { seq := b.last + 1, core := s.capture t, ok := true } ∧
        ∀ j, copyOf (v.site t).ballast j b.last = copyOf b j b.last)) ∧
    (∀ n cyc d j, up → b.st = .writing n cyc d j → ∃ v : State, exec (.commitComplete t) s = .next v ∧
      (let w : CommitWord := { seq := n, epoch := b.epoch, cycle := cyc, tile := t, lines := d, ok := true }
       (if n % 2 = 0 then (v.site t).ballast.wordA else (v.site t).ballast.wordB) = some w) ∧
      (v.site t).ballast.last = n ∧ (v.site t).ballast.journal = b.journal.drop j ∧ (v.site t).mem = x.mem ∧
      (v.site t).ballast.st = (if b.merged then .requested s.cycle else .idle) ∧
      ∀ a ∈ b.askers, a.seq ≤ n → v.sends { src := t, dst := a.site, vc := 1, body := 0, load := .persisted a.ctx a.member a.num }) ∧
    (∀ n cyc d j, up → b.st = .writing n cyc d j → x.halted = true → x.newTile = false → x.gate.st = .committing →
      ∃ v : State, exec (.commitComplete t) s = .next v ∧ (v.site t).gate.st = .committing) ∧
    (up → b.st = .idle → x.gate.st = .committing → x.newTile = false →
      exec (.commitComplete t) s = .next (if x.halted = true then s else s.askCommit t)) ∧
    (let iv := mapGetD s.commitIv (tileDie t) 64
     let writing := ∃ n c d j, b.st = .writing n c d j
     up → (iv ≠ 0 → x.halted = false → x.krn.launch.isSome = true → ¬writing → b.lastAt + 12800 * iv ≤ s.cycle →
         exec (.autoCommitInterval t) s = .next (s.modSite t fun x => { x with ballast := b.ask s.cycle })) ∧
       (iv = 0 ∨ x.halted = true ∨ writing ∨ s.cycle < b.lastAt + 12800 * iv → exec (.autoCommitInterval t) s = .next s)) ∧
    (∀ p rest u c m n, up → x.rxPst = p :: rest → p.load = .persist u c m n → ∃ v : State, exec (.persistRequest t) s = .next v ∧
      (v.site t).rxPst = rest ∧
      let a : Asker := { site := u, ctx := c, member := m, num := n, seq := b.nextSeq }
      (v.site t).ballast = ({ b with askers := b.askers ++ [a] } : Ballast).ask s.cycle) ∧
    (up → ∃ v : State, exec (.powerLoss t) s = .next v ∧ (v.site t).powered = false ∧ (v.site t).lostAt = s.cycle ∧ t ∈ v.marks ∧
      t ∈ v.haltBits ∧ (v.site t).svc = [] ∧ (v.site t).rxMsg = [] ∧ (v.site t).rxResp = [] ∧ (v.site t).vland = [] ∧ (v.site t).mem = x.mem ∧
      (x.rxMsg = [] → (v.site t).ballast = b) ∧
      ∀ p hdr beats a, x.rxMsg = [p] → p.load = .msg hdr beats → x.core.findRun beats.length = some a →
        (v.site t).ballast = if entPersist (x.entry (hdrChan hdr)) then
          { b with journal := b.journal ++ [{ hdr := hdr, beats := beats, addr := a }] } else b) ∧
    (∀ w k, valid w k →
      (x.powered = false → x.gate.st = .on → ∃ v : State, exec (.resume t) s = .next v ∧ back v w k) ∧
      (x.gate.st = .waking → x.gate.offReq = false → x.gate.sleepReq = false → ∃ v : State, exec (.resume t) s = .next v ∧ back v w k ∧
        (v.site t).gate.st = .on) ∧
      (x.rollback = true → up → ∃ v : State, exec (.eccRollback t) s = .next v ∧ back v w k ∧ (v.site t).rollbacks = x.rollbacks ++ [s.cycle] ∧
        (x.ownHalt = true → w.cycle < x.ownAt → x.heldg = 0 → (v.site t).halted = false ∧ (v.site t).ownHalt = false)) ∧
      (∀ u, x.powered = false → x.halted = false → x.lostAt + 1600000 ≤ s.cycle → s.spareOf t = some u → ∃ v : State, exec (.powerReturnTimeout t) s = .next v ∧
        back v w k ∧ v.placeOf t = u ∧ (v.site t).migrated = true ∧ s.placeOf t ∈ v.boot.excluded) ∧
      (x.powered = false → x.halted = true ∨ s.cycle < x.lostAt + 1600000 → exec (.powerReturnTimeout t) s = .next s)) ∧
    (x.rollback = false → exec (.eccRollback t) s = .next s) ∧
    (x.gate.st = .waking → s.resumeTile t = none → exec (.resume t) s = .next (if x.krn.launch = none then s.woken t else s.loseTile t)) ∧
    (x.powered = false → x.halted = false → b.newest t = none → s.spareOf t = none → exec (.powerReturnTimeout t) s = .next (s.loseTile t))

/-- Gates (R138, R145, R299, R325, R326, R330, R331): requests are accepted one by one; a quiesced tile commits and later
packets wait in the halt-hold buffer; one for a SLEEP tile wakes it, one for an OFF tile is refused, and a running tile takes
them in order. How a request changes a SLEEP that has begun (`moved`, log 37), what OFF does to one (log 59), that OFF at a WAKING tile
sets REQ (log 115), and the acknowledgement of a posted refused request with GATED (log 38) are the model's choices; SLEEP at a WAKING
tile is R330's. -/
def Obligations.GateEvents : Prop :=
  ∀ (s : State) (t : Nat), isTile t = true →
    let x := s.site t
    let g := x.gate
    let moved := fun (m : Nat) => match g.st with
      | .on => if m = 1 then { g with st := .quiescing, sleepReq := true } else g
      | .quiescing | .committing =>
        if g.offReq then g else { g with sleepReq := decide (m = 1), cancel := decide (m ≠ 1) }
      | .sleep => if m = 1 then g else { g with st := .waking }
      | .off => g
      | .waking => if m = 1 then { g with sleepReq := true } else g
    (∀ m rest, m < 2 → (g.reqs = { mode := m, src := none } :: rest → ∃ v : State, exec (.gateRequestAccept t) s = .next v ∧
        (v.site t).gate = { moved m with reqs := rest } ∧ (g.st = .on → m = 1 → (v.site t).quiesce = true)) ∧
      ∀ u (c : Fin 4) id o, g.reqs = { mode := m, src := some (u, c.val, id) } :: rest → (s.ctxAt u c).st = .stalled →
        (s.ctxAt u c).wait = .resp id .none 4 o → ∃ v : State, exec (.gateRequestAccept t) s = .next v ∧
          (v.site t).gate = { moved m with reqs := rest } ∧ v.ctxAt u c = (s.ctxAt u c).advance 4) ∧
    (g.reqs = [] → ∃ v : State, exec (.gateOff t) s = .next v ∧
      (g.st = .on → (v.site t).gate = { g with st := .quiescing, offReq := true, sleepReq := true } ∧ (v.site t).quiesce = true) ∧
      (g.st = .quiescing ∨ g.st = .committing → (v.site t).gate = { g with offReq := true, cancel := false }) ∧
      (g.st = .waking → (v.site t).gate = { g with offReq := true, sleepReq := true }) ∧
      (g.st = .sleep → (v.site t).gate.st = .off ∧ t ∈ v.marks ∧ (v.site (partnerOf t)).frozen = true) ∧
      (g.st = .off → (v.site t).gate = g)) ∧
    (g.reqs = [] → ∃ v : State, exec (.gateOn t) s = .next v ∧
      (v.site t).gate = if g.st = .off then { g with st := .waking } else moved 0) ∧
    (Live s t → g.st = .quiescing →
      (s.quiet t = true → ∃ v : State, exec (.gateQuiesced t) s = .next v ∧ (v.site t).gate.st = .committing ∧ t ∈ v.marks ∧
        (v.site t).ballast = x.ballast.ask s.cycle) ∧
      (s.quiet t = false → exec (.gateQuiesced t) s = .next s)) ∧
    (g.st = .sleep → (∃ h ∈ s.holdBuf, h.2.dst = t) → exec (.sleepWake t) s = .next (s.setGate t fun g => { g with st := .waking })) ∧
    (g.st ≠ .sleep ∨ (∀ h ∈ s.holdBuf, h.2.dst ≠ t) → exec (.sleepWake t) s = .next s) ∧
    (∀ l d p r, s.holdBuf = l ++ (d, p) :: r → p.dst = t → (∀ h ∈ l, h.2.dst ≠ t) →
      (x.live = true → s.niTakes p = true → exec (.haltHoldDelivery t) s = .next (({ s with holdBuf := l ++ r }.arrive p).unmark t)) ∧
      (x.live = true → s.niTakes p = false → exec (.haltHoldDelivery t) s = .next (s.pressJournal p)) ∧
      (∀ q, g.st = .off → p.load = .far q → ∃ v : State, exec (.haltHoldDelivery t) s = .next v ∧ v.holdBuf = l ++ r ∧
        (let tr : Trap := { cause := 0x0F, w3 := x.reportAddr q, w4 := BitVec.ofNat 64 x.krn.member }
         let load := if q.op.posted then Load.ack q.ctx t q.id (some tr) else Load.resp q.ctx q.id { trap := some tr }
         v.injected { src := t, dst := q.site, vc := 1, body := 0, load := load }))) ∧
    (∀ c : Fin 4, Live s t → x.quiesce = true → x.halted = false → x.haltReq = false →
      let y := s.ctxAt t c
      let mine := fun (z : EngEnd) => z.held = some (t, c.val) ∨ z.claim = some (t, c.val)
      (y.st = .migrating → (∀ e, ¬mine (s.engine e).left ∧ ¬mine (s.engine e).right) →
        exec (.quiescePoint t c.val) s = .next (s.setCtxAt t c { y with st := .saved })) ∧
      (y.st = .migrating → s.partingAt t c = true → ∃ v : State, exec (.quiescePoint t c.val) s = .next v ∧
        ((v.ctxAt t c).st = .migrating ∨ (v.ctxAt t c).st = .saved)) ∧
      (y.st = .running ∨ y.st = .stalled ∨ y.st = .dormant ∨ y.st = .empty →
        (s.atRest t c = false → exec (.quiescePoint t c.val) s = .next s) ∧
        (s.atRest t c = true → ∃ v : State, exec (.quiescePoint t c.val) s = .next v ∧ (v.ctxAt t c).st = .migrating ∧
          (v.ctxAt t c).prior = y.st ∧ (v.ctxAt t c).s = y.s ∧ (v.ctxAt t c).v = y.v ∧ (v.ctxAt t c).pc = y.pc)))

/-- The launch unit (R42 to R44, R168, R171 to R177, R184, R340, R351, R354): registration, queues, placement, loading with commit 1
and the channel-0 messages, abort, completion after two equal quiet rounds or the chained successor, and migration of a tile at
rest. The handle bits (log 24), how a doorbell gives descriptors and the tails of the helm's queues (logs 27 and 73), the channel-0
message on VC0 (log 25), a round once per grid point (log 28), an abort at once before RUNNING (log 58), and the wait of a chain for its
members (log 44) are the model's choices, and so is that the work of a SLEEP or OFF tile moves with its area (log 91). -/
def Obligations.LaunchEvents : Prop :=
  ∀ (s : State),
    let over' := fun (v : State) (l : Nat) (la : Launch) (st : Nat) => (∀ e ∈ v.launches, e.1 ≠ l) ∧ (∀ p ∈ v.sumac.preset, p.1 ≠ l) ∧
      ∀ te, mapGet? s.tenants la.tenant = some te → ∃ te', mapGet? v.tenants la.tenant = some te' ∧
        te'.comps = te.comps ++ [completionRec la st (if la.handle = 0 then la.desc.handle else la.handle)] ∧
        te'.vectors = te.vectors ++ [la.queue] ∧
        mapGetD te'.events la.desc.event 0 = mapGetD te.events la.desc.event 0 + 1
    (∀ n f, n < 16 → s.boot.stoppedAt.isSome = true → exec (.kernelRegister n f) s = .next s) ∧
    (∀ n f, n < 16 → s.boot.stoppedAt = none → ∃ (v : State) (h : BitVec 32), exec (.kernelRegister n f) s = .next v ∧ v.kernels = s.kernels ++ [{ handle := h, tenant := n, file := f }] ∧
      h.toNat / 2 ^ 28 = n ∧ h ≠ 0 ∧ v.sites = s.sites) ∧
    (∀ h, ((∀ e ∈ s.launches, e.2.nominee ≠ some h) → ∃ v : State, exec (.kernelUnregister h) s = .next v ∧
        v.kernels = s.kernels.map fun k => if k.handle = h then { k with gone := true } else k) ∧
      ((∃ e ∈ s.launches, e.2.nominee = some h) → exec (.kernelUnregister h) s = .next s)) ∧
    (∀ (n q tail : Nat) (ds : List (List Byte)) (te : Tenant), n < 32 → q < 16 → mapGet? s.tenants (n % 16) = some te →
      let pos := (if n < 16 then te.counts else te.hcounts).getD q 0
      tail = pos + ds.length →
      ((s.queueOf n q).length + ds.length ≤ 256 → ∃ v : State, exec (.launchDoorbell n q tail ds) s = .next v ∧
        mapGet? v.tenants (n % 16) =
          some (if n < 16 then { te with counts := te.counts.set q tail } else { te with hcounts := te.hcounts.set q tail }) ∧
        v.launches.length = s.launches.length + ds.length ∧ v.launches.take s.launches.length = s.launches ∧
        ∀ i, i < ds.length → ∃ la : Launch, v.launches[s.launches.length + i]? = some (s.nextL + i, la) ∧ la.st = .queued ∧
          la.tenant = n % 16 ∧ la.queue = q ∧ la.pos = pos + i ∧ la.desc = launchDesc (ds.getD i [])) ∧
      (256 < (s.queueOf n q).length + ds.length → ∃ v : State, exec (.launchDoorbell n q tail ds) s = .next v ∧ v.launches = s.launches)) ∧
    (∀ (n q : Nat) (te : Tenant) (l : Nat) (la : Launch), n < 32 → q < 16 → mapGet? s.tenants (n % 16) = some te → la.st = .queued →
      (s.queueOf n q).find? (fun e => e.2.st == .queued || e.2.st == .placing || e.2.st == .loading) = some (l, la) →
      (te.meets la.desc.deps = false ∨ s.itsTurn n q = false → exec (.launchPlace n q) s = .next s) ∧
      (te.meets la.desc.deps = true → s.itsTurn n q = true →
        (s.launchStatus la la.desc.handle ≠ 0 → ∃ v : State, exec (.launchPlace n q) s = .next v ∧
          over' v l la (s.launchStatus la la.desc.handle)) ∧
        (∀ (k : Kernel) (ms : List Nat) (r c : Nat), s.launchStatus la la.desc.handle = 0 → s.kernel la.desc.handle = some k → ms.Nodup →
          (s.findGroup (n % 16) la.desc.place k.file fun _ => true).isSome = true →
          s.findGroup (n % 16) la.desc.place k.file s.isFree = some (ms, r, c) → s.needsDown ms = false →
          ∃ (v : State) (x : Launch), exec (.launchPlace n q) s = .next v ∧ mapGet? v.launches l = some x ∧ x.st = .loading ∧ x.members = ms ∧
            x.rows = r ∧ x.cols = c ∧ ∀ j t, ms[j]? = some t → (v.site t).krn.launch = some l ∧ (v.site t).krn.member = j))) ∧
    (∀ (l : Nat) (la : Launch) (k : Kernel), mapGet? s.launches l = some la → la.st = .loading → s.kernel la.handle = some k →
      let pid := pidOf (mapGet? s.tenants la.tenant) la.queue
      (s.argHeld pid la.desc.argva k.file.argSize = true → exec (.launchLoadComplete l) s = .next s) ∧
      ((∃ t ∈ la.members, (s.site t).powered = false) → exec (.launchLoadComplete l) s = .next s) ∧
      (s.argHeld pid la.desc.argva k.file.argSize = false → (∀ t ∈ la.members, (s.site t).powered = true) →
      (s.argBlock pid la.desc.argva k.file.argSize = none ∨ k.unreadable = true →
        exec (.launchLoadComplete l) s = .next ((s.argError pid la.desc.argva k.file.argSize).endLaunch l la 8) ∧
        (s.badPhys = [] → ∃ v : State, exec (.launchLoadComplete l) s = .next v ∧ over' v l la 8)) ∧
      (∀ args : List Byte, s.argBlock pid la.desc.argva k.file.argSize = some args → k.unreadable = false → la.members.Nodup →
        ∃ (v : State) (x : Launch),
        exec (.launchLoadComplete l) s = .next v ∧ mapGet? v.launches l = some x ∧ x.st = .running ∧ x.members = la.members ∧
        ∀ j t, la.members[j]? = some t → (v.site t).ballast.last = 1 ∧ (v.site t).krn.member = j ∧ (v.site t).krn.pid = pid ∧
          (v.site t).core.htab = KernelFile.table k.file ∧ (v.site t).imgSize = k.file.imgSize ∧
          v.sends { src := helmDie, dst := t, vc := 0, body := 1, load := .msg (mkHdr 0 2 16 1 0) [launchBeat la] }))) ∧
    (∀ (l : Nat) (la : Launch), mapGet? s.launches l = some la →
      (la.st = .queued ∨ la.st = .placing ∨ la.st = .loading → ∃ v : State, exec (.launchAbort l) s = .next v ∧ over' v l la 8) ∧
      (la.st = .running → ∃ (v : State) (x : Launch), exec (.launchAbort l) s = .next v ∧ mapGet? v.launches l = some x ∧ x.st = .failed ∧
        x.draining = true ∧ ∀ t ∈ la.members, (v.site t).quiesce = true)) ∧
    (s.cycle / 128 = s.round → exec .completionRound s = .next s) ∧
    (∀ (l : Nat) (la : Launch), s.cycle / 128 ≠ s.round → s.launches = [(l, la)] → la.st = .running →
      let sums := s.sums l la.members
      let quiet := ∀ t ∈ la.members, s.memberQuiet t = true
      (¬quiet → ∃ v : State, exec .completionRound s = .next v ∧ v.launches = [(l, { la with quietAt := none })] ∧ v.sites = s.sites) ∧
      (quiet → la.quietAt ≠ some sums ∨ sums.1 ≠ sums.2 →
        ∃ v : State, exec .completionRound s = .next v ∧ v.launches = [(l, { la with quietAt := some sums })] ∧ v.sites = s.sites) ∧
      (quiet → la.quietAt = some sums → sums.1 = sums.2 →
        (la.nominee = none → ∃ v : State, exec .completionRound s = .next v ∧ over' v l la 0) ∧
        (la.nominee ≠ none → (∃ t ∈ la.members, (s.site t).unready = true) → ∃ v : State, exec .completionRound s = .next v ∧
          v.launches = s.launches ∧ ∀ t ∈ la.members, (s.site t).gate.st = .sleep → (v.site t).gate.st = .waking) ∧
        (∀ (h : BitVec 32) (k p : Kernel) (args : List Byte), la.nominee = some h → s.kernel h = some k → s.kernel la.handle = some p → headerStatus k.file = 0 →
          otherShape la k.file = false → k.unreadable = false → (∀ t ∈ la.members, (s.site t).unready = false) →
          s.argHeld (pidOf (mapGet? s.tenants la.tenant) la.queue) la.desc.argva k.file.argSize = false →
          s.argBlock (pidOf (mapGet? s.tenants la.tenant) la.queue) la.desc.argva k.file.argSize = some args →
          ∃ (v : State) (x : Launch), exec .completionRound s = .next v ∧ mapGet? v.launches l = some x ∧ x.handle = k.handle ∧ x.prevH = la.handle ∧
            x.chain = la.chain + 1 ∧ x.nominee = none ∧ x.st = .running ∧ x.members = la.members))) ∧
    (∀ t u, isTile t = true → isTile u = true → (s.site t).unfit = false → (s.site t).unwell s.cycle = false →
      exec (.healthMigration t u) s = .next s) ∧
    (∀ (t u : Nat) (i : Instr), isTile t = true → isTile u = true → t ≠ u → i = Instr.liveMigration t u ∨ i = Instr.healthMigration t u →
      let x := s.site t
      (i = .healthMigration t u → x.unfit = true ∨ x.unwell s.cycle = true) →
      let r := if i = .liveMigration t u ∨ x.unfit = true then s else s.modSite t fun x => { x with unfit := true }
      (i = .healthMigration t u → r.refuge t u = false → exec i s = .next r) ∧
      ((i = .healthMigration t u → r.refuge t u = true) →
        (x.krn.launch).isSome = true → x.newTile = false → r.isFree u = true → x.up = true → s.placeOf t ≠ u →
        (x.gate.st = .on → x.halted = false → x.ballast.writing = false →
          (x.quiesce = false → exec i s = .next (r.modSite t fun x => { x with quiesce := true })) ∧
          (x.quiesce = true → r.quiet t = false → exec i s = .next r) ∧
          (x.quiesce = true → r.quiet t = true → ∃ v : State, exec i s = .next v ∧ v.placeOf t = u ∧ (v.site t).migrated = true ∧
            (v.site t).newTile = true ∧ (v.site t).mem = x.mem ∧ (v.site t).ballast.dirty = List.range 1536 ∧
            (v.site t).ballast.wordA = none ∧ (v.site t).ballast.wordB = none ∧ v.isFree u = false ∧
            (i = .healthMigration t u → s.placeOf t ∈ v.boot.excluded ∧ (v.site t).unfit = false))) ∧
        (x.gate.st = .on → x.halted = true → exec i s = .next r)) ∧
      ((i = .healthMigration t u → r.refuge t u = true) → (x.krn.launch).isSome = true → x.newTile = false → r.isFree u = true →
        x.powered = true → s.placeOf t ≠ u → x.gate.st = .sleep ∨ x.gate.st = .off → ∃ v : State, exec i s = .next v ∧
          v.placeOf t = u ∧ (v.site t).migrated = true ∧ (v.site t).gate = x.gate ∧ (v.site t).ballast = x.ballast))

/-- Span ports and bridges (R306 to R309, R358): training, lanes, peers and loss move a port between its states; a stop of the span
engine is reported to the peers; a good frame in sequence is delivered, but a release notice waits behind the landings that it would pass
(log 113), a repeated one only acknowledged again, and a bad or an early one asked for again; a bridge degrades, then goes down with the launches that need it. How frames, acknowledgements, replays and reports
look (log 42), and which bridges a launch needs (log 47), are the model's choices. -/
def Obligations.SpanAndBridges : Prop :=
  ∀ (s : State) (p : Nat), p < 16 →
    let x := s.port p
    let runs := x.st = .up ∨ x.st = .degraded
    (x.st = .down → exec (.spanEnable p) s = .next
      (s.setPort p { x with st := .training, lanes := 0xFF, txSeq := 0, rxSeq := 0, replay := [] })) ∧
    (x.st ≠ .down → exec (.spanEnable p) s = .next s) ∧
    (∀ ls, x.st = .training →
      let n := lanesOf (ls &&& x.lanes)
      ∃ v : State, exec (.spanTrainingDone p ls) s = .next v ∧
        (n < 2 → v.port p = { x with st := .down, used := 0, replay := [], txq := [] }) ∧
        (2 ≤ n → (v.port p).st = (if n = 8 then .up else .degraded) ∧ (v.port p).used = (if n = 8 then 8 else if 4 ≤ n then 4 else 2) ∧
          (v.port p).lanes = ls &&& x.lanes ∧ ∃ fs, (v.port p).wire = x.wire ++ x.replay ++ fs) ∧
        (n = 8 → v.boot = s.boot) ∧ (n < 8 → v.boot.health ≠ .ok)) ∧
    (x.st = .training → ∃ v : State, exec (.spanTrainingTimeout p) s = .next v ∧
      v.port p = { x with st := .down, used := 0, replay := [], txq := [] }) ∧
    (∀ k, k < 8 → (runs → exec (.spanLaneFail p k) s = .next
        (s.setPort p { x with st := .training, lanes := x.lanes &&& ~~~(1#8 <<< k) })) ∧
      (¬runs → exec (.spanLaneFail p k) s = .next s)) ∧
    (runs → exec (.spanPeerHalt p) s = .next (s.setPort p { x with st := .haltHold, before := x.st })) ∧
    (x.st = .haltHold → exec (.spanPeerResume p) s = .next (s.setPort p ({ x with st := x.before } : SpanPort).resumed)) ∧
    (∀ i, i = Instr.spanPeerLost p ∨ i = Instr.spanDisable p → ∃ v : State, exec i s = .next v ∧
      v.port p = { x with st := .down, used := 0, replay := [], txq := [] } ∧ v.boot.health ≠ .ok ∧
      v.xfers = s.xfers.map fun t => if t.port = some p then { t with port := none } else t) ∧
    (let told := fun (l : SpanLoad) => if x.st = .up ∨ x.st = .degraded ∨ x.st = .haltHold then x.say l else x
     (∃ v : State, exec .spanEngineDebugStop s = .next v ∧ v.spanStop = true ∧ v.port p = told .halted ∧ v.sites = s.sites) ∧
     ∃ v : State, exec .spanEngineDebugResume s = .next v ∧ v.spanStop = false ∧ v.port p = told .resumed ∧ v.sites = s.sites) ∧
    (∀ f, s.spanStop = true ∨ (¬runs ∧ x.st ≠ .haltHold) → exec (.spanFrameReceive p f) s = .next s) ∧
    (∀ f, runs ∨ x.st = .haltHold → s.spanStop = false →
      (f.good = false → exec (.spanFrameReceive p f) s = .next (s.setPort p (x.say (.replay x.rxSeq)))) ∧
      (f.good = true → loadIsLink f.load = false → f.seq ≠ x.rxSeq → exec (.spanFrameReceive p f) s =
        .next (s.setPort p (x.say (if (x.rxSeq - f.seq).toNat < 2 ^ 15 then .ack (x.rxSeq - 1) else .replay x.rxSeq)))) ∧
      (f.good = true → f.load = .halted → exec (.spanFrameReceive p f) s =
        .next (s.setPort p (if x.st = .haltHold then x else { x with st := .haltHold, before := x.st }))) ∧
      (f.good = true → f.load = .resumed → exec (.spanFrameReceive p f) s =
        .next (s.setPort p (if x.st = .haltHold then ({ x with st := x.before } : SpanPort).resumed else x))) ∧
      (∀ n, f.good = true → f.load = .ack n → exec (.spanFrameReceive p f) s = .next (s.setPort p
        ({ x with replay := x.replay.filter fun g => !seqLe g.seq n } : SpanPort).pump)) ∧
      (∀ n, f.good = true → f.load = .replay n → exec (.spanFrameReceive p f) s = .next (s.setPort p
        { x with wire := x.wire ++ x.replay.filter fun g => seqLe n g.seq }))) ∧
    (∀ src n idx total pid tgt cnt bs, runs ∨ x.st = .haltHold → s.spanStop = false →
      let f : SpanFrame := { seq := x.rxSeq, good := true, load := .landing src s.device n idx total pid tgt cnt bs }
      (s.xrecs.find? fun r => r.src == src && r.num == n) = none → s.xrecs.length < 65536 →
      ∃ v : State, exec (.spanFrameReceive p f) s = .next v ∧ (v.port p).rxSeq = x.rxSeq + 1 ∧
        v.xrecs = s.xrecs ++ [{ src := src, num := n, got := [idx], done := 0 }] ∧ v.incoming = s.incoming ++
          [{ key := s.fresh, src := src, num := n, idx := idx, total := total, pid := pid, target := tgt, cnt := cnt, bytes := bs }]) ∧
    (∀ src dst n, runs ∨ x.st = .haltHold → s.spanStop = false → dst ≠ s.device →
      (∃ e ∈ s.spans, ∃ g ∈ e.2.replay, ∃ d idx total pid tgt cnt bs, g.load = .landing src d n idx total pid tgt cnt bs) →
      exec (.spanFrameReceive p { seq := x.rxSeq, good := true, load := .notice src dst n }) s = .next s) ∧
    (∀ src n, runs ∨ x.st = .haltHold → s.spanStop = false →
      ∃ v : State, exec (.spanFrameReceive p { seq := x.rxSeq, good := true, load := .notice src s.device n }) s = .next v ∧
        (v.port p).rxSeq = x.rxSeq + 1 ∧ v.xrecs = s.xrecs.filter fun r => !(r.src == src && r.num == n)) ∧
    (∀ to' n, runs ∨ x.st = .haltHold → s.spanStop = false →
      let f : SpanFrame := { seq := x.rxSeq, good := true, load := .done s.device to' n }
      ∃ v : State, exec (.spanFrameReceive p f) s = .next v ∧ (v.port p).rxSeq = x.rxSeq + 1 ∧
        v.xfers = s.xfers.map fun t => if t.num = n then { t with acked := true } else t) ∧
    (∀ b : Fin 8, (s.bridges[b] = .up → ∃ v : State, exec (.bridgeDegrade b.val) s = .next v ∧ v.bridges = s.bridges.set b .degraded ∧
        v.boot.health ≠ .ok) ∧
      (s.bridges[b] ≠ .up → exec (.bridgeDegrade b.val) s = .next s) ∧
      (s.bridges[b] = .degraded → ∃ v : State, exec (.bridgeDown b.val) s = .next v ∧ v.bridges = s.bridges.set b .down ∧
        v.boot.health = .replace ∧ ∀ (l : Nat) (la : Launch), s.launches = [(l, la)] → la.st = .running → b.val ∈ bridgesOf la.members → la.members ≠ [] →
          (mapGet? v.launches l).map (·.st) = some .failed) ∧
      (s.bridges[b] ≠ .degraded → exec (.bridgeDown b.val) s = .next s))

/-- Transfers and receive counters (R309 to R313): a transfer without a port is sent on a route that stands; an acknowledged one
sends its release notice once no port can still send a landing of it (log 113); a landing goes to its home in packets (log 74), is
performed there, and is counted when the home has acknowledged it; a fault abandons its transfer; the counter engine sets, adds, reads,
arms and fires in that order, but arms nothing for a tenant that is being deleted; a send that has fired has its source read, then leaves,
or ends with a fault. That its bytes for the own device become landings here at once, and how a destination is cut (log 43), that transfer
numbers count up (log 24), and that a landing whose group has ended is refused at the tile (log 114), are the model's choices. -/
def Obligations.TransfersAndCounters : Prop :=
  ∀ (s : State),
    let holds := fun (x : SpanPort) => x.replay.map (·.load) ++ x.txq
    (∀ (t : Transfer) p, s.xfers = [t] → s.routeTo t.dev = some p →
      (t.port = none → ∃ v : State, exec (.transferResend t.num.toNat) s = .next v ∧ v.xfers = [{ t with port := some p }] ∧
        holds (v.port p) = holds (s.port p) ++ t.loads s.device) ∧
      (t.port ≠ none → exec (.transferResend t.num.toNat) s = .next s) ∧
      (t.acked = true → t.noticed = false →
        let late := ∃ e ∈ s.spans, ∃ f ∈ e.2.replay, ∃ dst idx total pid tgt cnt bs, f.load = .landing s.device dst t.num idx total pid tgt cnt bs
        (¬late → ∃ v : State, exec (.transferAck t.num.toNat) s = .next v ∧
          v.xfers = [{ t with landings := [], noticed := true, port := some p }] ∧
          (holds (v.port p)).getLast? = some (.notice s.device t.dev t.num)) ∧
        (late → ∃ v : State, exec (.transferAck t.num.toNat) s = .next v ∧ v.xfers = [t])) ∧
      (t.acked = false → exec (.transferAck t.num.toNat) s = .next s)) ∧
    (∀ dev n p, n < 2 ^ 32 → s.routeTo dev = some p → ∃ v : State, exec (.releaseNotice dev n) s = .next v ∧
      (v.xrecs = s.xrecs.filter fun r => !(r.src == dev && r.num == BitVec.ofNat 32 n)) ∧
      holds (v.port p) = holds (s.port p) ++ [.noticed dev s.device (BitVec.ofNat 32 n)]) ∧
    (∀ i x, s.incoming[i]? = some x →
      let n := x.pid.toNat / 4096
      let t := (x.target.extractLsb' 32 13).toNat
      let a := (x.target.extractLsb' 0 19).toNat
      let abandons := ∃ v : State, exec (.landingCount i) s = .next v ∧ v.incs = s.incs ∧ v.counters = s.counters ∧
        (∀ u b, v.byteAt u b = s.byteAt u b) ∧ ∀ y ∈ v.incoming, y.src ≠ x.src ∨ y.num ≠ x.num
      (x.st = .fresh → x.target.extractLsb' 62 2 = 0 →
        (s.ownsCounter n x.cnt = true → x.cnt < 64 → s.activeOf t n = true → a + x.bytes.length ≤ 0x5C000 →
          s.isOff t = false → ∃ v : State, exec (.landingCount i) s = .next v ∧ v.incs = s.incs ∧ v.counters = s.counters ∧
            let ps := cutRanges (bits x.target.toNat 0 54) x.bytes.length 0 x.bytes.length
            v.incoming = s.incoming.set i { x with st := .sent (List.range ps.length) } ∧
            ∀ j o m, ps[j]? = some (o, m) → v.sends { src := helmDie, dst := t, vc := 3, body := (m + 31) / 32,
                                                      load := .cpWrite helmDie x.key j (a + o) ((x.bytes.drop o).take m) }) ∧
        (s.ownsCounter n x.cnt = false ∨ s.activeOf t n = false ∨ s.isOff t = true → abandons)) ∧
      (∀ left, x.st = .sent left → exec (.landingCount i) s = .next s) ∧
      (x.st = .answered 0 → x.src = s.device → exec (.landingCount i) s = .next
        { s with incoming := s.incoming.filter fun y => y.key != x.key, incs := s.incs ++ [(x.cnt, x.bytes.length)] }) ∧
      (∀ cause, cause ≠ 0 → x.st = .answered cause → abandons)) ∧
    (∀ a n o : Nat, ((cutRanges a n o n).map (·.2)).sum = n ∧ ∀ z ∈ cutRanges a n o n, 0 < z.2 ∧ (a + z.1) % 256 + z.2 ≤ 256) ∧
    (∀ (t : Nat) (p : Pkt) (rest : List Pkt) (u cmd piece a : Nat) (bs : List Byte), Live s t → (s.site t).svc = p :: rest →
      p.load = .cpWrite u cmd piece a bs →
      let lands := u ≠ helmDie ∨ ∃ i ∈ s.incoming, i.key = cmd ∧ s.activeOf t (i.pid.toNat / 4096) = true
      (lands → ∃ v : State, exec (.farRequestService t) s = .next v ∧
        s.storesOnly v t a (min 32 bs.length) ∧ memBytes (v.site t).mem a (min 32 bs.length) = bs.take 32 ∧
        (32 < bs.length → (v.site t).svc = { p with load := .cpWrite u cmd piece (a + 32) (bs.drop 32) } :: rest) ∧
        (bs.length ≤ 32 → (v.site t).svc = rest ∧
          v.injected { src := t, dst := u, vc := 1, body := 0, load := .cpAck cmd piece 0 })) ∧
      (¬lands → ∃ v : State, exec (.farRequestService t) s = .next v ∧ (∀ w b, v.byteAt w b = s.byteAt w b) ∧ (v.site t).svc = rest ∧
        v.injected { src := t, dst := u, vc := 1, body := 0, load := .cpAck cmd piece 0x08 })) ∧
    (∀ u (dst : Word) bs, 0 < u → ((cutLandings u dst bs bs.length 0).flatMap (·.bytes)) = bs ∧
      ∀ l ∈ cutLandings u dst bs bs.length 0, l.bytes ≠ [] ∧ l.target.toNat % u + l.bytes.length ≤ u) ∧
    (∀ c n, s.cntq = [] → s.armed = [] → s.firing = [] → s.incs = [(c, n)] → ∃ v : State, exec .counterEngineCycle s = .next v ∧ v.incs = [] ∧
      v.sites = s.sites ∧ ∀ k, v.counter k = if k = c then s.counter c + BitVec.ofNat 64 n else s.counter k) ∧
    (∀ (r q : CntReq) x n, r.op = .set x → q.op = .read → q.cnt = r.cnt → s.cntq = [q, r] → s.armed = [] → s.firing = [] → s.incs = [(r.cnt, n)] →
      ∃ v : State, exec .counterEngineCycle s = .next v ∧ v.counter r.cnt = x + BitVec.ofNat 64 n ∧ v.cntq = [] ∧
        v.sends { src := helmDie, dst := r.site, vc := 1, body := 0, load := .ack r.ctx helmDie r.id none } ∧
        (let y : Word := x + BitVec.ofNat 64 n
         v.sends { src := helmDie, dst := q.site, vc := 1, body := 0, load := .resp q.ctx q.id { val := y.zeroExtend 256 } })) ∧
    (∀ (r : CntReq) d thr, r.op = .arm d thr → s.cntq = [r] → s.armed = [] → s.firing = [] → s.incs = [] →
      (s.counter r.cnt).toNat < thr.toNat → ∀ te, mapGet? s.tenants r.tenant = some te →
      (te.leaving = false → ∃ v : State, exec .counterEngineCycle s = .next v ∧ v.counters = s.counters ∧
        v.armed = [{ d := d, cnt := r.cnt, thr := thr, tenant := r.tenant, pid := r.pid, home := r.home, site := r.site }]) ∧
      (te.leaving = true → ∃ v : State, exec .counterEngineCycle s = .next v ∧ v.counters = s.counters ∧ v.armed = [] ∧
        mapGet? v.tenants r.tenant = some { te with arms := te.arms - 1 })) ∧
    (∀ (a : Armed), s.cntq = [] → s.armed = [a] → s.firing = [] → s.incs = [] → a.thr.toNat ≤ (s.counter a.cnt).toNat →
      let ps := cutRanges (bits a.d.src.toNat 0 54) a.d.len 0 a.d.len
      ∃ (v : State) (f : Firing), exec .counterEngineCycle s = .next v ∧ v.armed = [] ∧ v.firing = [f] ∧ f.a = a ∧ f.key = s.fresh ∧
        f.parts.length = ps.length ∧ ∀ j o m, ps[j]? = some (o, m) →
          (∀ (x : Word) t, copySpace a.d.src = .scratch x → a.home = some t → f.parts[j]? = some none ∧
            v.sends { src := helmDie, dst := t, vc := 3, body := 0, load := .cpRead helmDie f.key j (x.toNat + o) m }) ∧
          (∀ x : Word, copySpace a.d.src = .global x → 2 ^ 54 ≤ x.toNat + o → f.parts[j]? = some (some ([], 0x07)))) ∧
    (∀ (f : Firing) (c : BitVec 8), s.cntq = [] → s.armed = [] → s.firing = [f] → s.incs = [] → f.parts = [some ([], c)] → c ≠ 0 →
      exec .counterEngineCycle s = .next (({ s with firing := [] } : State).sendError f.a.tenant c f.a.cnt f.a.d.src.toNat)) ∧
    (∀ (f : Firing), s.cntq = [] → s.armed = [] → s.firing = [f] → s.incs = [] → (∃ x ∈ f.parts, x = none) →
      exec .counterEngineCycle s = .next s) ∧
    (∀ (f : Firing) (bss : List (List Byte)), s.cntq = [] → s.armed = [] → s.firing = [f] → s.incs = [] →
      f.parts = bss.map (fun b => some (b, 0)) →
      let a := f.a
      let bs := bss.flatten
      ∃ v : State, exec .counterEngineCycle s = .next v ∧ v.firing = [] ∧ v.nextX = s.nextX + 1 ∧
        (a.d.sc = true → v.incs = [(a.d.scnt, a.d.len)]) ∧
        let u := if bits a.d.dst.toNat 62 2 = 0 then 256 else 2048
        let ls := cutLandings u a.d.dst bs bs.length 0
        (a.d.dev = s.device → v.incoming.map (fun x => (x.target, x.bytes)) =
          s.incoming.map (fun x => (x.target, x.bytes)) ++ ls.map fun l => (l.target, l.bytes)) ∧
        (a.d.dev ≠ s.device → ∃ t, v.xfers = s.xfers ++ [t] ∧ t.num = s.nextX ∧ t.dev = a.d.dev ∧ t.landings = ls ∧ t.acked = false))

/-- Power and routers (R45, R291, R294, R296, R299, R301, R341, R343 to R349): an interval boundary takes the pending grant, dividers and
voltages and refills the clusters, each with its own peak; windows throttle; after its 16 slots a frame gives way to one that hands out the
next; tokens of the operator's session are taken in order; a router moves one flit per output. One event per grid point (log 28), and the
rounding and the operands of the budget (log 33), are the model's choices. -/
def Obligations.PowerAndRouter : Prop :=
  ∀ (s : State),
    (∀ w pk, s.cycle / 12800 = s.interval → exec (.intervalBoundary w pk) s = .next s) ∧
    (∀ w pk, s.cycle / 12800 ≠ s.interval → ∃ v : State, exec (.intervalBoundary w pk) s = .next v ∧ v.power.grant = s.power.next ∧
      v.power.next = s.power.next ∧ v.interval = s.cycle / 12800 ∧ v.phys = s.phys ∧
      (let r := s.setRails
       ∀ cl k, mapGet? r.power.clusters cl = some k →
        let b := r.budgetOf (s.power.next - w) cl
        mapGet? v.power.clusters cl = some { k with budget := b, left := b, any := false, peak := min (mapGetD pk cl 10000) 10000 }) ∧
      (∀ t k, s.power.rails = [.divider t k] → isTile t = true → 1 ≤ k → k ≤ 16 → lowestMv k ≤ (s.cluster t).mv → (v.site t).divider = k) ∧
      (∀ cl mv, s.power.rails = [.voltage cl mv] → cl < 512 → mv % 10 = 0 → 550 ≤ mv → mv ≤ 850 → s.suits cl mv = true →
        ∃ k, mapGet? v.power.clusters cl = some k ∧ k.mv = mv) ∧
      v.power.rails = [] ∧
      ∀ t (ch : Fin 32), (v.site t).core.chq[ch].map (fun d => { d with atStart := false }) =
        (s.site t).core.chq[ch].map fun d => { d with deferred := false, atStart := false }) ∧
    (∀ cl e, cl < 512 →
      let k : Cluster := mapGetD s.power.clusters cl {}
      let n := if k.budget < 100 * e then min (k.level + 1) 15 else if 1000 * e < 9 * k.budget then k.level - 1 else k.level
      (s.cycle / 128 = k.window → exec (.throttleWindow cl e) s = .next s) ∧
      (s.cycle / 128 ≠ k.window → ∃ v : State, exec (.throttleWindow cl e) s = .next v ∧ v.sites = s.sites ∧
        mapGet? v.power.clusters cl = some { k with level := n, window := s.cycle / 128 })) ∧
    (∀ (x : Site) (now k n : Nat), 0 < x.divider → now = x.frameFrom + n * x.divider → x.slots + n ≤ 16 →
      let y := x.setDivider now k
      y.divider = k ∧ y.slots = x.slots + n ∧ (∀ m, y.frameOver m = true ↔ now + (16 - (x.slots + n)) * k ≤ m) ∧
      (∀ e, x.slotFrom = e + x.divider → now < x.slotFrom → y.slotFrom = e + k)) ∧
    (∀ t, Live s t → s.cycle < (s.site t).frameFrom + (16 - (s.site t).slots) * (s.site t).divider → exec (.frameBoundary t) s = .next s) ∧
    (∀ t, Live s t → (s.site t).frameFrom + (16 - (s.site t).slots) * (s.site t).divider ≤ s.cycle →
      ∃ v : State, exec (.frameBoundary t) s = .next v ∧ (v.site t).frameFrom = s.cycle ∧ (v.site t).issued = 0 ∧ (v.site t).slots = 0 ∧
      (v.site t).allow = (16 - if isTile t then (s.cluster t).level else 0) ∧
      (∀ c, (v.ctxAt t c).s = (s.ctxAt t c).s ∧ (v.ctxAt t c).pc = (s.ctxAt t c).pc ∧
        ((s.ctxAt t c).holds = false → (v.ctxAt t c).quota = 0)) ∧
      ((∃ c, (s.ctxAt t c).holds = true) → (v.ctxAt t 0).quota + (v.ctxAt t 1).quota + (v.ctxAt t 2).quota + (v.ctxAt t 3).quota =
        16 - if isTile t then (s.cluster t).level else 0)) ∧
    (∀ (i : Nat) (bs : List (BitVec 8)),
      let operator := ∃ x, s.sumac.sessions[i]? = some x ∧ x.who = .operator
      let seq : BitVec 32 := BitVec.ofNat 32 (field bs 0 4)
      let fine := bs.length = 16 ∧ ∀ b ∈ bs.drop 6, b = 0
      let newer' := s.power.seq = none ∨ ∃ q, s.power.seq = some q ∧ seq ≠ q ∧ (q - seq).toNat ≥ 2 ^ 31
      let p : Power := { s.power with seq := some seq, next := min 3000 (field bs 4 2), expiry := some (s.cycle + 160000000) }
      let used : State := { s with sumac := { s.sumac with
        sessions := s.sumac.sessions.modify i fun (x : Session) => { x with lastAt := s.cycle } } }
      (operator → fine → newer' → exec (.powerToken (i, bs)) s = .next { used with power := p }) ∧
      (¬operator ∨ ¬fine ∨ ¬newer' → exec (.powerToken (i, bs)) s = .next used)) ∧
    (∀ x, s.power.expiry = some x →
      (x ≤ s.cycle → exec .tokenExpiry s = .next { s with power := { s.power with next := 1800, expiry := none } }) ∧
      (s.cycle < x → exec .tokenExpiry s = .next s)) ∧
    (∀ t i v (f : Flit) p o, isTile t = true → i < 6 → v < 4 → s.router t = ({} : Router).setBuf i v [f] → f.pkt = some p →
      f.last = true → s.diverts t p = false → o = (routeStep f.route).1 →
      (o = 5 → onHelmDie p.dst = false →
        (s.niTakes p = true → ∃ r, exec (.routerArbitration t) s = .next ((s.setRouter t r).arrive p) ∧ r.buf i v = []) ∧
        (s.niTakes p = false → ∃ r, exec (.routerArbitration t) s = .next ((s.setRouter t r).pressJournal p) ∧
          r.buf i v = [{ f with age := f.age + 1 }])) ∧
      (o = 5 → onHelmDie p.dst = true → s.bridgeUp (4 + t / 2048) = true → ∃ u : State, exec (.routerArbitration t) s = .next u ∧
        (u.router t).buf i v = [] ∧ ((u.router t).bout[v]?).getD [] = [f]) ∧
      (o < 5 → across t o ≠ t →
        (s.credit t o v f p = true → ∃ u : State, exec (.routerArbitration t) s = .next u ∧ (u.router t).buf i v = [] ∧
          (u.router (across t o)).buf (opposite o) v = (s.router (across t o)).buf (opposite o) v ++
            [{ f with route := (routeStep f.route).2, age := 0 }]) ∧
        (s.credit t o v f p = false → ∃ r, exec (.routerArbitration t) s = .next (s.setRouter t r) ∧
          r.buf i v = [{ f with age := f.age + 1 }])))

/-- The Sumac server (R259, R338, R341, R342): sessions open and close; a client whose certificate check fails is answered DENIED; each
request is answered on its session with a status, and refused for another tenant's tile, a tile that runs, or a range outside what it
names. That SETGRP names a launch and how answers are laid out (log 48), that a STOP reaches every tile of its groups in its own step
(log 59) and the field heldg that says for which groups a tile is held (log 53) are the model's choices. -/
def Obligations.SumacRequests : Prop :=
  ∀ (s : State),
    (∀ w, s.sumac.sessions.length < 8 → s.boot.recovery = false ∨ w = .operator → ∃ v : State, exec (.sumacSession w true) s = .next v ∧
      v.sites = s.sites ∧
      v.sumac.sessions = s.sumac.sessions ++ [{ num := s.sumac.nextNum, who := w, lastAt := s.cycle, answers := [] }]) ∧
    (∀ w, 8 ≤ s.sumac.sessions.length ∨ (s.boot.recovery = true ∧ w ≠ .operator) → exec (.sumacSession w true) s = .next s) ∧
    (∀ w, exec (.sumacSession w false) s = .next { s with sumac := { s.sumac with denied := s.sumac.denied ++ [w] } }) ∧
    (∀ (i : Nat) (x : Session), s.sumac.sessions[i]? = some x →
      let answers := fun (v : State) (code st : Nat) (ws : List Word) =>
        v.sumac.sessions = s.sumac.sessions.set i { x with lastAt := s.cycle, answers := x.answers ++ [(code, st, ws)] }
      let refused := fun (q : Instr) (code st : Nat) => ∃ v : State, exec q s = .next v ∧ answers v code st [] ∧ v.sites = s.sites ∧ v.phys = s.phys
      let reads := fun (q : Instr) (code : Nat) (ws : List Word) =>
        ∃ v : State, exec q s = .next v ∧ answers v code 0 ws ∧ v.sites = s.sites ∧ v.phys = s.phys ∧ v.launches = s.launches
      (x.lastAt + 960000000000 ≤ s.cycle → ∃ v : State, exec (.sumacSessionTimeout i) s = .next v ∧
        v.sumac.sessions = s.sumac.sessions.eraseIdx i ∧ v.sumac.stopped = s.sumac.stopped) ∧
      (s.cycle < x.lastAt + 960000000000 → exec (.sumacSessionTimeout i) s = .next s) ∧
      (∃ ws, reads (.list i) 1 ws ∧ ws.head? = some (BitVec.ofNat 64 (s.launches.filter fun e => may x.who e.2.tenant).length)) ∧
      (∃ ws, reads (.readrec i) 8 ws ∧ ∀ e ∈ s.tenants, may x.who e.1 = true → ∀ r ∈ e.2.recs, r.2.Sublist ws) ∧
      (∃ ws, reads (.events i) 10 ws ∧ (ws.length =
        3 * (s.sumac.events.filter fun e => decide (e.1 ≤ 4) && ((s.tenantOf e.2.1).map (may x.who)).getD false).length)) ∧
      (∀ n g, n < 16 → (may x.who n = false → refused (.stop i n g) 3 1) ∧
        (may x.who n = true → ∃ v : State, exec (.stop i n g) s = .next v ∧ answers v 3 0 [] ∧
          (∀ k, k < 8 → g.getLsbD k = true → (n, k) ∈ v.sumac.stopped) ∧
          ∀ t y, mapGet? s.sites t = some y → isTile t = true → y.krn.launch.isSome = true → y.krn.tenant = n → y.haltg &&& g ≠ 0 →
            (v.site t).heldg = y.heldg ||| (y.haltg &&& g) ∧ (y.halted = false → (v.site t).haltReq = true))) ∧
      (∀ n g, 16 ≤ n → refused (.stop i n g) 3 3 ∧ refused (.sumacResume i n g none) 4 3) ∧
      (∀ n g, n < 16 → may x.who n = false → refused (.sumacResume i n g none) 4 1) ∧
      (∀ n g, n < 16 → may x.who n = true → ∃ v : State, exec (.sumacResume i n g none) s = .next v ∧ answers v 4 0 [] ∧
        ∀ k, k < 8 → g.getLsbD k = true → (n, k) ∉ v.sumac.stopped) ∧
      (∀ t n g, s.tileStatus x.who t = 0 → (s.site t).halted = true → (s.site t).heldg = 0 → ∃ v,
        exec (.sumacResume i n g (some t)) s = .next v ∧ answers v 4 0 [] ∧ (v.site t).halted = false ∧ (v.site t).ownHalt = false) ∧
      (∀ l t g d, (mapGet? s.launches l = none → refused (.setgrp i (l, [t]) g d) 2 3) ∧
        ∀ la, mapGet? s.launches l = some la →
          (may x.who la.tenant = false → refused (.setgrp i (l, [t]) g d) 2 1) ∧
          (may x.who la.tenant = true →
            (s.tileStatus x.who t ≠ 0 → refused (.setgrp i (l, [t]) g d) 2 (s.tileStatus x.who t)) ∧
            (s.tileStatus x.who t = 0 → la.members ≠ [] → t ∉ la.members → refused (.setgrp i (l, [t]) g d) 2 3) ∧
            (s.tileStatus x.who t = 0 → t ∈ la.members → ∃ v : State, exec (.setgrp i (l, [t]) g d) s = .next v ∧
              answers v 2 0 [] ∧ (v.site t).haltg = g ∧ (v.site t).dbg = d ∧ (v.site t).mem = (s.site t).mem) ∧
            (s.tileStatus x.who t = 0 → la.members = [] → ∃ v : State, exec (.setgrp i (l, [t]) g d) s = .next v ∧
              answers v 2 0 [] ∧ v.sites = s.sites ∧ (l, t, g, d) ∈ v.sumac.preset ∧
              ∀ p ∈ v.sumac.preset, p.1 = l → p.2.1 = t → p = (l, t, g, d)))) ∧
      (∀ t (c : Fin 4), (s.tileStatus x.who t ≠ 0 → refused (.readctx i t c.val) 5 (s.tileStatus x.who t)) ∧
        (s.tileStatus x.who t = 0 → (s.site t).halted = false → refused (.readctx i t c.val) 5 2) ∧
        (s.tileStatus x.who t = 0 → (s.site t).halted = true → (s.ctxAt t c).badWords c.val = [] → ∃ ws, reads (.readctx i t c.val) 5 ws ∧
          ws[3]? = some (s.ctxAt t c).hdr ∧ ws.drop 14 = packWords (s.ctxAt t c).image ++ (s.ctxAt t c).recordWords)) ∧
      (∀ t a n, s.tileStatus x.who t = 0 →
        ((s.site t).halted = false → refused (.readmem i t .scratchpad a n) 6 2) ∧
        ((s.site t).halted = true → (4096 < n ∨ 0x60000 < a + n → refused (.readmem i t .scratchpad a n) 6 3) ∧
          (n ≤ 4096 → a + n ≤ 0x60000 → (s.site t).bad = [] → reads (.readmem i t .scratchpad a n) 6 (packWords (memBytes (s.site t).mem a n))))) ∧
      (∀ t a bs, s.tileStatus x.who t = 0 →
        ((s.site t).halted = false → refused (.writemem i t .scratchpad a bs) 7 2) ∧
        ((s.site t).halted = true → bs.length ≤ 4096 → a + bs.length ≤ 0x60000 → ∃ v,
          exec (.writemem i t .scratchpad a bs) s = .next v ∧ answers v 7 0 [] ∧ s.storesOnly v t a bs.length ∧
          memBytes (v.site t).mem a bs.length = bs)) ∧
      (∀ (pid : BitVec 16) a n, (may x.who (pid.toNat / 4096) = false → refused (.readglobal i pid a n) 9 1) ∧
        (may x.who (pid.toNat / 4096) = true → n ≤ 4096 → s.argHeld pid (BitVec.ofNat 64 a) n = true →
          exec (.readglobal i pid a n) s = .next s) ∧
        (may x.who (pid.toNat / 4096) = true → n ≤ 4096 → a + n ≤ 2 ^ 54 → s.argHeld pid (BitVec.ofNat 64 a) n = false →
          (∀ b, s.argBlock pid (BitVec.ofNat 64 a) n = some b → reads (.readglobal i pid a n) 9 (packWords b)) ∧
          (s.argBlock pid (BitVec.ofNat 64 a) n = none → refused (.readglobal i pid a n) 9 3 ∧ ∃ v : State,
            exec (.readglobal i pid a n) s = .next v ∧ v.tenants = (s.argError pid (BitVec.ofNat 64 a) n).tenants)) ∧
        (∀ (b : Nat), 0 < n → s.argByte pid a = .error (some b) → let v := s.argError pid (BitVec.ofNat 64 a) n
          a < 2 ^ 64 → v.tenants = (s.errRing (pid.toNat / 4096) 0x09 1 0 b).tenants)))

/-- Boot, images, tenants and host registers (R253, R350 to R353, R356, R358): a module reset leaves every site as after reset
but for the ballast area of its tile, and of the rest what the helm's flash and fuses hold, the device's number and routes and
the state of the bridges, with the span ports that trained; a first boot without failures is healthy with every bridge and every span
port up. The next boot takes the alternate of a step that failed, or the skip, and a path that failed is not repeated (R351). An image that
is bad or older than its counter fails its step. The report holds the measurement registers, which take the SHA-256 of each outcome record.
A tenant is made with queue q bound to its process q, changed, bound within its own processes, and deleted with its sends and pages once
nothing on its way can write these or arm a send. A chunk of global memory is absent with the stack of its owning core (R14, R257, R305). Each event completes with
the effect shown, under conditions on its operands and the state alone. That registers and memory return to zero (logs 1, 2) and the
helm's settings to their reset values (log 60) at a module reset, what stays there (log 49), the offsets 0x1008, 0x1010, 0x2008 and
0x2010 of the ring registers (log 31), what a deletion leaves (log 51), that the loss of either second-tier port counts when any
second-tier page is mapped (log 82), the bytes of a record that are hashed (log 6) and how a stack is found degraded (log 116), are the
model's choices. -/
def Obligations.BootAndTenants : Prop :=
  ∀ (s : State),
    (∀ fails, ∃ v : State, exec (.moduleReset fails) s = .next v ∧
      v = { State.reset with boot := v.boot, sites := v.sites, spans := v.spans, bridges := v.bridges, device := s.device,
                             routes := s.routes } ∧
      v.boot.count = s.boot.count + 1 ∧ v.boot.images = s.boot.images ∧ v.boot.rollback = s.boot.rollback ∧ v.boot.reports = [] ∧
      (∀ t, v.site t = if isTile t then ({ ballast := (s.site t).ballast } : Site) else {}) ∧
      (v.bridges = s.bridges ∨ v.bridges = Vector.replicate 8 .up) ∧
      (∀ p, (v.port p).st = .down ∨ v.port p = ({ st := .up, used := 8 } : SpanPort)) ∧
      (∀ p, p < 16 → ((v.port p).st = .up ↔ ∃ r ∈ v.boot.journal, r.boot = v.boot.count ∧ r.step = 7 ∧ r.unit = p ∧ r.outcome = 1)) ∧
      (s.boot = {} → fails = [] → v.boot.health = .ok ∧ v.boot.stoppedAt = none ∧ v.boot.recovery = false ∧
        v.bridges = Vector.replicate 8 .up ∧ v.spans.map (·.1) = List.range 16)) ∧
    exec .getMeasurements s =
      .next { s with boot := { s.boot with reports := s.boot.reports ++ [(s.boot.measures, Config.attest s.boot.measures)] } } ∧
    (∀ (b : Boot) (step path : Nat), (b.imageOk step path = false ↔ (step = 1 ∨ step = 9) ∧
      ((b.image step path).good = false ∨ (b.image step path).ver < mapGetD b.rollback step 0))) ∧
    (∀ (b : Boot) (step unit o path : Nat), ∃ r : BootRec, (b.outcome step unit o path).measures = b.measures ++ [sha256 (recBytes r)] ∧
      r.boot = b.count ∧ r.step = step ∧ r.unit = unit ∧ r.outcome = o ∧ r.path = path ∧ (b.outcome step unit o path).journal.getLast? = some r) ∧
    (∀ (b : Boot) (old : List BootRec) (r : BootRec) (n step unit : Nat), b.journal = old ++ [r] → r.boot ≤ n → r.step = step → r.unit = unit →
      let failed := r.ok = false ∨ r.outcome = 0 ∨ r.outcome = 2
      let opt := step = 3 ∨ step = 7 ∨ step = 8
      let alt := step = 1 ∨ step = 2 ∨ step = 4 ∨ step = 9
      (opt → (failed ∨ r.outcome = 3 ∧ b.ignoreOpt < r.boot → b.plan n step unit = .skip) ∧
        (¬failed → r.outcome = 1 ∨ r.outcome = 3 ∧ r.boot ≤ b.ignoreOpt → b.plan n step unit = .run 0)) ∧
      (alt → (failed → b.plan n step unit = if r.path = 1 then .again else .run 1) ∧
        (¬failed → r.outcome = 4 → b.plan n step unit = if b.ignore < r.boot then .run 1 else .run 0) ∧
        (¬failed → r.outcome = 1 → b.plan n step unit = .run 0)) ∧
      (¬opt → ¬alt → b.plan n step unit = .run 0)) ∧
    (∀ pa : Nat, pa < 0xC000000000 → (s.absentAt pa = true ↔ 3 * (pa / 0x3000000000) + pa / 2048 % 48 / 16 ∈ s.boot.hbmOut)) ∧
    (∀ pa : Nat, 0xC000000000 ≤ pa → pa < 0x10000000000 → s.absentAt pa = false) ∧
    exec .journalClear s = .next { s with boot := { s.boot with journal := [] } } ∧
    (∀ k slot ver g, ∃ v : State, exec (.imageInstall k slot ver g) s = .next v ∧
      { kind := k, slot := slot, ver := ver, good := g } ∈ v.boot.images ∧
      (∀ x ∈ s.boot.images, x.kind ≠ k ∨ x.slot ≠ slot → x ∈ v.boot.images) ∧
      v.boot.ignoreOpt = s.boot.count ∧ v.boot.ignore = if slot = 0 then s.boot.count else s.boot.ignore) ∧
    (∀ n te q pid, n < 16 → q < 16 → mapGet? s.tenants n = some te → ∃ v : State, exec (.pidBindWrite n q pid) s = .next v ∧
      mapGet? v.tenants n = some { te with pids := te.pids.set q (BitVec.ofNat 16 (n * 4096 + pid.toNat % 4096)) } ∧
      ∀ m, m ≠ n → mapGet? v.tenants m = mapGet? s.tenants m) ∧
    (∀ n cfg, n < 16 →
      (s.boot.stoppedAt = none → mapGet? s.tenants n = none → s.cfgOk n cfg = true → ∃ v te, exec (.tenantCreate n cfg) s = .next v ∧
        mapGet? v.tenants n = some te ∧ te.cfg = cfg ∧ (∀ q, q < 16 → te.pids[q]? = some (BitVec.ofNat 16 (n * 4096 + q))) ∧
        ∀ m, m ≠ n → mapGet? v.tenants m = mapGet? s.tenants m) ∧
      (s.boot.stoppedAt ≠ none ∨ (mapGet? s.tenants n).isSome = true ∨ s.cfgOk n cfg = false → exec (.tenantCreate n cfg) s = .next s)) ∧
    (∀ n cfg te, mapGet? s.tenants n = some te →
      let kept := ∀ t ∈ cfgTiles te.cfg, t ∉ cfgTiles cfg → s.heldActive t = false
      (s.cfgOk n cfg = true → kept → ∃ v : State, exec (.tenantChange n cfg) s = .next v ∧
        mapGet? v.tenants n = some { te with cfg := cfg }) ∧
      (s.cfgOk n cfg = false ∨ ¬kept → exec (.tenantChange n cfg) s = .next s)) ∧
    (∀ n te, mapGet? s.tenants n = some te → s.pagesBusy n = true → ∃ v : State, exec (.tenantDelete n) s = .next v ∧
      (mapGet? v.tenants n).isSome = true ∧ v.phys = s.phys) ∧
    (∀ n te, mapGet? s.tenants n = some te → s.pagesBusy n = true ∨ s.armsFly n = true → (∀ e ∈ s.launches, e.2.tenant ≠ n) →
      ∃ v : State, exec (.tenantDelete n) s = .next v ∧ mapGet? v.tenants n = some { te with arms := 0, leaving := true } ∧ v.phys = s.phys ∧
        ∀ a ∈ v.armed, a.tenant ≠ n) ∧
    (∀ n te, mapGet? s.tenants n = some te → (∀ e ∈ s.launches, e.2.tenant ≠ n) → s.pagesBusy n = false → s.armsFly n = false →
      ∃ v : State, exec (.tenantDelete n) s = .next v ∧ (∀ a ∈ v.badPhys, ∀ p ∈ s.tenantPages n, ¬(p.1 ≤ a ∧ a < p.1 + p.2)) ∧
      mapGet? v.tenants n = none ∧ (∀ a ∈ v.armed, a.tenant ≠ n) ∧ (∀ f ∈ v.firing, f.a.tenant ≠ n) ∧ (∀ r ∈ v.cntq, r.tenant = n → r.arms = false) ∧
      (∀ k ∈ v.kernels, k.tenant ≠ n) ∧
      ∀ a, v.physAt a = if ∃ p ∈ s.tenantPages n, p.1 ≤ a ∧ a < p.1 + p.2 then 0 else s.physAt a) ∧
    (∀ n te off x, n < 16 → mapGet? s.tenants n = some te → ∃ v : State, exec (.hostRegisterWrite n off x) s = .next v ∧
      mapGet? v.tenants n = some (
        if off = 0x1000 then { te with ringBase := x } else if off = 0x1008 then { te with ringSize := x }
        else if off = 0x1010 then { te with ringHead := x } else if off = 0x2000 then { te with errBase := x }
        else if off = 0x2008 then { te with errSize := x } else if off = 0x2010 then { te with errHead := x } else te)) ∧
    (∀ p, p < 2 → ∃ v : State, exec (.secondTierPortLost p) s = .next v ∧ 16 + p ∈ v.boot.portOut ∧
      v.boot.health = if s.tierMapped then .replace else s.boot.health) ∧
    (s.tierMapped = true ↔ ∃ root, ((∃ pid : Nat, pid < 65536 ∧ root = s.root + 8 * pid) ∨ ∃ e ∈ s.helmRoots, root = e.2) ∧
      ∃ p ∈ s.pagesUnder root, 0x10000000000 ≤ p.1) ∧
    (∀ k, k < 12 → s.boot.health = .ok → (s.helmWrite (.stackDegraded k)).boot.health = .degraded)

end
end

