-- ==== Sys2Proof/Laws/Exec.lean ====
section
/-! SUPPORT. The meaning that exec gives each instruction, one equation for each, so that no proof unfolds exec. -/

namespace Sys2Proof.Machine

theorem exec_add (d : Fin 32) (a : Fin 32) (b : Fin 32) (s : State) :
    exec (.add d a b) s = execAdd d a b s := rfl
theorem exec_sub (d : Fin 32) (a : Fin 32) (b : Fin 32) (s : State) :
    exec (.sub d a b) s = execSub d a b s := rfl
theorem exec_mul (d : Fin 32) (a : Fin 32) (b : Fin 32) (s : State) :
    exec (.mul d a b) s = execMul d a b s := rfl
theorem exec_mulh (d : Fin 32) (a : Fin 32) (b : Fin 32) (s : State) :
    exec (.mulh d a b) s = execMulh d a b s := rfl
theorem exec_mulhu (d : Fin 32) (a : Fin 32) (b : Fin 32) (s : State) :
    exec (.mulhu d a b) s = execMulhu d a b s := rfl
theorem exec_div (d : Fin 32) (a : Fin 32) (b : Fin 32) (s : State) :
    exec (.div d a b) s = execDiv d a b s := rfl
theorem exec_divu (d : Fin 32) (a : Fin 32) (b : Fin 32) (s : State) :
    exec (.divu d a b) s = execDivu d a b s := rfl
theorem exec_rem (d : Fin 32) (a : Fin 32) (b : Fin 32) (s : State) :
    exec (.rem d a b) s = execRem d a b s := rfl
theorem exec_remu (d : Fin 32) (a : Fin 32) (b : Fin 32) (s : State) :
    exec (.remu d a b) s = execRemu d a b s := rfl
theorem exec_and (d : Fin 32) (a : Fin 32) (b : Fin 32) (s : State) :
    exec (.and d a b) s = execAnd d a b s := rfl
theorem exec_or (d : Fin 32) (a : Fin 32) (b : Fin 32) (s : State) :
    exec (.or d a b) s = execOr d a b s := rfl
theorem exec_xor (d : Fin 32) (a : Fin 32) (b : Fin 32) (s : State) :
    exec (.xor d a b) s = execXor d a b s := rfl
theorem exec_shl (d : Fin 32) (a : Fin 32) (b : Fin 32) (s : State) :
    exec (.shl d a b) s = execShl d a b s := rfl
theorem exec_shr (d : Fin 32) (a : Fin 32) (b : Fin 32) (s : State) :
    exec (.shr d a b) s = execShr d a b s := rfl
theorem exec_sha (d : Fin 32) (a : Fin 32) (b : Fin 32) (s : State) :
    exec (.sha d a b) s = execSha d a b s := rfl
theorem exec_min (d : Fin 32) (a : Fin 32) (b : Fin 32) (s : State) :
    exec (.min d a b) s = execMin d a b s := rfl
theorem exec_max (d : Fin 32) (a : Fin 32) (b : Fin 32) (s : State) :
    exec (.max d a b) s = execMax d a b s := rfl
theorem exec_minu (d : Fin 32) (a : Fin 32) (b : Fin 32) (s : State) :
    exec (.minu d a b) s = execMinu d a b s := rfl
theorem exec_maxu (d : Fin 32) (a : Fin 32) (b : Fin 32) (s : State) :
    exec (.maxu d a b) s = execMaxu d a b s := rfl
theorem exec_slt (d : Fin 32) (a : Fin 32) (b : Fin 32) (s : State) :
    exec (.slt d a b) s = execSlt d a b s := rfl
theorem exec_sltu (d : Fin 32) (a : Fin 32) (b : Fin 32) (s : State) :
    exec (.sltu d a b) s = execSltu d a b s := rfl
theorem exec_seq (d : Fin 32) (a : Fin 32) (b : Fin 32) (s : State) :
    exec (.seq d a b) s = execSeq d a b s := rfl
theorem exec_clz (d : Fin 32) (a : Fin 32) (s : State) :
    exec (.clz d a) s = execClz d a s := rfl
theorem exec_ctz (d : Fin 32) (a : Fin 32) (s : State) :
    exec (.ctz d a) s = execCtz d a s := rfl
theorem exec_popc (d : Fin 32) (a : Fin 32) (s : State) :
    exec (.popc d a) s = execPopc d a s := rfl
theorem exec_mov (d : Fin 32) (a : Fin 32) (s : State) :
    exec (.mov d a) s = execMov d a s := rfl
theorem exec_sel (d : Fin 32) (a : Fin 32) (b : Fin 32) (p : Fin 8) (s : State) :
    exec (.sel d a b p) s = execSel d a b p s := rfl
theorem exec_tileid (d : Fin 32) (s : State) :
    exec (.tileid d) s = execTileid d s := rfl
theorem exec_gaddr (d : Fin 32) (a : Fin 32) (b : Fin 32) (s : State) :
    exec (.gaddr d a b) s = execGaddr d a b s := rfl
theorem exec_widF (d : Fin 32) (a : Fin 32) (f : Fin 8) (s : State) :
    exec (.widF d a f) s = execWidF d a f s := rfl
theorem exec_addi (d : Fin 32) (a : Fin 32) (imm : BitVec 13) (s : State) :
    exec (.addi d a imm) s = execAddi d a imm s := rfl
theorem exec_andi (d : Fin 32) (a : Fin 32) (imm : BitVec 13) (s : State) :
    exec (.andi d a imm) s = execAndi d a imm s := rfl
theorem exec_ori (d : Fin 32) (a : Fin 32) (imm : BitVec 13) (s : State) :
    exec (.ori d a imm) s = execOri d a imm s := rfl
theorem exec_xori (d : Fin 32) (a : Fin 32) (imm : BitVec 13) (s : State) :
    exec (.xori d a imm) s = execXori d a imm s := rfl
theorem exec_slti (d : Fin 32) (a : Fin 32) (imm : BitVec 13) (s : State) :
    exec (.slti d a imm) s = execSlti d a imm s := rfl
theorem exec_li (d : Fin 32) (imm : BitVec 13) (s : State) :
    exec (.li d imm) s = execLi d imm s := rfl
theorem exec_lih (d : Fin 32) (a : Fin 32) (imm : BitVec 13) (s : State) :
    exec (.lih d a imm) s = execLih d a imm s := rfl
theorem exec_shli (d : Fin 32) (a : Fin 32) (sp : Fin 64) (s : State) :
    exec (.shli d a sp) s = execShli d a sp s := rfl
theorem exec_shri (d : Fin 32) (a : Fin 32) (sp : Fin 64) (s : State) :
    exec (.shri d a sp) s = execShri d a sp s := rfl
theorem exec_shai (d : Fin 32) (a : Fin 32) (sp : Fin 64) (s : State) :
    exec (.shai d a sp) s = execShai d a sp s := rfl
theorem exec_bext (d : Fin 32) (a : Fin 32) (p : Fin 64) (l : Fin 64) (s : State) :
    exec (.bext d a p l) s = execBext d a p l s := rfl
theorem exec_bins (d : Fin 32) (a : Fin 32) (p : Fin 64) (l : Fin 64) (s : State) :
    exec (.bins d a p l) s = execBins d a p l s := rfl
theorem exec_jalr (d : Fin 32) (a : Fin 32) (imm : BitVec 13) (s : State) :
    exec (.jalr d a imm) s = execJalr d a imm s := rfl
theorem exec_loop (d : Fin 32) (a : Fin 32) (t : BitVec 8) (s : State) :
    exec (.loop d a t) s = execLoop d a t s := rfl
theorem exec_loopi (d : Fin 32) (n : Fin 32) (c : BitVec 13) (s : State) :
    exec (.loopi d n c) s = execLoopi d n c s := rfl
theorem exec_pset (d : Fin 32) (a : Fin 32) (s : State) :
    exec (.pset d a) s = execPset d a s := rfl
theorem exec_pand (d : Fin 32) (a : Fin 32) (b : Fin 32) (s : State) :
    exec (.pand d a b) s = execPand d a b s := rfl
theorem exec_por (d : Fin 32) (a : Fin 32) (b : Fin 32) (s : State) :
    exec (.por d a b) s = execPor d a b s := rfl
theorem exec_pxor (d : Fin 32) (a : Fin 32) (b : Fin 32) (s : State) :
    exec (.pxor d a b) s = execPxor d a b s := rfl
theorem exec_pnot (d : Fin 32) (a : Fin 32) (s : State) :
    exec (.pnot d a) s = execPnot d a s := rfl
theorem exec_ldPostinc (d : Fin 32) (a : Fin 32) (k : Fin 8) (imm : BitVec 8) (s : State) :
    exec (.ldPostinc d a k imm) s = execLdPostinc d a k imm s := rfl
theorem exec_ldI8 (d : Fin 32) (a : Fin 32) (imm : BitVec 13) (s : State) :
    exec (.ldI8 d a imm) s = execLdI8 d a imm s := rfl
theorem exec_ldN8 (d : Fin 32) (a : Fin 32) (imm : BitVec 13) (s : State) :
    exec (.ldN8 d a imm) s = execLdN8 d a imm s := rfl
theorem exec_ldI16 (d : Fin 32) (a : Fin 32) (imm : BitVec 13) (s : State) :
    exec (.ldI16 d a imm) s = execLdI16 d a imm s := rfl
theorem exec_ldN16 (d : Fin 32) (a : Fin 32) (imm : BitVec 13) (s : State) :
    exec (.ldN16 d a imm) s = execLdN16 d a imm s := rfl
theorem exec_ldI32 (d : Fin 32) (a : Fin 32) (imm : BitVec 13) (s : State) :
    exec (.ldI32 d a imm) s = execLdI32 d a imm s := rfl
theorem exec_ldN32 (d : Fin 32) (a : Fin 32) (imm : BitVec 13) (s : State) :
    exec (.ldN32 d a imm) s = execLdN32 d a imm s := rfl
theorem exec_ldI64 (d : Fin 32) (a : Fin 32) (imm : BitVec 13) (s : State) :
    exec (.ldI64 d a imm) s = execLdI64 d a imm s := rfl
theorem exec_st8 (d : Fin 32) (a : Fin 32) (imm : BitVec 13) (s : State) :
    exec (.st8 d a imm) s = execSt8 d a imm s := rfl
theorem exec_st16 (d : Fin 32) (a : Fin 32) (imm : BitVec 13) (s : State) :
    exec (.st16 d a imm) s = execSt16 d a imm s := rfl
theorem exec_st32 (d : Fin 32) (a : Fin 32) (imm : BitVec 13) (s : State) :
    exec (.st32 d a imm) s = execSt32 d a imm s := rfl
theorem exec_st64 (d : Fin 32) (a : Fin 32) (imm : BitVec 13) (s : State) :
    exec (.st64 d a imm) s = execSt64 d a imm s := rfl
theorem exec_lv (d : Fin 32) (a : Fin 32) (imm : BitVec 13) (s : State) :
    exec (.lv d a imm) s = execLv d a imm s := rfl
theorem exec_sv (d : Fin 32) (a : Fin 32) (imm : BitVec 13) (s : State) :
    exec (.sv d a imm) s = execSv d a imm s := rfl
theorem exec_stPostinc (d : Fin 32) (a : Fin 32) (k : Fin 32) (imm : BitVec 8) (s : State) :
    exec (.stPostinc d a k imm) s = execStPostinc d a k imm s := rfl
theorem exec_lvs (d : Fin 32) (a : Fin 32) (b : Fin 32) (w : Fin 4) (s : State) :
    exec (.lvs d a b w) s = execLvs d a b w s := rfl
theorem exec_lvg (d : Fin 32) (a : Fin 32) (b : Fin 32) (w : Fin 4) (s : State) :
    exec (.lvg d a b w) s = execLvg d a b w s := rfl
theorem exec_svx (d : Fin 32) (a : Fin 32) (b : Fin 32) (w : Fin 4) (s : State) :
    exec (.svx d a b w) s = execSvx d a b w s := rfl
theorem exec_beq (a : Fin 32) (b : Fin 32) (imm : BitVec 13) (s : State) :
    exec (.beq a b imm) s = execBeq a b imm s := rfl
theorem exec_bne (a : Fin 32) (b : Fin 32) (imm : BitVec 13) (s : State) :
    exec (.bne a b imm) s = execBne a b imm s := rfl
theorem exec_blt (a : Fin 32) (b : Fin 32) (imm : BitVec 13) (s : State) :
    exec (.blt a b imm) s = execBlt a b imm s := rfl
theorem exec_bge (a : Fin 32) (b : Fin 32) (imm : BitVec 13) (s : State) :
    exec (.bge a b imm) s = execBge a b imm s := rfl
theorem exec_bltu (a : Fin 32) (b : Fin 32) (imm : BitVec 13) (s : State) :
    exec (.bltu a b imm) s = execBltu a b imm s := rfl
theorem exec_bgeu (a : Fin 32) (b : Fin 32) (imm : BitVec 13) (s : State) :
    exec (.bgeu a b imm) s = execBgeu a b imm s := rfl
theorem exec_bp (a : Fin 32) (imm : BitVec 13) (s : State) :
    exec (.bp a imm) s = execBp a imm s := rfl
theorem exec_bnp (a : Fin 32) (imm : BitVec 13) (s : State) :
    exec (.bnp a imm) s = execBnp a imm s := rfl
theorem exec_j (imm : BitVec 23) (s : State) :
    exec (.j imm) s = execJ imm s := rfl
theorem exec_jal (imm : BitVec 23) (s : State) :
    exec (.jal imm) s = execJal imm s := rfl
theorem exec_ldf32 (d : Fin 32) (a : Fin 32) (imm : BitVec 13) (s : State) :
    exec (.ldf32 d a imm) s = execLdf32 d a imm s := rfl
theorem exec_ldf64 (d : Fin 32) (a : Fin 32) (imm : BitVec 13) (s : State) :
    exec (.ldf64 d a imm) s = execLdf64 d a imm s := rfl
theorem exec_stf32 (d : Fin 32) (a : Fin 32) (imm : BitVec 13) (s : State) :
    exec (.stf32 d a imm) s = execStf32 d a imm s := rfl
theorem exec_stf64 (d : Fin 32) (a : Fin 32) (imm : BitVec 13) (s : State) :
    exec (.stf64 d a imm) s = execStf64 d a imm s := rfl
theorem exec_lvf (d : Fin 32) (a : Fin 32) (imm : BitVec 13) (s : State) :
    exec (.lvf d a imm) s = execLvf d a imm s := rfl
theorem exec_svf (d : Fin 32) (a : Fin 32) (imm : BitVec 13) (s : State) :
    exec (.svf d a imm) s = execSvf d a imm s := rfl
theorem exec_aadd (d : Fin 32) (a : Fin 32) (b : Fin 32) (w : Fin 2) (sp : Fin 4) (s : State) :
    exec (.aadd d a b w sp) s = execAadd d a b w sp s := rfl
theorem exec_aand (d : Fin 32) (a : Fin 32) (b : Fin 32) (w : Fin 2) (sp : Fin 4) (s : State) :
    exec (.aand d a b w sp) s = execAand d a b w sp s := rfl
theorem exec_aor (d : Fin 32) (a : Fin 32) (b : Fin 32) (w : Fin 2) (sp : Fin 4) (s : State) :
    exec (.aor d a b w sp) s = execAor d a b w sp s := rfl
theorem exec_axor (d : Fin 32) (a : Fin 32) (b : Fin 32) (w : Fin 2) (sp : Fin 4) (s : State) :
    exec (.axor d a b w sp) s = execAxor d a b w sp s := rfl
theorem exec_amin (d : Fin 32) (a : Fin 32) (b : Fin 32) (w : Fin 2) (sp : Fin 4) (s : State) :
    exec (.amin d a b w sp) s = execAmin d a b w sp s := rfl
theorem exec_amax (d : Fin 32) (a : Fin 32) (b : Fin 32) (w : Fin 2) (sp : Fin 4) (s : State) :
    exec (.amax d a b w sp) s = execAmax d a b w sp s := rfl
theorem exec_aminu (d : Fin 32) (a : Fin 32) (b : Fin 32) (w : Fin 2) (sp : Fin 4) (s : State) :
    exec (.aminu d a b w sp) s = execAminu d a b w sp s := rfl
theorem exec_amaxu (d : Fin 32) (a : Fin 32) (b : Fin 32) (w : Fin 2) (sp : Fin 4) (s : State) :
    exec (.amaxu d a b w sp) s = execAmaxu d a b w sp s := rfl
theorem exec_aswap (d : Fin 32) (a : Fin 32) (b : Fin 32) (w : Fin 2) (sp : Fin 4) (s : State) :
    exec (.aswap d a b w sp) s = execAswap d a b w sp s := rfl
theorem exec_acas (d : Fin 32) (a : Fin 32) (b : Fin 32) (w : Fin 2) (sp : Fin 4) (s : State) :
    exec (.acas d a b w sp) s = execAcas d a b w sp s := rfl
theorem exec_xaddf (a : Fin 32) (b : Fin 32) (t : Fin 2) (s : State) :
    exec (.xaddf a b t) s = execXaddf a b t s := rfl
theorem exec_xrd (d : Fin 32) (a : Fin 32) (t : Fin 2) (s : State) :
    exec (.xrd d a t) s = execXrd d a t s := rfl
theorem exec_xclr (a : Fin 32) (s : State) :
    exec (.xclr a) s = execXclr a s := rfl
theorem exec_cpy (d : Fin 32) (a : Fin 32) (b : Fin 32) (v : Fin 4) (s : State) :
    exec (.cpy d a b v) s = execCpy d a b v s := rfl
theorem exec_cpypop (d : Fin 32) (s : State) :
    exec (.cpypop d) s = execCpypop d s := rfl
theorem exec_fold (d : Fin 32) (a : Fin 32) (b : Fin 32) (s : State) :
    exec (.fold d a b) s = execFold d a b s := rfl
theorem exec_foldrd (d : Fin 32) (k : Fin 32) (s : State) :
    exec (.foldrd d k) s = execFoldrd d k s := rfl
theorem exec_vadd (r : Fin 4) (d : Fin 32) (a : Fin 32) (b : Fin 32) (t : Fin 16) (s : State) :
    exec (.vadd r d a b t) s = execVadd r d a b t s := rfl
theorem exec_vsub (r : Fin 4) (d : Fin 32) (a : Fin 32) (b : Fin 32) (t : Fin 16) (s : State) :
    exec (.vsub r d a b t) s = execVsub r d a b t s := rfl
theorem exec_vmul (r : Fin 4) (d : Fin 32) (a : Fin 32) (b : Fin 32) (t : Fin 16) (s : State) :
    exec (.vmul r d a b t) s = execVmul r d a b t s := rfl
theorem exec_vfma (r : Fin 4) (d : Fin 32) (a : Fin 32) (b : Fin 32) (t : Fin 16) (s : State) :
    exec (.vfma r d a b t) s = execVfma r d a b t s := rfl
theorem exec_vmin (r : Fin 4) (d : Fin 32) (a : Fin 32) (b : Fin 32) (t : Fin 16) (s : State) :
    exec (.vmin r d a b t) s = execVmin r d a b t s := rfl
theorem exec_vmax (r : Fin 4) (d : Fin 32) (a : Fin 32) (b : Fin 32) (t : Fin 16) (s : State) :
    exec (.vmax r d a b t) s = execVmax r d a b t s := rfl
theorem exec_vcmpeq (r : Fin 4) (d : Fin 32) (a : Fin 32) (b : Fin 32) (t : Fin 16) (s : State) :
    exec (.vcmpeq r d a b t) s = execVcmpeq r d a b t s := rfl
theorem exec_vcmplt (r : Fin 4) (d : Fin 32) (a : Fin 32) (b : Fin 32) (t : Fin 16) (s : State) :
    exec (.vcmplt r d a b t) s = execVcmplt r d a b t s := rfl
theorem exec_vcmple (r : Fin 4) (d : Fin 32) (a : Fin 32) (b : Fin 32) (t : Fin 16) (s : State) :
    exec (.vcmple r d a b t) s = execVcmple r d a b t s := rfl
theorem exec_vredAdd (r : Fin 4) (d : Fin 32) (a : Fin 32) (t : Fin 16) (s : State) :
    exec (.vredAdd r d a t) s = execVredAdd r d a t s := rfl
theorem exec_vredMax (r : Fin 4) (d : Fin 32) (a : Fin 32) (t : Fin 16) (s : State) :
    exec (.vredMax r d a t) s = execVredMax r d a t s := rfl
theorem exec_vredMin (r : Fin 4) (d : Fin 32) (a : Fin 32) (t : Fin 16) (s : State) :
    exec (.vredMin r d a t) s = execVredMin r d a t s := rfl
theorem exec_vcvt (r : Fin 4) (d : Fin 32) (a : Fin 32) (sp : Fin 16) (t : Fin 16) (s : State) :
    exec (.vcvt r d a sp t) s = execVcvt r d a sp t s := rfl
theorem exec_vdot (r : Fin 4) (d : Fin 32) (a : Fin 32) (b : Fin 32) (t : Fin 16) (s : State) :
    exec (.vdot r d a b t) s = execVdot r d a b t s := rfl
theorem exec_vscale (r : Fin 4) (d : Fin 32) (a : Fin 32) (b : Fin 32) (t : Fin 16) (s : State) :
    exec (.vscale r d a b t) s = execVscale r d a b t s := rfl
theorem exec_vpack (r : Fin 4) (d : Fin 32) (a : Fin 32) (b : Fin 32) (t : Fin 16) (s : State) :
    exec (.vpack r d a b t) s = execVpack r d a b t s := rfl
theorem exec_vabs (d : Fin 32) (a : Fin 32) (t : Fin 16) (s : State) :
    exec (.vabs d a t) s = execVabs d a t s := rfl
theorem exec_vneg (d : Fin 32) (a : Fin 32) (t : Fin 16) (s : State) :
    exec (.vneg d a t) s = execVneg d a t s := rfl
theorem exec_vand (d : Fin 32) (a : Fin 32) (b : Fin 32) (s : State) :
    exec (.vand d a b) s = execVand d a b s := rfl
theorem exec_vor (d : Fin 32) (a : Fin 32) (b : Fin 32) (s : State) :
    exec (.vor d a b) s = execVor d a b s := rfl
theorem exec_vxor (d : Fin 32) (a : Fin 32) (b : Fin 32) (s : State) :
    exec (.vxor d a b) s = execVxor d a b s := rfl
theorem exec_vshl (d : Fin 32) (a : Fin 32) (b : Fin 32) (t : Fin 16) (s : State) :
    exec (.vshl d a b t) s = execVshl d a b t s := rfl
theorem exec_vshr (d : Fin 32) (a : Fin 32) (b : Fin 32) (t : Fin 16) (s : State) :
    exec (.vshr d a b t) s = execVshr d a b t s := rfl
theorem exec_vsha (d : Fin 32) (a : Fin 32) (b : Fin 32) (t : Fin 16) (s : State) :
    exec (.vsha d a b t) s = execVsha d a b t s := rfl
theorem exec_vsel (d : Fin 32) (a : Fin 32) (b : Fin 32) (p : Fin 8) (s : State) :
    exec (.vsel d a b p) s = execVsel d a b p s := rfl
theorem exec_vbcast (d : Fin 32) (a : Fin 32) (t : Fin 16) (s : State) :
    exec (.vbcast d a t) s = execVbcast d a t s := rfl
theorem exec_vext (d : Fin 32) (a : Fin 32) (n : Fin 32) (t : Fin 16) (s : State) :
    exec (.vext d a n t) s = execVext d a n t s := rfl
theorem exec_vperm (d : Fin 32) (a : Fin 32) (b : Fin 32) (t : Fin 16) (s : State) :
    exec (.vperm d a b t) s = execVperm d a b t s := rfl
theorem exec_vshuf (d : Fin 32) (a : Fin 32) (b : Fin 32) (t : Fin 16) (s : State) :
    exec (.vshuf d a b t) s = execVshuf d a b t s := rfl
theorem exec_vrcp (d : Fin 32) (a : Fin 32) (t : Fin 16) (s : State) :
    exec (.vrcp d a t) s = execVrcp d a t s := rfl
theorem exec_vrsq (d : Fin 32) (a : Fin 32) (t : Fin 16) (s : State) :
    exec (.vrsq d a t) s = execVrsq d a t s := rfl
theorem exec_vexp2 (d : Fin 32) (a : Fin 32) (t : Fin 16) (s : State) :
    exec (.vexp2 d a t) s = execVexp2 d a t s := rfl
theorem exec_vmaxexp (d : Fin 32) (a : Fin 32) (t : Fin 16) (s : State) :
    exec (.vmaxexp d a t) s = execVmaxexp d a t s := rfl
theorem exec_vunpk (d : Fin 32) (a : Fin 32) (h : Fin 32) (t : Fin 16) (s : State) :
    exec (.vunpk d a h t) s = execVunpk d a h t s := rfl
theorem exec_mxopen (p : Fin 4) (s : State) :
    exec (.mxopen p) s = execMxopen p s := rfl
theorem exec_mxcfg (d : Fin 32) (p : Fin 4) (s : State) :
    exec (.mxcfg d p) s = execMxcfg d p s := rfl
theorem exec_mxpush (a : Fin 32) (p : Fin 4) (s : State) :
    exec (.mxpush a p) s = execMxpush a p s := rfl
theorem exec_mxpushm (a : Fin 32) (n : Fin 32) (p : Fin 4) (s : State) :
    exec (.mxpushm a n p) s = execMxpushm a n p s := rfl
theorem exec_mxscl (a : Fin 32) (p : Fin 4) (s : State) :
    exec (.mxscl a p) s = execMxscl a p s := rfl
theorem exec_mxclose (p : Fin 4) (s : State) :
    exec (.mxclose p) s = execMxclose p s := rfl
theorem exec_mxstat (d : Fin 32) (p : Fin 4) (s : State) :
    exec (.mxstat d p) s = execMxstat d p s := rfl
theorem exec_msetm (a : Fin 32) (s : State) :
    exec (.msetm a) s = execMsetm a s := rfl
theorem exec_skld (d : Fin 32) (a : Fin 32) (s : State) :
    exec (.skld d a) s = execSkld d a s := rfl
theorem exec_accz (d : Fin 32) (s : State) :
    exec (.accz d) s = execAccz d s := rfl
theorem exec_accrd (v : Fin 32) (k : Fin 32) (r : Fin 32) (s : State) :
    exec (.accrd v k r) s = execAccrd v k r s := rfl
theorem exec_accwr (k : Fin 32) (v : Fin 32) (r : Fin 32) (s : State) :
    exec (.accwr k v r) s = execAccwr k v r s := rfl
theorem exec_acccvt (v : Fin 32) (k : Fin 32) (r : Fin 32) (t : Fin 16) (s : State) :
    exec (.acccvt v k r t) s = execAcccvt v k r t s := rfl
theorem exec_semset (d : Fin 32) (a : Fin 32) (s : State) :
    exec (.semset d a) s = execSemset d a s := rfl
theorem exec_semadd (d : Fin 32) (n : Fin 32) (s : State) :
    exec (.semadd d n) s = execSemadd d n s := rfl
theorem exec_semwait (d : Fin 32) (n : Fin 32) (s : State) :
    exec (.semwait d n) s = execSemwait d n s := rfl
theorem exec_phreg (d : Fin 32) (a : Fin 32) (m : Fin 32) (s : State) :
    exec (.phreg d a m) s = execPhreg d a m s := rfl
theorem exec_phdrop (a : Fin 32) (s : State) :
    exec (.phdrop a) s = execPhdrop a s := rfl
theorem exec_phsig (d : Fin 32) (a : Fin 32) (s : State) :
    exec (.phsig d a) s = execPhsig d a s := rfl
theorem exec_phwait (d : Fin 32) (a : Fin 32) (b : Fin 32) (s : State) :
    exec (.phwait d a b) s = execPhwait d a b s := rfl
theorem exec_phnext (d : Fin 32) (a : Fin 32) (s : State) :
    exec (.phnext d a) s = execPhnext d a s := rfl
theorem exec_phaserRequest (m : Nat) (s : State) :
    exec (.phaserRequest m) s = execPhaserRequest m s := rfl
theorem exec_bar (d : Fin 32) (s : State) :
    exec (.bar d) s = execBar d s := rfl
theorem exec_bara (d : Fin 32) (a : Fin 32) (s : State) :
    exec (.bara d a) s = execBara d a s := rfl
theorem exec_barw (d : Fin 32) (a : Fin 32) (b : Fin 32) (s : State) :
    exec (.barw d a b) s = execBarw d a b s := rfl
theorem exec_ratlineRelease (l : Nat) (n : Nat) (m : Nat) (s : State) :
    exec (.ratlineRelease l n m) s = execRatlineRelease l n m s := rfl
theorem exec_vst (d : Fin 32) (a : Fin 32) (b : Fin 32) (s : State) :
    exec (.vst d a b) s = execVst d a b s := rfl
theorem exec_vld (d : Fin 32) (a : Fin 32) (b : Fin 32) (s : State) :
    exec (.vld d a b) s = execVld d a b s := rfl
theorem exec_vrecl (a : Fin 32) (b : Fin 32) (s : State) :
    exec (.vrecl a b) s = execVrecl a b s := rfl
theorem exec_vldResend (t : Nat) (c : Nat) (s : State) :
    exec (.vldResend t c) s = execVldResend t c s := rfl
theorem exec_fence (d : Fin 32) (s : State) :
    exec (.fence d) s = execFence d s := rfl
theorem exec_sysr (d : Fin 32) (m : Fin 32) (n : Fin 32) (s : State) :
    exec (.sysr d m n) s = execSysr d m n s := rfl
theorem exec_sysw (d : Fin 32) (m : Fin 32) (n : Fin 32) (s : State) :
    exec (.sysw d m n) s = execSysw d m n s := rfl
theorem exec_trap (a : Fin 32) (b : Fin 32) (s : State) :
    exec (.trap a b) s = execTrap a b s := rfl
theorem exec_brk (s : State) :
    exec (.brk) s = execBrk s := rfl
theorem exec_wfi (s : State) :
    exec (.wfi) s = execWfi s := rfl
theorem exec_wfiWake (t : Nat) (c : Nat) (s : State) :
    exec (.wfiWake t c) s = execWfiWake t c s := rfl
theorem exec_retireWord (s : State) :
    exec (.retireWord) s = execRetireWord s := rfl
theorem exec_retireS (a : Fin 32) (s : State) :
    exec (.retireS a) s = execRetireS a s := rfl
theorem exec_karg (d : Fin 32) (n : Fin 32) (s : State) :
    exec (.karg d n) s = execKarg d n s := rfl
theorem exec_pfenceT (s : State) :
    exec (.pfenceT) s = execPfenceT s := rfl
theorem exec_pfenceG (s : State) :
    exec (.pfenceG) s = execPfenceG s := rfl
theorem exec_pstat (d : Fin 32) (s : State) :
    exec (.pstat d) s = execPstat d s := rfl
theorem exec_pgate (a : Fin 32) (m : Fin 32) (s : State) :
    exec (.pgate a m) s = execPgate a m s := rfl
theorem exec_tsend (d : Fin 32) (a : Fin 32) (b : Fin 32) (s : State) :
    exec (.tsend d a b) s = execTsend d a b s := rfl
theorem exec_cntrd (d : Fin 32) (a : Fin 32) (s : State) :
    exec (.cntrd d a) s = execCntrd d a s := rfl
theorem exec_cntset (a : Fin 32) (b : Fin 32) (s : State) :
    exec (.cntset a b) s = execCntset a b s := rfl
theorem exec_send (d : Fin 32) (a : Fin 32) (b : Fin 32) (n : Fin 32) (s : State) :
    exec (.send d a b n) s = execSend d a b n s := rfl
theorem exec_sendm (d : Fin 32) (a : Fin 32) (b : Fin 32) (n : Fin 32) (s : State) :
    exec (.sendm d a b n) s = execSendm d a b n s := rfl
theorem exec_msgid (d : Fin 32) (s : State) :
    exec (.msgid d) s = execMsgid d s := rfl
theorem exec_qpush (d : Fin 32) (p : Fin 32) (q : Fin 32) (s : State) :
    exec (.qpush d p q) s = execQpush d p q s := rfl
theorem exec_qpop (d : Fin 32) (p : Fin 32) (q : Fin 32) (s : State) :
    exec (.qpop d p q) s = execQpop d p q s := rfl
theorem exec_qpeek (d : Fin 32) (p : Fin 32) (q : Fin 32) (s : State) :
    exec (.qpeek d p q) s = execQpeek d p q s := rfl
theorem exec_qcnt (d : Fin 32) (q : Fin 32) (s : State) :
    exec (.qcnt d q) s = execQcnt d q s := rfl
theorem exec_qpushw (d : Fin 32) (q : Fin 32) (s : State) :
    exec (.qpushw d q) s = execQpushw d q s := rfl
theorem exec_qpopw (d : Fin 32) (q : Fin 32) (s : State) :
    exec (.qpopw d q) s = execQpopw d q s := rfl
theorem exec_qwaitExpiry (t : Nat) (c : Nat) (s : State) :
    exec (.qwaitExpiry t c) s = execQwaitExpiry t c s := rfl
theorem exec_rpush (d : Fin 32) (p : Fin 32) (b : Fin 32) (s : State) :
    exec (.rpush d p b) s = execRpush d p b s := rfl
theorem exec_rpop (d : Fin 32) (p : Fin 32) (b : Fin 32) (s : State) :
    exec (.rpop d p b) s = execRpop d p b s := rfl
theorem exec_chblk (d : Fin 32) (a : Fin 32) (s : State) :
    exec (.chblk d a) s = execChblk d a s := rfl
theorem exec_chunb (d : Fin 32) (a : Fin 32) (s : State) :
    exec (.chunb d a) s = execChunb d a s := rfl
theorem exec_chmask (a : Fin 32) (k : Fin 32) (s : State) :
    exec (.chmask a k) s = execChmask a k s := rfl
theorem exec_channelControlArrival (t : Nat) (s : State) :
    exec (.channelControlArrival t) s = execChannelControlArrival t s := rfl
theorem exec_seal (a : Fin 32) (b : Fin 32) (s : State) :
    exec (.seal a b) s = execSeal a b s := rfl
theorem exec_unseal (a : Fin 32) (b : Fin 32) (s : State) :
    exec (.unseal a b) s = execUnseal a b s := rfl
theorem exec_sealRequestArrival (k : Nat) (s : State) :
    exec (.sealRequestArrival k) s = execSealRequestArrival k s := rfl
theorem exec_lgd (d : Fin 32) (a : Fin 32) (s : State) :
    exec (.lgd d a) s = execLgd d a s := rfl
theorem exec_sgd (a : Fin 32) (b : Fin 32) (s : State) :
    exec (.sgd a b) s = execSgd a b s := rfl
theorem exec_lgv (d : Fin 32) (a : Fin 32) (s : State) :
    exec (.lgv d a) s = execLgv d a s := rfl
theorem exec_sgv (d : Fin 32) (a : Fin 32) (s : State) :
    exec (.sgv d a) s = execSgv d a s := rfl
theorem exec_pusht (d : Fin 32) (a : Fin 32) (n : Fin 32) (s : State) :
    exec (.pusht d a n) s = execPusht d a n s := rfl
theorem exec_pushBeatArrival (t : Nat) (s : State) :
    exec (.pushBeatArrival t) s = execPushBeatArrival t s := rfl
theorem exec_tlbiH (a : Fin 32) (b : Fin 32) (s : State) :
    exec (.tlbiH a b) s = execTlbiH a b s := rfl
theorem exec_illW (s : State) :
    exec (.illW) s = execIllW s := rfl
theorem exec_ill (s : State) :
    exec (.ill) s = execIll s := rfl
theorem exec_nop (s : State) :
    exec (.nop) s = execNop s := rfl
theorem exec_yield (s : State) :
    exec (.yield) s = execYield s := rfl
theorem exec_retire (s : State) :
    exec (.retire) s = execRetire s := rfl
theorem exec_cAlu (d : Fin 32) (a : Fin 32) (o : Fin 8) (s : State) :
    exec (.cAlu d a o) s = execCAlu d a o s := rfl
theorem exec_cAddi (d : Fin 32) (imm : BitVec 8) (s : State) :
    exec (.cAddi d imm) s = execCAddi d imm s := rfl
theorem exec_cLi (d : Fin 32) (imm : BitVec 8) (s : State) :
    exec (.cLi d imm) s = execCLi d imm s := rfl
theorem exec_cLd (d : Fin 8) (a : Fin 8) (o : Fin 4) (f : BitVec 5) (s : State) :
    exec (.cLd d a o f) s = execCLd d a o f s := rfl
theorem exec_cB (imm : BitVec 13) (s : State) :
    exec (.cB imm) s = execCB imm s := rfl
theorem exec_pfx (p : Fin 8) (sp : Fin 2) (s : State) :
    exec (.pfx p sp) s = execPfx p sp s := rfl
theorem exec_messageArrival (t : Nat) (s : State) :
    exec (.messageArrival t) s = execMessageArrival t s := rfl
theorem exec_activationStart (t : Nat) (s : State) :
    exec (.activationStart t) s = execActivationStart t s := rfl
theorem exec_priorityAgeing (t : Nat) (s : State) :
    exec (.priorityAgeing t) s = execPriorityAgeing t s := rfl
theorem exec_outboxInject (t : Nat) (s : State) :
    exec (.outboxInject t) s = execOutboxInject t s := rfl
theorem exec_watchdogExpiry (t : Nat) (c : Nat) (s : State) :
    exec (.watchdogExpiry t c) s = execWatchdogExpiry t c s := rfl
theorem exec_trapSequenceComplete (t : Nat) (c : Nat) (s : State) :
    exec (.trapSequenceComplete t c) s = execTrapSequenceComplete t c s := rfl
theorem exec_remoteRecordArrival (t : Nat) (s : State) :
    exec (.remoteRecordArrival t) s = execRemoteRecordArrival t s := rfl
theorem exec_farRequestService (t : Nat) (s : State) :
    exec (.farRequestService t) s = execFarRequestService t s := rfl
theorem exec_caOperation (t : Nat) (s : State) :
    exec (.caOperation t) s = execCaOperation t s := rfl
theorem exec_farResponseArrival (t : Nat) (s : State) :
    exec (.farResponseArrival t) s = execFarResponseArrival t s := rfl
theorem exec_completionRound (s : State) :
    exec (.completionRound) s = execCompletionRound s := rfl
theorem exec_liveMigration (t : Nat) (u : Nat) (s : State) :
    exec (.liveMigration t u) s = execLiveMigration t u s := rfl
theorem exec_quiescePoint (t : Nat) (c : Nat) (s : State) :
    exec (.quiescePoint t c) s = execQuiescePoint t c s := rfl
theorem exec_vfifoLanding (t : Nat) (s : State) :
    exec (.vfifoLanding t) s = execVfifoLanding t s := rfl
theorem exec_vfifoCreditReturn (t : Nat) (s : State) :
    exec (.vfifoCreditReturn t) s = execVfifoCreditReturn t s := rfl
theorem exec_kStepConsume (e : Nat) (s : State) :
    exec (.kStepConsume e) s = execKStepConsume e s := rfl
theorem exec_deliverySend (e : Nat) (s : State) :
    exec (.deliverySend e) s = execDeliverySend e s := rfl
theorem exec_deliveryApply (t : Nat) (s : State) :
    exec (.deliveryApply t) s = execDeliveryApply t s := rfl
theorem exec_deliveryAck (e : Nat) (s : State) :
    exec (.deliveryAck e) s = execDeliveryAck e s := rfl
theorem exec_copyCommandStart (t : Nat) (s : State) :
    exec (.copyCommandStart t) s = execCopyCommandStart t s := rfl
theorem exec_copyCompletion (t : Nat) (s : State) :
    exec (.copyCompletion t) s = execCopyCompletion t s := rfl
theorem exec_foldPerform (t : Nat) (s : State) :
    exec (.foldPerform t) s = execFoldPerform t s := rfl
theorem exec_launchDoorbell (n : Nat) (q : Nat) (tail : Nat) (ds : List (List (BitVec 8))) (s : State) :
    exec (.launchDoorbell n q tail ds) s = execLaunchDoorbell n q tail ds s := rfl
theorem exec_kernelRegister (n : Nat) (file : KernelFile) (s : State) :
    exec (.kernelRegister n file) s = execKernelRegister n file s := rfl
theorem exec_launchPlace (n : Nat) (q : Nat) (s : State) :
    exec (.launchPlace n q) s = execLaunchPlace n q s := rfl
theorem exec_launchLoadComplete (l : Nat) (s : State) :
    exec (.launchLoadComplete l) s = execLaunchLoadComplete l s := rfl
theorem exec_launchAbort (l : Nat) (s : State) :
    exec (.launchAbort l) s = execLaunchAbort l s := rfl
theorem exec_stationRequest (k : Nat) (s : State) :
    exec (.stationRequest k) s = execStationRequest k s := rfl
theorem exec_tableWalkComplete (k : Nat) (s : State) :
    exec (.tableWalkComplete k) s = execTableWalkComplete k s := rfl
theorem exec_hbmAccessComplete (k : Nat) (s : State) :
    exec (.hbmAccessComplete k) s = execHbmAccessComplete k s := rfl
theorem exec_routerArbitration (t : Nat) (s : State) :
    exec (.routerArbitration t) s = execRouterArbitration t s := rfl
theorem exec_haltHoldDelivery (t : Nat) (s : State) :
    exec (.haltHoldDelivery t) s = execHaltHoldDelivery t s := rfl
theorem exec_spanFrameReceive (p : Nat) (f : SpanFrame) (s : State) :
    exec (.spanFrameReceive p f) s = execSpanFrameReceive p f s := rfl
theorem exec_spanLaneFail (p : Nat) (lane : Nat) (s : State) :
    exec (.spanLaneFail p lane) s = execSpanLaneFail p lane s := rfl
theorem exec_spanEnable (p : Nat) (s : State) :
    exec (.spanEnable p) s = execSpanEnable p s := rfl
theorem exec_spanTrainingDone (p : Nat) (lanes : BitVec 8) (s : State) :
    exec (.spanTrainingDone p lanes) s = execSpanTrainingDone p lanes s := rfl
theorem exec_spanTrainingTimeout (p : Nat) (s : State) :
    exec (.spanTrainingTimeout p) s = execSpanTrainingTimeout p s := rfl
theorem exec_spanPeerHalt (p : Nat) (s : State) :
    exec (.spanPeerHalt p) s = execSpanPeerHalt p s := rfl
theorem exec_spanPeerResume (p : Nat) (s : State) :
    exec (.spanPeerResume p) s = execSpanPeerResume p s := rfl
theorem exec_spanPeerLost (p : Nat) (s : State) :
    exec (.spanPeerLost p) s = execSpanPeerLost p s := rfl
theorem exec_spanDisable (p : Nat) (s : State) :
    exec (.spanDisable p) s = execSpanDisable p s := rfl
theorem exec_transferResend (x : Nat) (s : State) :
    exec (.transferResend x) s = execTransferResend x s := rfl
theorem exec_transferAck (x : Nat) (s : State) :
    exec (.transferAck x) s = execTransferAck x s := rfl
theorem exec_releaseNotice (dev : Nat) (x : Nat) (s : State) :
    exec (.releaseNotice dev x) s = execReleaseNotice dev x s := rfl
theorem exec_landingCount (imm : Nat) (s : State) :
    exec (.landingCount imm) s = execLandingCount imm s := rfl
theorem exec_counterEngineCycle (s : State) :
    exec (.counterEngineCycle) s = execCounterEngineCycle s := rfl
theorem exec_bridgeDegrade (b : Nat) (s : State) :
    exec (.bridgeDegrade b) s = execBridgeDegrade b s := rfl
theorem exec_bridgeDown (b : Nat) (s : State) :
    exec (.bridgeDown b) s = execBridgeDown b s := rfl
theorem exec_trickle (t : Nat) (s : State) :
    exec (.trickle t) s = execTrickle t s := rfl
theorem exec_commit (t : Nat) (s : State) :
    exec (.commit t) s = execCommit t s := rfl
theorem exec_commitComplete (t : Nat) (s : State) :
    exec (.commitComplete t) s = execCommitComplete t s := rfl
theorem exec_autoCommitInterval (t : Nat) (s : State) :
    exec (.autoCommitInterval t) s = execAutoCommitInterval t s := rfl
theorem exec_persistRequest (t : Nat) (s : State) :
    exec (.persistRequest t) s = execPersistRequest t s := rfl
theorem exec_powerLoss (t : Nat) (s : State) :
    exec (.powerLoss t) s = execPowerLoss t s := rfl
theorem exec_resume (t : Nat) (s : State) :
    exec (.resume t) s = execResume t s := rfl
theorem exec_gateRequestAccept (t : Nat) (s : State) :
    exec (.gateRequestAccept t) s = execGateRequestAccept t s := rfl
theorem exec_gateOff (t : Nat) (s : State) :
    exec (.gateOff t) s = execGateOff t s := rfl
theorem exec_gateOn (t : Nat) (s : State) :
    exec (.gateOn t) s = execGateOn t s := rfl
theorem exec_gateQuiesced (t : Nat) (s : State) :
    exec (.gateQuiesced t) s = execGateQuiesced t s := rfl
theorem exec_sleepWake (t : Nat) (s : State) :
    exec (.sleepWake t) s = execSleepWake t s := rfl
theorem exec_tileHalt (t : Nat) (s : State) :
    exec (.tileHalt t) s = execTileHalt t s := rfl
theorem exec_eccRollback (t : Nat) (s : State) :
    exec (.eccRollback t) s = execEccRollback t s := rfl
theorem exec_healthMigration (t : Nat) (u : Nat) (s : State) :
    exec (.healthMigration t u) s = execHealthMigration t u s := rfl
theorem exec_sumacSession (who : Client) (authentic : Bool) (s : State) :
    exec (.sumacSession who authentic) s = execSumacSession who authentic s := rfl
theorem exec_sumacSessionTimeout (imm : Nat) (s : State) :
    exec (.sumacSessionTimeout imm) s = execSumacSessionTimeout imm s := rfl
theorem exec_list (imm : Nat) (s : State) :
    exec (.list imm) s = execList imm s := rfl
theorem exec_setgrp (imm : Nat) (ts : Nat × List Nat) (groups : BitVec 8) (dbg : Bool) (s : State) :
    exec (.setgrp imm ts groups dbg) s = execSetgrp imm ts groups dbg s := rfl
theorem exec_stop (imm : Nat) (n : Nat) (groups : BitVec 8) (s : State) :
    exec (.stop imm n groups) s = execStop imm n groups s := rfl
theorem exec_sumacResume (imm : Nat) (n : Nat) (groups : BitVec 8) (own : Option Nat) (s : State) :
    exec (.sumacResume imm n groups own) s = execSumacResume imm n groups own s := rfl
theorem exec_readctx (imm : Nat) (t : Nat) (c : Nat) (s : State) :
    exec (.readctx imm t c) s = execReadctx imm t c s := rfl
theorem exec_readmem (imm : Nat) (t : Nat) (sp : DebugSpace) (addr : Nat) (len : Nat) (s : State) :
    exec (.readmem imm t sp addr len) s = execReadmem imm t sp addr len s := rfl
theorem exec_writemem (imm : Nat) (t : Nat) (sp : DebugSpace) (addr : Nat) (bytes : List (BitVec 8)) (s : State) :
    exec (.writemem imm t sp addr bytes) s = execWritemem imm t sp addr bytes s := rfl
theorem exec_readrec (imm : Nat) (s : State) :
    exec (.readrec imm) s = execReadrec imm s := rfl
theorem exec_readglobal (imm : Nat) (pid : BitVec 16) (addr : Nat) (len : Nat) (s : State) :
    exec (.readglobal imm pid addr len) s = execReadglobal imm pid addr len s := rfl
theorem exec_events (imm : Nat) (s : State) :
    exec (.events imm) s = execEvents imm s := rfl
theorem exec_intervalBoundary (otherWatts : Nat) (peaks : List (Nat × Nat)) (s : State) :
    exec (.intervalBoundary otherWatts peaks) s = execIntervalBoundary otherWatts peaks s := rfl
theorem exec_throttleWindow (cl : Nat) (e : Nat) (s : State) :
    exec (.throttleWindow cl e) s = execThrottleWindow cl e s := rfl
theorem exec_frameBoundary (t : Nat) (s : State) :
    exec (.frameBoundary t) s = execFrameBoundary t s := rfl
theorem exec_powerToken (token : Nat × List (BitVec 8)) (s : State) :
    exec (.powerToken token) s = execPowerToken token s := rfl
theorem exec_tokenExpiry (s : State) :
    exec (.tokenExpiry) s = execTokenExpiry s := rfl
theorem exec_moduleReset (fails : List BootFail) (s : State) :
    exec (.moduleReset fails) s = execModuleReset fails s := rfl
theorem exec_getMeasurements (s : State) :
    exec (.getMeasurements) s = execGetMeasurements s := rfl
theorem exec_pidBindWrite (n : Nat) (q : Nat) (pid : BitVec 16) (s : State) :
    exec (.pidBindWrite n q pid) s = execPidBindWrite n q pid s := rfl
theorem exec_tenantCreate (n : Nat) (cfg : TenantCfg) (s : State) :
    exec (.tenantCreate n cfg) s = execTenantCreate n cfg s := rfl
theorem exec_tenantChange (n : Nat) (cfg : TenantCfg) (s : State) :
    exec (.tenantChange n cfg) s = execTenantChange n cfg s := rfl
theorem exec_tenantDelete (n : Nat) (s : State) :
    exec (.tenantDelete n) s = execTenantDelete n s := rfl
theorem exec_hostRegisterWrite (n : Nat) (off : Nat) (val : BitVec 64) (s : State) :
    exec (.hostRegisterWrite n off val) s = execHostRegisterWrite n off val s := rfl
theorem exec_pageTableWrite (pa : Nat) (val : BitVec 64) (s : State) :
    exec (.pageTableWrite pa val) s = execPageTableWrite pa val s := rfl
theorem exec_kernelUnregister (h : BitVec 32) (s : State) :
    exec (.kernelUnregister h) s = execKernelUnregister h s := rfl
theorem exec_powerReturnTimeout (t : Nat) (s : State) :
    exec (.powerReturnTimeout t) s = execPowerReturnTimeout t s := rfl
theorem exec_secondTierPortLost (p : Nat) (s : State) :
    exec (.secondTierPortLost p) s = execSecondTierPortLost p s := rfl
theorem exec_secondTierAccessComplete (k : Nat) (s : State) :
    exec (.secondTierAccessComplete k) s = execSecondTierAccessComplete k s := rfl
theorem exec_spanEngineDebugStop (s : State) :
    exec (.spanEngineDebugStop) s = execSpanEngineDebugStop s := rfl
theorem exec_spanEngineDebugResume (s : State) :
    exec (.spanEngineDebugResume) s = execSpanEngineDebugResume s := rfl
theorem exec_journalClear (s : State) :
    exec (.journalClear) s = execJournalClear s := rfl
theorem exec_imageInstall (kind : Nat) (slot : Nat) (ver : Nat) (good : Bool) (s : State) :
    exec (.imageInstall kind slot ver good) s = execImageInstall kind slot ver good s := rfl

end Sys2Proof.Machine
end

