-- ==== Sys2Proof/Laws/Mem.lean ====
section
/-! SUPPORT. Laws of sparse maps and of byte memory: read after write, and the canonical form that every operation keeps. -/

namespace Sys2Proof.Machine

/-! Sparse maps. -/

theorem mapGet?_insert_same {α : Type} (m : List (Nat × α)) (i : Nat) (x : α) (h : mapGet? m i = none) :
    mapGet? (mapInsert m i x) i = some x := by
  induction m with
  | nil => simp [mapInsert, mapGet?]
  | cons e r ih =>
    obtain ⟨k, y⟩ := e
    by_cases hk : k = i
    · simp [mapGet?, hk] at h
    · have h' : mapGet? r i = none := by simpa [mapGet?, hk] using h
      by_cases hi : i < k
      · simp [mapInsert, hi, mapGet?]
      · simp [mapInsert, hi, mapGet?, hk, ih h']

theorem mapGet?_insert_ne {α : Type} (m : List (Nat × α)) (i j : Nat) (x : α) (h : i ≠ j) :
    mapGet? (mapInsert m i x) j = mapGet? m j := by
  induction m with
  | nil => simp [mapInsert, mapGet?, h]
  | cons e r ih =>
    obtain ⟨k, y⟩ := e
    by_cases hi : i < k
    · simp [mapInsert, hi, mapGet?, h]
    · simp only [mapInsert, if_neg hi, mapGet?, ih]

@[simp] theorem mapGet?_erase_same {α : Type} (m : List (Nat × α)) (i : Nat) : mapGet? (mapErase m i) i = none := by
  induction m with
  | nil => rfl
  | cons e r ih =>
    obtain ⟨k, y⟩ := e
    have ih' : mapGet? (r.filter fun e => decide (e.1 ≠ i)) i = none := ih
    by_cases hk : k = i
    · simpa [mapErase, hk] using ih'
    · simp only [mapErase, List.filter_cons]
      simp only [ne_eq, hk, not_false_eq_true, decide_true, if_true, mapGet?, if_false]
      exact ih'

theorem mapGet?_erase_ne {α : Type} (m : List (Nat × α)) (i j : Nat) (h : i ≠ j) :
    mapGet? (mapErase m i) j = mapGet? m j := by
  induction m with
  | nil => rfl
  | cons e r ih =>
    obtain ⟨k, y⟩ := e
    have ih' : mapGet? (r.filter fun e => decide (e.1 ≠ i)) j = mapGet? r j := ih
    by_cases hk : k = i
    · have hj : k ≠ j := fun e => h (hk ▸ e)
      simp only [mapErase, List.filter_cons]
      simp only [ne_eq, hk, not_true_eq_false, decide_false, mapGet?]
      rw [if_neg (by simp), if_neg (hk ▸ hj)]
      exact ih'
    · simp only [mapErase, List.filter_cons]
      simp only [ne_eq, hk, not_false_eq_true, decide_true, if_true, mapGet?]
      rw [show mapGet? (r.filter fun e => decide ¬ e.1 = i) j = mapGet? r j from ih']

@[simp] theorem mapGet?_put_same {α : Type} (m : List (Nat × α)) (i : Nat) (x : α) : mapGet? (mapPut m i x) i = some x :=
  mapGet?_insert_same _ _ _ (mapGet?_erase_same m i)

theorem mapGet?_put_ne {α : Type} (m : List (Nat × α)) (i j : Nat) (x : α) (h : i ≠ j) :
    mapGet? (mapPut m i x) j = mapGet? m j := by
  rw [mapPut, mapGet?_insert_ne _ _ _ _ h, mapGet?_erase_ne _ _ _ h]

theorem mapGet?_put {α : Type} (m : List (Nat × α)) (i j : Nat) (x : α) :
    mapGet? (mapPut m i x) j = if i = j then some x else mapGet? m j := by
  by_cases h : i = j
  · subst h; simp
  · simp [h, mapGet?_put_ne]

theorem mapGetD_put {α : Type} (m : List (Nat × α)) (i j : Nat) (x d : α) :
    mapGetD (mapPut m i x) j d = if i = j then x else mapGetD m j d := by
  unfold mapGetD
  rw [mapGet?_put]
  split <;> rfl

/-- An inserted entry is new or was there. -/
theorem mapErase_insert {α : Type} (m : List (Nat × α)) (i : Nat) (x : α) : mapErase (mapInsert m i x) i = mapErase m i := by
  induction m with
  | nil => simp [mapErase, mapInsert]
  | cons e r ih =>
    obtain ⟨k, y⟩ := e
    unfold mapInsert
    split
    · simp [mapErase]
    · simp only [mapErase, List.filter_cons] at ih ⊢
      rw [ih]

theorem mapErase_erase {α : Type} (m : List (Nat × α)) (i : Nat) : mapErase (mapErase m i) i = mapErase m i := by
  simp [mapErase]

theorem mem_mapInsert {α : Type} (m : List (Nat × α)) (i : Nat) (x : α) (e : Nat × α) :
    e ∈ mapInsert m i x ↔ e = (i, x) ∨ e ∈ m := by
  induction m with
  | nil => simp [mapInsert]
  | cons c r ih =>
    obtain ⟨k, y⟩ := c
    by_cases hi : i < k
    · simp [mapInsert, hi]
    · simp only [mapInsert, if_neg hi, List.mem_cons, ih]
      tauto

theorem mem_mapErase {α : Type} (m : List (Nat × α)) (i : Nat) (e : Nat × α) :
    e ∈ mapErase m i ↔ e ∈ m ∧ e.1 ≠ i := by simp [mapErase]

theorem mem_mapPut {α : Type} (m : List (Nat × α)) (i : Nat) (x : α) (e : Nat × α) :
    e ∈ mapPut m i x ↔ e = (i, x) ∨ (e ∈ m ∧ e.1 ≠ i) := by
  rw [mapPut, mem_mapInsert, mem_mapErase]

/-- An entry that a lookup finds is in the list. -/
theorem mem_of_mapGet? {α : Type} {m : List (Nat × α)} {i : Nat} {x : α} (h : mapGet? m i = some x) : (i, x) ∈ m := by
  induction m with
  | nil => simp [mapGet?] at h
  | cons e r ih =>
    obtain ⟨k, y⟩ := e
    by_cases hk : k = i
    · simp only [mapGet?, hk, if_true, Option.some.injEq] at h
      simp [hk, h]
    · simp only [mapGet?, hk, if_false] at h
      exact List.mem_cons_of_mem _ (ih h)

/-- Insertion into a rising list where the key is not listed keeps it rising. -/
theorem mapInsert_rising {α : Type} (m : List (Nat × α)) (i : Nat) (x : α) (h : m.Pairwise fun a b => a.1 < b.1)
    (hi : ∀ e ∈ m, e.1 ≠ i) : (mapInsert m i x).Pairwise fun a b => a.1 < b.1 := by
  induction m with
  | nil => simp [mapInsert]
  | cons e r ih =>
    obtain ⟨k, y⟩ := e
    rw [List.pairwise_cons] at h
    by_cases hik : i < k
    · simp only [mapInsert, if_pos hik, List.pairwise_cons]
      refine ⟨?_, h.1, h.2⟩
      intro b hb
      rcases List.mem_cons.1 hb with rfl | hb
      · exact hik
      · exact Nat.lt_trans hik (h.1 b hb)
    · simp only [mapInsert, if_neg hik, List.pairwise_cons]
      refine ⟨?_, ih h.2 fun e he => hi e (List.mem_cons_of_mem _ he)⟩
      intro b hb
      rcases (mem_mapInsert _ _ _ _).1 hb with rfl | hb
      · have := hi (k, y) (by simp)
        simp only [ne_eq] at this
        simp only
        omega
      · exact h.1 b hb

theorem mapErase_rising {α : Type} (m : List (Nat × α)) (i : Nat) (h : m.Pairwise fun a b => a.1 < b.1) :
    (mapErase m i).Pairwise fun a b => a.1 < b.1 := h.filter _

theorem mapPut_rising {α : Type} (m : List (Nat × α)) (i : Nat) (x : α) (h : m.Pairwise fun a b => a.1 < b.1) :
    (mapPut m i x).Pairwise fun a b => a.1 < b.1 :=
  mapInsert_rising _ _ _ (mapErase_rising _ _ h) fun _ he => ((mem_mapErase _ _ _).1 he).2

/-! Byte memory. -/

/-- The canonical form in terms of pairs. -/
theorem memWf_iff (m : List Host.Cell) :
    Memory.wf m = true ↔ (m.Pairwise fun a b => a.1 < b.1) ∧ ∀ c ∈ m, c.2 ≠ memDefault := by
  induction m with
  | nil => simp [Memory.wf]
  | cons e r ih =>
    obtain ⟨k, b⟩ := e
    cases r with
    | nil => simp [Memory.wf]
    | cons e' r' =>
      obtain ⟨k', b'⟩ := e'
      simp only [Memory.wf, Bool.and_eq_true, bne_iff_ne, decide_eq_true_eq, ih, List.pairwise_cons, List.mem_cons]
      constructor
      · rintro ⟨⟨hb, hk⟩, ⟨h1, h2⟩, h3⟩
        refine ⟨⟨?_, h1, h2⟩, ?_⟩
        · rintro a (rfl | ha)
          · exact hk
          · exact Nat.lt_trans hk (h1 a ha)
        · rintro c (rfl | hc)
          · exact hb
          · exact h3 c hc
      · rintro ⟨⟨h0, h1, h2⟩, h3⟩
        exact ⟨⟨h3 (k, b) (.inl rfl), h0 (k', b') (.inl rfl)⟩, ⟨h1, h2⟩, fun c hc => h3 c (.inr hc)⟩

@[simp] theorem memWf_nil : Memory.wf [] = true := rfl

/-- Dropping cells keeps the form. -/
theorem memWf_filter (m : List Host.Cell) (f : Host.Cell → Bool) (h : Memory.wf m = true) : Memory.wf (m.filter f) = true := by
  rw [memWf_iff] at h ⊢
  exact ⟨h.1.filter _, fun c hc => h.2 c (List.mem_filter.1 hc).1⟩

/-- A write keeps the form. -/
theorem memWf_set (m : List Host.Cell) (a : Nat) (b : Byte) (h : Memory.wf m = true) : Memory.wf (memSet m a b) = true := by
  unfold memSet
  split
  · exact memWf_filter m _ h
  · rename_i hb
    rw [memWf_iff] at h ⊢
    refine ⟨mapPut_rising _ _ _ h.1, fun c hc => ?_⟩
    rcases (mem_mapPut _ _ _ _).1 hc with rfl | hc
    · exact hb
    · exact h.2 c hc.1

theorem memWf_put (bs : List Byte) (m : List Host.Cell) (a : Nat) (h : Memory.wf m = true) : Memory.wf (memPut m a bs) = true := by
  induction bs generalizing m a with
  | nil => exact h
  | cons b r ih => exact ih _ _ (memWf_set _ _ _ h)

theorem memWf_write (n : Nat) (m : List Host.Cell) (a x : Nat) (h : Memory.wf m = true) : Memory.wf (memWrite m a n x) = true := by
  induction n generalizing m a x with
  | zero => exact h
  | succ n ih => exact ih _ _ _ (memWf_set _ _ _ h)

/-- Read after write. -/
theorem memGet_set (m : List Host.Cell) (a c : Nat) (b : Byte) :
    memGet (memSet m a b) c = if a = c then b else memGet m c := by
  unfold memGet memSet
  by_cases hb : b = memDefault
  · rw [if_pos hb]
    by_cases h : a = c
    · subst h; simp [mapGetD, hb]
    · simp [mapGetD, mapGet?_erase_ne _ _ _ h, h]
  · rw [if_neg hb, mapGetD_put]

/-- A write of bytes leaves every other address alone. -/
theorem memGet_put_outside (bs : List Byte) (m : List Host.Cell) (a c : Nat) (h : c < a ∨ a + bs.length ≤ c) :
    memGet (memPut m a bs) c = memGet m c := by
  induction bs generalizing m a with
  | nil => rfl
  | cons b r ih =>
    simp only [List.length_cons] at h
    rw [memPut, ih _ _ (by omega), memGet_set, if_neg (by omega)]

/-- A written byte reads back. -/
theorem memGet_put_inside (bs : List Byte) (m : List Host.Cell) (a j : Nat) (h : j < bs.length) :
    memGet (memPut m a bs) (a + j) = bs[j] := by
  induction bs generalizing m a j with
  | nil => simp at h
  | cons b r ih =>
    cases j with
    | zero =>
      rw [memPut, memGet_put_outside _ _ _ _ (by omega), memGet_set]
      simp
    | succ j =>
      have h' : j < r.length := by simpa using h
      rw [memPut, show a + (j + 1) = a + 1 + j by omega, ih _ _ _ h']
      rfl

theorem memRead_congr (n : Nat) (m m' : List Host.Cell) (a : Nat) (h : ∀ j, j < n → memGet m (a + j) = memGet m' (a + j)) :
    memRead m a n = memRead m' a n := by
  induction n generalizing a with
  | zero => rfl
  | succ n ih =>
    have h0 := h 0 (by omega)
    rw [Nat.add_zero] at h0
    rw [memRead, memRead, h0, ih (a + 1) fun j hj => by
      have := h (j + 1) (by omega)
      rwa [show a + 1 + j = a + (j + 1) by omega]]

/-- The value of a list of bytes reads back. -/
theorem memRead_put (bs : List Byte) (m : List Host.Cell) (a : Nat) : memRead (memPut m a bs) a bs.length = leVal bs := by
  induction bs generalizing m a with
  | nil => rfl
  | cons b r ih =>
    rw [List.length_cons, memRead, leVal, memPut, ih, memGet_put_outside _ _ _ _ (by omega), memGet_set]
    simp

theorem memRead_lt (n : Nat) (m : List Host.Cell) (a : Nat) : memRead m a n < 2 ^ (8 * n) := by
  induction n generalizing a with
  | zero => simp [memRead]
  | succ n ih =>
    have h1 := ih (a + 1)
    have h2 := (memGet m a).isLt
    rw [memRead, show 8 * (n + 1) = 8 * n + 8 by omega, Nat.pow_add]
    omega

@[simp] theorem vmap_get {α β : Type} {n : Nat} (f : α → β) (v : Vector α n) (i : Nat) (h : i < n) : (vmap f v)[i] = f v[i] := by
  simp [vmap]

end Sys2Proof.Machine
end

