-- ==== Sys2Proof/Laws/State.lean ====
section
/-! SUPPORT. One law per field per update of the state and of a context: what each update leaves alone. -/

namespace Sys2Proof.Machine

/-! Updates of the state. -/

@[simp] theorem State.setSite_engines (s : State) (t : Nat) (x : Site) : (s.setSite t x).engines = s.engines := rfl
@[simp] theorem State.setSite_routers (s : State) (t : Nat) (x : Site) : (s.setSite t x).routers = s.routers := rfl
@[simp] theorem State.setSite_ageLimit (s : State) (t : Nat) (x : Site) : (s.setSite t x).ageLimit = s.ageLimit := rfl
@[simp] theorem State.setSite_marks (s : State) (t : Nat) (x : Site) : (s.setSite t x).marks = s.marks := rfl
@[simp] theorem State.setSite_haltBits (s : State) (t : Nat) (x : Site) : (s.setSite t x).haltBits = s.haltBits := rfl
@[simp] theorem State.setSite_holdBuf (s : State) (t : Nat) (x : Site) : (s.setSite t x).holdBuf = s.holdBuf := rfl
@[simp] theorem State.setSite_bridges (s : State) (t : Nat) (x : Site) : (s.setSite t x).bridges = s.bridges := rfl
@[simp] theorem State.setSite_launches (s : State) (t : Nat) (x : Site) : (s.setSite t x).launches = s.launches := rfl
@[simp] theorem State.setSite_kernels (s : State) (t : Nat) (x : Site) : (s.setSite t x).kernels = s.kernels := rfl
@[simp] theorem State.setSite_tenants (s : State) (t : Nat) (x : Site) : (s.setSite t x).tenants = s.tenants := rfl
@[simp] theorem State.setSite_nextH (s : State) (t : Nat) (x : Site) : (s.setSite t x).nextH = s.nextH := rfl
@[simp] theorem State.setSite_nextL (s : State) (t : Nat) (x : Site) : (s.setSite t x).nextL = s.nextL := rfl
@[simp] theorem State.setSite_qturn (s : State) (t : Nat) (x : Site) : (s.setSite t x).qturn = s.qturn := rfl
@[simp] theorem State.setSite_phq (s : State) (t : Nat) (x : Site) : (s.setSite t x).phq = s.phq := rfl
@[simp] theorem State.setSite_stations (s : State) (t : Nat) (x : Site) : (s.setSite t x).stations = s.stations := rfl
@[simp] theorem State.setSite_seals (s : State) (t : Nat) (x : Site) : (s.setSite t x).seals = s.seals := rfl
@[simp] theorem State.setSite_pushes (s : State) (t : Nat) (x : Site) : (s.setSite t x).pushes = s.pushes := rfl
@[simp] theorem State.setSite_root (s : State) (t : Nat) (x : Site) : (s.setSite t x).root = s.root := rfl
@[simp] theorem State.setSite_helmRoots (s : State) (t : Nat) (x : Site) : (s.setSite t x).helmRoots = s.helmRoots := rfl
@[simp] theorem State.setSite_phys (s : State) (t : Nat) (x : Site) : (s.setSite t x).phys = s.phys := rfl
@[simp] theorem State.setSite_badPhys (s : State) (t : Nat) (x : Site) : (s.setSite t x).badPhys = s.badPhys := rfl
@[simp] theorem State.setSite_settling (s : State) (t : Nat) (x : Site) : (s.setSite t x).settling = s.settling := rfl
@[simp] theorem State.setSite_counters (s : State) (t : Nat) (x : Site) : (s.setSite t x).counters = s.counters := rfl
@[simp] theorem State.setSite_cntq (s : State) (t : Nat) (x : Site) : (s.setSite t x).cntq = s.cntq := rfl
@[simp] theorem State.setSite_incs (s : State) (t : Nat) (x : Site) : (s.setSite t x).incs = s.incs := rfl
@[simp] theorem State.setSite_lent (s : State) (t : Nat) (x : Site) : (s.setSite t x).lent = s.lent := rfl
@[simp] theorem State.setSite_armed (s : State) (t : Nat) (x : Site) : (s.setSite t x).armed = s.armed := rfl
@[simp] theorem State.setSite_firing (s : State) (t : Nat) (x : Site) : (s.setSite t x).firing = s.firing := rfl
@[simp] theorem State.setSite_spans (s : State) (t : Nat) (x : Site) : (s.setSite t x).spans = s.spans := rfl
@[simp] theorem State.setSite_routes (s : State) (t : Nat) (x : Site) : (s.setSite t x).routes = s.routes := rfl
@[simp] theorem State.setSite_device (s : State) (t : Nat) (x : Site) : (s.setSite t x).device = s.device := rfl
@[simp] theorem State.setSite_xfers (s : State) (t : Nat) (x : Site) : (s.setSite t x).xfers = s.xfers := rfl
@[simp] theorem State.setSite_incoming (s : State) (t : Nat) (x : Site) : (s.setSite t x).incoming = s.incoming := rfl
@[simp] theorem State.setSite_xrecs (s : State) (t : Nat) (x : Site) : (s.setSite t x).xrecs = s.xrecs := rfl
@[simp] theorem State.setSite_spanWait (s : State) (t : Nat) (x : Site) : (s.setSite t x).spanWait = s.spanWait := rfl
@[simp] theorem State.setSite_nextX (s : State) (t : Nat) (x : Site) : (s.setSite t x).nextX = s.nextX := rfl
@[simp] theorem State.setSite_spanStop (s : State) (t : Nat) (x : Site) : (s.setSite t x).spanStop = s.spanStop := rfl
@[simp] theorem State.setSite_power (s : State) (t : Nat) (x : Site) : (s.setSite t x).power = s.power := rfl
@[simp] theorem State.setSite_boot (s : State) (t : Nat) (x : Site) : (s.setSite t x).boot = s.boot := rfl
@[simp] theorem State.setSite_sumac (s : State) (t : Nat) (x : Site) : (s.setSite t x).sumac = s.sumac := rfl
@[simp] theorem State.setSite_errors (s : State) (t : Nat) (x : Site) : (s.setSite t x).errors = s.errors := rfl
@[simp] theorem State.setSite_commitIv (s : State) (t : Nat) (x : Site) : (s.setSite t x).commitIv = s.commitIv := rfl
@[simp] theorem State.setSite_cycle (s : State) (t : Nat) (x : Site) : (s.setSite t x).cycle = s.cycle := rfl
@[simp] theorem State.setSite_cur (s : State) (t : Nat) (x : Site) : (s.setSite t x).cur = s.cur := rfl
@[simp] theorem State.setSite_agenda (s : State) (t : Nat) (x : Site) : (s.setSite t x).agenda = s.agenda := rfl
@[simp] theorem State.setSite_rrSite (s : State) (t : Nat) (x : Site) : (s.setSite t x).rrSite = s.rrSite := rfl
@[simp] theorem State.setSite_round (s : State) (t : Nat) (x : Site) : (s.setSite t x).round = s.round := rfl
@[simp] theorem State.setSite_interval (s : State) (t : Nat) (x : Site) : (s.setSite t x).interval = s.interval := rfl
@[simp] theorem State.setSite_fresh (s : State) (t : Nat) (x : Site) : (s.setSite t x).fresh = s.fresh := rfl

@[simp] theorem State.modSite_engines (s : State) (t : Nat) (f : Site → Site) : (s.modSite t f).engines = s.engines := rfl
@[simp] theorem State.modSite_routers (s : State) (t : Nat) (f : Site → Site) : (s.modSite t f).routers = s.routers := rfl
@[simp] theorem State.modSite_ageLimit (s : State) (t : Nat) (f : Site → Site) : (s.modSite t f).ageLimit = s.ageLimit := rfl
@[simp] theorem State.modSite_marks (s : State) (t : Nat) (f : Site → Site) : (s.modSite t f).marks = s.marks := rfl
@[simp] theorem State.modSite_haltBits (s : State) (t : Nat) (f : Site → Site) : (s.modSite t f).haltBits = s.haltBits := rfl
@[simp] theorem State.modSite_holdBuf (s : State) (t : Nat) (f : Site → Site) : (s.modSite t f).holdBuf = s.holdBuf := rfl
@[simp] theorem State.modSite_bridges (s : State) (t : Nat) (f : Site → Site) : (s.modSite t f).bridges = s.bridges := rfl
@[simp] theorem State.modSite_launches (s : State) (t : Nat) (f : Site → Site) : (s.modSite t f).launches = s.launches := rfl
@[simp] theorem State.modSite_kernels (s : State) (t : Nat) (f : Site → Site) : (s.modSite t f).kernels = s.kernels := rfl
@[simp] theorem State.modSite_tenants (s : State) (t : Nat) (f : Site → Site) : (s.modSite t f).tenants = s.tenants := rfl
@[simp] theorem State.modSite_nextH (s : State) (t : Nat) (f : Site → Site) : (s.modSite t f).nextH = s.nextH := rfl
@[simp] theorem State.modSite_nextL (s : State) (t : Nat) (f : Site → Site) : (s.modSite t f).nextL = s.nextL := rfl
@[simp] theorem State.modSite_qturn (s : State) (t : Nat) (f : Site → Site) : (s.modSite t f).qturn = s.qturn := rfl
@[simp] theorem State.modSite_phq (s : State) (t : Nat) (f : Site → Site) : (s.modSite t f).phq = s.phq := rfl
@[simp] theorem State.modSite_stations (s : State) (t : Nat) (f : Site → Site) : (s.modSite t f).stations = s.stations := rfl
@[simp] theorem State.modSite_seals (s : State) (t : Nat) (f : Site → Site) : (s.modSite t f).seals = s.seals := rfl
@[simp] theorem State.modSite_pushes (s : State) (t : Nat) (f : Site → Site) : (s.modSite t f).pushes = s.pushes := rfl
@[simp] theorem State.modSite_root (s : State) (t : Nat) (f : Site → Site) : (s.modSite t f).root = s.root := rfl
@[simp] theorem State.modSite_helmRoots (s : State) (t : Nat) (f : Site → Site) : (s.modSite t f).helmRoots = s.helmRoots := rfl
@[simp] theorem State.modSite_phys (s : State) (t : Nat) (f : Site → Site) : (s.modSite t f).phys = s.phys := rfl
@[simp] theorem State.modSite_badPhys (s : State) (t : Nat) (f : Site → Site) : (s.modSite t f).badPhys = s.badPhys := rfl
@[simp] theorem State.modSite_settling (s : State) (t : Nat) (f : Site → Site) : (s.modSite t f).settling = s.settling := rfl
@[simp] theorem State.modSite_counters (s : State) (t : Nat) (f : Site → Site) : (s.modSite t f).counters = s.counters := rfl
@[simp] theorem State.modSite_cntq (s : State) (t : Nat) (f : Site → Site) : (s.modSite t f).cntq = s.cntq := rfl
@[simp] theorem State.modSite_incs (s : State) (t : Nat) (f : Site → Site) : (s.modSite t f).incs = s.incs := rfl
@[simp] theorem State.modSite_lent (s : State) (t : Nat) (f : Site → Site) : (s.modSite t f).lent = s.lent := rfl
@[simp] theorem State.modSite_armed (s : State) (t : Nat) (f : Site → Site) : (s.modSite t f).armed = s.armed := rfl
@[simp] theorem State.modSite_firing (s : State) (t : Nat) (f : Site → Site) : (s.modSite t f).firing = s.firing := rfl
@[simp] theorem State.modSite_spans (s : State) (t : Nat) (f : Site → Site) : (s.modSite t f).spans = s.spans := rfl
@[simp] theorem State.modSite_routes (s : State) (t : Nat) (f : Site → Site) : (s.modSite t f).routes = s.routes := rfl
@[simp] theorem State.modSite_device (s : State) (t : Nat) (f : Site → Site) : (s.modSite t f).device = s.device := rfl
@[simp] theorem State.modSite_xfers (s : State) (t : Nat) (f : Site → Site) : (s.modSite t f).xfers = s.xfers := rfl
@[simp] theorem State.modSite_incoming (s : State) (t : Nat) (f : Site → Site) : (s.modSite t f).incoming = s.incoming := rfl
@[simp] theorem State.modSite_xrecs (s : State) (t : Nat) (f : Site → Site) : (s.modSite t f).xrecs = s.xrecs := rfl
@[simp] theorem State.modSite_spanWait (s : State) (t : Nat) (f : Site → Site) : (s.modSite t f).spanWait = s.spanWait := rfl
@[simp] theorem State.modSite_nextX (s : State) (t : Nat) (f : Site → Site) : (s.modSite t f).nextX = s.nextX := rfl
@[simp] theorem State.modSite_spanStop (s : State) (t : Nat) (f : Site → Site) : (s.modSite t f).spanStop = s.spanStop := rfl
@[simp] theorem State.modSite_power (s : State) (t : Nat) (f : Site → Site) : (s.modSite t f).power = s.power := rfl
@[simp] theorem State.modSite_boot (s : State) (t : Nat) (f : Site → Site) : (s.modSite t f).boot = s.boot := rfl
@[simp] theorem State.modSite_sumac (s : State) (t : Nat) (f : Site → Site) : (s.modSite t f).sumac = s.sumac := rfl
@[simp] theorem State.modSite_errors (s : State) (t : Nat) (f : Site → Site) : (s.modSite t f).errors = s.errors := rfl
@[simp] theorem State.modSite_commitIv (s : State) (t : Nat) (f : Site → Site) : (s.modSite t f).commitIv = s.commitIv := rfl
@[simp] theorem State.modSite_cycle (s : State) (t : Nat) (f : Site → Site) : (s.modSite t f).cycle = s.cycle := rfl
@[simp] theorem State.modSite_cur (s : State) (t : Nat) (f : Site → Site) : (s.modSite t f).cur = s.cur := rfl
@[simp] theorem State.modSite_agenda (s : State) (t : Nat) (f : Site → Site) : (s.modSite t f).agenda = s.agenda := rfl
@[simp] theorem State.modSite_rrSite (s : State) (t : Nat) (f : Site → Site) : (s.modSite t f).rrSite = s.rrSite := rfl
@[simp] theorem State.modSite_round (s : State) (t : Nat) (f : Site → Site) : (s.modSite t f).round = s.round := rfl
@[simp] theorem State.modSite_interval (s : State) (t : Nat) (f : Site → Site) : (s.modSite t f).interval = s.interval := rfl
@[simp] theorem State.modSite_fresh (s : State) (t : Nat) (f : Site → Site) : (s.modSite t f).fresh = s.fresh := rfl

@[simp] theorem State.modCore_engines (s : State) (t : Nat) (f : Core → Core) : (s.modCore t f).engines = s.engines := rfl
@[simp] theorem State.modCore_routers (s : State) (t : Nat) (f : Core → Core) : (s.modCore t f).routers = s.routers := rfl
@[simp] theorem State.modCore_ageLimit (s : State) (t : Nat) (f : Core → Core) : (s.modCore t f).ageLimit = s.ageLimit := rfl
@[simp] theorem State.modCore_marks (s : State) (t : Nat) (f : Core → Core) : (s.modCore t f).marks = s.marks := rfl
@[simp] theorem State.modCore_haltBits (s : State) (t : Nat) (f : Core → Core) : (s.modCore t f).haltBits = s.haltBits := rfl
@[simp] theorem State.modCore_holdBuf (s : State) (t : Nat) (f : Core → Core) : (s.modCore t f).holdBuf = s.holdBuf := rfl
@[simp] theorem State.modCore_bridges (s : State) (t : Nat) (f : Core → Core) : (s.modCore t f).bridges = s.bridges := rfl
@[simp] theorem State.modCore_launches (s : State) (t : Nat) (f : Core → Core) : (s.modCore t f).launches = s.launches := rfl
@[simp] theorem State.modCore_kernels (s : State) (t : Nat) (f : Core → Core) : (s.modCore t f).kernels = s.kernels := rfl
@[simp] theorem State.modCore_tenants (s : State) (t : Nat) (f : Core → Core) : (s.modCore t f).tenants = s.tenants := rfl
@[simp] theorem State.modCore_nextH (s : State) (t : Nat) (f : Core → Core) : (s.modCore t f).nextH = s.nextH := rfl
@[simp] theorem State.modCore_nextL (s : State) (t : Nat) (f : Core → Core) : (s.modCore t f).nextL = s.nextL := rfl
@[simp] theorem State.modCore_qturn (s : State) (t : Nat) (f : Core → Core) : (s.modCore t f).qturn = s.qturn := rfl
@[simp] theorem State.modCore_phq (s : State) (t : Nat) (f : Core → Core) : (s.modCore t f).phq = s.phq := rfl
@[simp] theorem State.modCore_stations (s : State) (t : Nat) (f : Core → Core) : (s.modCore t f).stations = s.stations := rfl
@[simp] theorem State.modCore_seals (s : State) (t : Nat) (f : Core → Core) : (s.modCore t f).seals = s.seals := rfl
@[simp] theorem State.modCore_pushes (s : State) (t : Nat) (f : Core → Core) : (s.modCore t f).pushes = s.pushes := rfl
@[simp] theorem State.modCore_root (s : State) (t : Nat) (f : Core → Core) : (s.modCore t f).root = s.root := rfl
@[simp] theorem State.modCore_helmRoots (s : State) (t : Nat) (f : Core → Core) : (s.modCore t f).helmRoots = s.helmRoots := rfl
@[simp] theorem State.modCore_phys (s : State) (t : Nat) (f : Core → Core) : (s.modCore t f).phys = s.phys := rfl
@[simp] theorem State.modCore_badPhys (s : State) (t : Nat) (f : Core → Core) : (s.modCore t f).badPhys = s.badPhys := rfl
@[simp] theorem State.modCore_settling (s : State) (t : Nat) (f : Core → Core) : (s.modCore t f).settling = s.settling := rfl
@[simp] theorem State.modCore_counters (s : State) (t : Nat) (f : Core → Core) : (s.modCore t f).counters = s.counters := rfl
@[simp] theorem State.modCore_cntq (s : State) (t : Nat) (f : Core → Core) : (s.modCore t f).cntq = s.cntq := rfl
@[simp] theorem State.modCore_incs (s : State) (t : Nat) (f : Core → Core) : (s.modCore t f).incs = s.incs := rfl
@[simp] theorem State.modCore_lent (s : State) (t : Nat) (f : Core → Core) : (s.modCore t f).lent = s.lent := rfl
@[simp] theorem State.modCore_armed (s : State) (t : Nat) (f : Core → Core) : (s.modCore t f).armed = s.armed := rfl
@[simp] theorem State.modCore_firing (s : State) (t : Nat) (f : Core → Core) : (s.modCore t f).firing = s.firing := rfl
@[simp] theorem State.modCore_spans (s : State) (t : Nat) (f : Core → Core) : (s.modCore t f).spans = s.spans := rfl
@[simp] theorem State.modCore_routes (s : State) (t : Nat) (f : Core → Core) : (s.modCore t f).routes = s.routes := rfl
@[simp] theorem State.modCore_device (s : State) (t : Nat) (f : Core → Core) : (s.modCore t f).device = s.device := rfl
@[simp] theorem State.modCore_xfers (s : State) (t : Nat) (f : Core → Core) : (s.modCore t f).xfers = s.xfers := rfl
@[simp] theorem State.modCore_incoming (s : State) (t : Nat) (f : Core → Core) : (s.modCore t f).incoming = s.incoming := rfl
@[simp] theorem State.modCore_xrecs (s : State) (t : Nat) (f : Core → Core) : (s.modCore t f).xrecs = s.xrecs := rfl
@[simp] theorem State.modCore_spanWait (s : State) (t : Nat) (f : Core → Core) : (s.modCore t f).spanWait = s.spanWait := rfl
@[simp] theorem State.modCore_nextX (s : State) (t : Nat) (f : Core → Core) : (s.modCore t f).nextX = s.nextX := rfl
@[simp] theorem State.modCore_spanStop (s : State) (t : Nat) (f : Core → Core) : (s.modCore t f).spanStop = s.spanStop := rfl
@[simp] theorem State.modCore_power (s : State) (t : Nat) (f : Core → Core) : (s.modCore t f).power = s.power := rfl
@[simp] theorem State.modCore_boot (s : State) (t : Nat) (f : Core → Core) : (s.modCore t f).boot = s.boot := rfl
@[simp] theorem State.modCore_sumac (s : State) (t : Nat) (f : Core → Core) : (s.modCore t f).sumac = s.sumac := rfl
@[simp] theorem State.modCore_errors (s : State) (t : Nat) (f : Core → Core) : (s.modCore t f).errors = s.errors := rfl
@[simp] theorem State.modCore_commitIv (s : State) (t : Nat) (f : Core → Core) : (s.modCore t f).commitIv = s.commitIv := rfl
@[simp] theorem State.modCore_cycle (s : State) (t : Nat) (f : Core → Core) : (s.modCore t f).cycle = s.cycle := rfl
@[simp] theorem State.modCore_cur (s : State) (t : Nat) (f : Core → Core) : (s.modCore t f).cur = s.cur := rfl
@[simp] theorem State.modCore_agenda (s : State) (t : Nat) (f : Core → Core) : (s.modCore t f).agenda = s.agenda := rfl
@[simp] theorem State.modCore_rrSite (s : State) (t : Nat) (f : Core → Core) : (s.modCore t f).rrSite = s.rrSite := rfl
@[simp] theorem State.modCore_round (s : State) (t : Nat) (f : Core → Core) : (s.modCore t f).round = s.round := rfl
@[simp] theorem State.modCore_interval (s : State) (t : Nat) (f : Core → Core) : (s.modCore t f).interval = s.interval := rfl
@[simp] theorem State.modCore_fresh (s : State) (t : Nat) (f : Core → Core) : (s.modCore t f).fresh = s.fresh := rfl

@[simp] theorem State.setCtxAt_engines (s : State) (t : Nat) (c : Fin 4) (x : Ctx) : (s.setCtxAt t c x).engines = s.engines := rfl
@[simp] theorem State.setCtxAt_routers (s : State) (t : Nat) (c : Fin 4) (x : Ctx) : (s.setCtxAt t c x).routers = s.routers := rfl
@[simp] theorem State.setCtxAt_ageLimit (s : State) (t : Nat) (c : Fin 4) (x : Ctx) : (s.setCtxAt t c x).ageLimit = s.ageLimit := rfl
@[simp] theorem State.setCtxAt_marks (s : State) (t : Nat) (c : Fin 4) (x : Ctx) : (s.setCtxAt t c x).marks = s.marks := rfl
@[simp] theorem State.setCtxAt_haltBits (s : State) (t : Nat) (c : Fin 4) (x : Ctx) : (s.setCtxAt t c x).haltBits = s.haltBits := rfl
@[simp] theorem State.setCtxAt_holdBuf (s : State) (t : Nat) (c : Fin 4) (x : Ctx) : (s.setCtxAt t c x).holdBuf = s.holdBuf := rfl
@[simp] theorem State.setCtxAt_bridges (s : State) (t : Nat) (c : Fin 4) (x : Ctx) : (s.setCtxAt t c x).bridges = s.bridges := rfl
@[simp] theorem State.setCtxAt_launches (s : State) (t : Nat) (c : Fin 4) (x : Ctx) : (s.setCtxAt t c x).launches = s.launches := rfl
@[simp] theorem State.setCtxAt_kernels (s : State) (t : Nat) (c : Fin 4) (x : Ctx) : (s.setCtxAt t c x).kernels = s.kernels := rfl
@[simp] theorem State.setCtxAt_tenants (s : State) (t : Nat) (c : Fin 4) (x : Ctx) : (s.setCtxAt t c x).tenants = s.tenants := rfl
@[simp] theorem State.setCtxAt_nextH (s : State) (t : Nat) (c : Fin 4) (x : Ctx) : (s.setCtxAt t c x).nextH = s.nextH := rfl
@[simp] theorem State.setCtxAt_nextL (s : State) (t : Nat) (c : Fin 4) (x : Ctx) : (s.setCtxAt t c x).nextL = s.nextL := rfl
@[simp] theorem State.setCtxAt_qturn (s : State) (t : Nat) (c : Fin 4) (x : Ctx) : (s.setCtxAt t c x).qturn = s.qturn := rfl
@[simp] theorem State.setCtxAt_phq (s : State) (t : Nat) (c : Fin 4) (x : Ctx) : (s.setCtxAt t c x).phq = s.phq := rfl
@[simp] theorem State.setCtxAt_stations (s : State) (t : Nat) (c : Fin 4) (x : Ctx) : (s.setCtxAt t c x).stations = s.stations := rfl
@[simp] theorem State.setCtxAt_seals (s : State) (t : Nat) (c : Fin 4) (x : Ctx) : (s.setCtxAt t c x).seals = s.seals := rfl
@[simp] theorem State.setCtxAt_pushes (s : State) (t : Nat) (c : Fin 4) (x : Ctx) : (s.setCtxAt t c x).pushes = s.pushes := rfl
@[simp] theorem State.setCtxAt_root (s : State) (t : Nat) (c : Fin 4) (x : Ctx) : (s.setCtxAt t c x).root = s.root := rfl
@[simp] theorem State.setCtxAt_helmRoots (s : State) (t : Nat) (c : Fin 4) (x : Ctx) : (s.setCtxAt t c x).helmRoots = s.helmRoots := rfl
@[simp] theorem State.setCtxAt_phys (s : State) (t : Nat) (c : Fin 4) (x : Ctx) : (s.setCtxAt t c x).phys = s.phys := rfl
@[simp] theorem State.setCtxAt_badPhys (s : State) (t : Nat) (c : Fin 4) (x : Ctx) : (s.setCtxAt t c x).badPhys = s.badPhys := rfl
@[simp] theorem State.setCtxAt_settling (s : State) (t : Nat) (c : Fin 4) (x : Ctx) : (s.setCtxAt t c x).settling = s.settling := rfl
@[simp] theorem State.setCtxAt_counters (s : State) (t : Nat) (c : Fin 4) (x : Ctx) : (s.setCtxAt t c x).counters = s.counters := rfl
@[simp] theorem State.setCtxAt_cntq (s : State) (t : Nat) (c : Fin 4) (x : Ctx) : (s.setCtxAt t c x).cntq = s.cntq := rfl
@[simp] theorem State.setCtxAt_incs (s : State) (t : Nat) (c : Fin 4) (x : Ctx) : (s.setCtxAt t c x).incs = s.incs := rfl
@[simp] theorem State.setCtxAt_lent (s : State) (t : Nat) (c : Fin 4) (x : Ctx) : (s.setCtxAt t c x).lent = s.lent := rfl
@[simp] theorem State.setCtxAt_armed (s : State) (t : Nat) (c : Fin 4) (x : Ctx) : (s.setCtxAt t c x).armed = s.armed := rfl
@[simp] theorem State.setCtxAt_firing (s : State) (t : Nat) (c : Fin 4) (x : Ctx) : (s.setCtxAt t c x).firing = s.firing := rfl
@[simp] theorem State.setCtxAt_spans (s : State) (t : Nat) (c : Fin 4) (x : Ctx) : (s.setCtxAt t c x).spans = s.spans := rfl
@[simp] theorem State.setCtxAt_routes (s : State) (t : Nat) (c : Fin 4) (x : Ctx) : (s.setCtxAt t c x).routes = s.routes := rfl
@[simp] theorem State.setCtxAt_device (s : State) (t : Nat) (c : Fin 4) (x : Ctx) : (s.setCtxAt t c x).device = s.device := rfl
@[simp] theorem State.setCtxAt_xfers (s : State) (t : Nat) (c : Fin 4) (x : Ctx) : (s.setCtxAt t c x).xfers = s.xfers := rfl
@[simp] theorem State.setCtxAt_incoming (s : State) (t : Nat) (c : Fin 4) (x : Ctx) : (s.setCtxAt t c x).incoming = s.incoming := rfl
@[simp] theorem State.setCtxAt_xrecs (s : State) (t : Nat) (c : Fin 4) (x : Ctx) : (s.setCtxAt t c x).xrecs = s.xrecs := rfl
@[simp] theorem State.setCtxAt_spanWait (s : State) (t : Nat) (c : Fin 4) (x : Ctx) : (s.setCtxAt t c x).spanWait = s.spanWait := rfl
@[simp] theorem State.setCtxAt_nextX (s : State) (t : Nat) (c : Fin 4) (x : Ctx) : (s.setCtxAt t c x).nextX = s.nextX := rfl
@[simp] theorem State.setCtxAt_spanStop (s : State) (t : Nat) (c : Fin 4) (x : Ctx) : (s.setCtxAt t c x).spanStop = s.spanStop := rfl
@[simp] theorem State.setCtxAt_power (s : State) (t : Nat) (c : Fin 4) (x : Ctx) : (s.setCtxAt t c x).power = s.power := rfl
@[simp] theorem State.setCtxAt_boot (s : State) (t : Nat) (c : Fin 4) (x : Ctx) : (s.setCtxAt t c x).boot = s.boot := rfl
@[simp] theorem State.setCtxAt_sumac (s : State) (t : Nat) (c : Fin 4) (x : Ctx) : (s.setCtxAt t c x).sumac = s.sumac := rfl
@[simp] theorem State.setCtxAt_errors (s : State) (t : Nat) (c : Fin 4) (x : Ctx) : (s.setCtxAt t c x).errors = s.errors := rfl
@[simp] theorem State.setCtxAt_commitIv (s : State) (t : Nat) (c : Fin 4) (x : Ctx) : (s.setCtxAt t c x).commitIv = s.commitIv := rfl
@[simp] theorem State.setCtxAt_cycle (s : State) (t : Nat) (c : Fin 4) (x : Ctx) : (s.setCtxAt t c x).cycle = s.cycle := rfl
@[simp] theorem State.setCtxAt_cur (s : State) (t : Nat) (c : Fin 4) (x : Ctx) : (s.setCtxAt t c x).cur = s.cur := rfl
@[simp] theorem State.setCtxAt_agenda (s : State) (t : Nat) (c : Fin 4) (x : Ctx) : (s.setCtxAt t c x).agenda = s.agenda := rfl
@[simp] theorem State.setCtxAt_rrSite (s : State) (t : Nat) (c : Fin 4) (x : Ctx) : (s.setCtxAt t c x).rrSite = s.rrSite := rfl
@[simp] theorem State.setCtxAt_round (s : State) (t : Nat) (c : Fin 4) (x : Ctx) : (s.setCtxAt t c x).round = s.round := rfl
@[simp] theorem State.setCtxAt_interval (s : State) (t : Nat) (c : Fin 4) (x : Ctx) : (s.setCtxAt t c x).interval = s.interval := rfl
@[simp] theorem State.setCtxAt_fresh (s : State) (t : Nat) (c : Fin 4) (x : Ctx) : (s.setCtxAt t c x).fresh = s.fresh := rfl

@[simp] theorem State.modCtxAt_engines (s : State) (t : Nat) (c : Fin 4) (f : Ctx → Ctx) : (s.modCtxAt t c f).engines = s.engines := rfl
@[simp] theorem State.modCtxAt_routers (s : State) (t : Nat) (c : Fin 4) (f : Ctx → Ctx) : (s.modCtxAt t c f).routers = s.routers := rfl
@[simp] theorem State.modCtxAt_ageLimit (s : State) (t : Nat) (c : Fin 4) (f : Ctx → Ctx) : (s.modCtxAt t c f).ageLimit = s.ageLimit := rfl
@[simp] theorem State.modCtxAt_marks (s : State) (t : Nat) (c : Fin 4) (f : Ctx → Ctx) : (s.modCtxAt t c f).marks = s.marks := rfl
@[simp] theorem State.modCtxAt_haltBits (s : State) (t : Nat) (c : Fin 4) (f : Ctx → Ctx) : (s.modCtxAt t c f).haltBits = s.haltBits := rfl
@[simp] theorem State.modCtxAt_holdBuf (s : State) (t : Nat) (c : Fin 4) (f : Ctx → Ctx) : (s.modCtxAt t c f).holdBuf = s.holdBuf := rfl
@[simp] theorem State.modCtxAt_bridges (s : State) (t : Nat) (c : Fin 4) (f : Ctx → Ctx) : (s.modCtxAt t c f).bridges = s.bridges := rfl
@[simp] theorem State.modCtxAt_launches (s : State) (t : Nat) (c : Fin 4) (f : Ctx → Ctx) : (s.modCtxAt t c f).launches = s.launches := rfl
@[simp] theorem State.modCtxAt_kernels (s : State) (t : Nat) (c : Fin 4) (f : Ctx → Ctx) : (s.modCtxAt t c f).kernels = s.kernels := rfl
@[simp] theorem State.modCtxAt_tenants (s : State) (t : Nat) (c : Fin 4) (f : Ctx → Ctx) : (s.modCtxAt t c f).tenants = s.tenants := rfl
@[simp] theorem State.modCtxAt_nextH (s : State) (t : Nat) (c : Fin 4) (f : Ctx → Ctx) : (s.modCtxAt t c f).nextH = s.nextH := rfl
@[simp] theorem State.modCtxAt_nextL (s : State) (t : Nat) (c : Fin 4) (f : Ctx → Ctx) : (s.modCtxAt t c f).nextL = s.nextL := rfl
@[simp] theorem State.modCtxAt_qturn (s : State) (t : Nat) (c : Fin 4) (f : Ctx → Ctx) : (s.modCtxAt t c f).qturn = s.qturn := rfl
@[simp] theorem State.modCtxAt_phq (s : State) (t : Nat) (c : Fin 4) (f : Ctx → Ctx) : (s.modCtxAt t c f).phq = s.phq := rfl
@[simp] theorem State.modCtxAt_stations (s : State) (t : Nat) (c : Fin 4) (f : Ctx → Ctx) : (s.modCtxAt t c f).stations = s.stations := rfl
@[simp] theorem State.modCtxAt_seals (s : State) (t : Nat) (c : Fin 4) (f : Ctx → Ctx) : (s.modCtxAt t c f).seals = s.seals := rfl
@[simp] theorem State.modCtxAt_pushes (s : State) (t : Nat) (c : Fin 4) (f : Ctx → Ctx) : (s.modCtxAt t c f).pushes = s.pushes := rfl
@[simp] theorem State.modCtxAt_root (s : State) (t : Nat) (c : Fin 4) (f : Ctx → Ctx) : (s.modCtxAt t c f).root = s.root := rfl
@[simp] theorem State.modCtxAt_helmRoots (s : State) (t : Nat) (c : Fin 4) (f : Ctx → Ctx) : (s.modCtxAt t c f).helmRoots = s.helmRoots := rfl
@[simp] theorem State.modCtxAt_phys (s : State) (t : Nat) (c : Fin 4) (f : Ctx → Ctx) : (s.modCtxAt t c f).phys = s.phys := rfl
@[simp] theorem State.modCtxAt_badPhys (s : State) (t : Nat) (c : Fin 4) (f : Ctx → Ctx) : (s.modCtxAt t c f).badPhys = s.badPhys := rfl
@[simp] theorem State.modCtxAt_settling (s : State) (t : Nat) (c : Fin 4) (f : Ctx → Ctx) : (s.modCtxAt t c f).settling = s.settling := rfl
@[simp] theorem State.modCtxAt_counters (s : State) (t : Nat) (c : Fin 4) (f : Ctx → Ctx) : (s.modCtxAt t c f).counters = s.counters := rfl
@[simp] theorem State.modCtxAt_cntq (s : State) (t : Nat) (c : Fin 4) (f : Ctx → Ctx) : (s.modCtxAt t c f).cntq = s.cntq := rfl
@[simp] theorem State.modCtxAt_incs (s : State) (t : Nat) (c : Fin 4) (f : Ctx → Ctx) : (s.modCtxAt t c f).incs = s.incs := rfl
@[simp] theorem State.modCtxAt_lent (s : State) (t : Nat) (c : Fin 4) (f : Ctx → Ctx) : (s.modCtxAt t c f).lent = s.lent := rfl
@[simp] theorem State.modCtxAt_armed (s : State) (t : Nat) (c : Fin 4) (f : Ctx → Ctx) : (s.modCtxAt t c f).armed = s.armed := rfl
@[simp] theorem State.modCtxAt_firing (s : State) (t : Nat) (c : Fin 4) (f : Ctx → Ctx) : (s.modCtxAt t c f).firing = s.firing := rfl
@[simp] theorem State.modCtxAt_spans (s : State) (t : Nat) (c : Fin 4) (f : Ctx → Ctx) : (s.modCtxAt t c f).spans = s.spans := rfl
@[simp] theorem State.modCtxAt_routes (s : State) (t : Nat) (c : Fin 4) (f : Ctx → Ctx) : (s.modCtxAt t c f).routes = s.routes := rfl
@[simp] theorem State.modCtxAt_device (s : State) (t : Nat) (c : Fin 4) (f : Ctx → Ctx) : (s.modCtxAt t c f).device = s.device := rfl
@[simp] theorem State.modCtxAt_xfers (s : State) (t : Nat) (c : Fin 4) (f : Ctx → Ctx) : (s.modCtxAt t c f).xfers = s.xfers := rfl
@[simp] theorem State.modCtxAt_incoming (s : State) (t : Nat) (c : Fin 4) (f : Ctx → Ctx) : (s.modCtxAt t c f).incoming = s.incoming := rfl
@[simp] theorem State.modCtxAt_xrecs (s : State) (t : Nat) (c : Fin 4) (f : Ctx → Ctx) : (s.modCtxAt t c f).xrecs = s.xrecs := rfl
@[simp] theorem State.modCtxAt_spanWait (s : State) (t : Nat) (c : Fin 4) (f : Ctx → Ctx) : (s.modCtxAt t c f).spanWait = s.spanWait := rfl
@[simp] theorem State.modCtxAt_nextX (s : State) (t : Nat) (c : Fin 4) (f : Ctx → Ctx) : (s.modCtxAt t c f).nextX = s.nextX := rfl
@[simp] theorem State.modCtxAt_spanStop (s : State) (t : Nat) (c : Fin 4) (f : Ctx → Ctx) : (s.modCtxAt t c f).spanStop = s.spanStop := rfl
@[simp] theorem State.modCtxAt_power (s : State) (t : Nat) (c : Fin 4) (f : Ctx → Ctx) : (s.modCtxAt t c f).power = s.power := rfl
@[simp] theorem State.modCtxAt_boot (s : State) (t : Nat) (c : Fin 4) (f : Ctx → Ctx) : (s.modCtxAt t c f).boot = s.boot := rfl
@[simp] theorem State.modCtxAt_sumac (s : State) (t : Nat) (c : Fin 4) (f : Ctx → Ctx) : (s.modCtxAt t c f).sumac = s.sumac := rfl
@[simp] theorem State.modCtxAt_errors (s : State) (t : Nat) (c : Fin 4) (f : Ctx → Ctx) : (s.modCtxAt t c f).errors = s.errors := rfl
@[simp] theorem State.modCtxAt_commitIv (s : State) (t : Nat) (c : Fin 4) (f : Ctx → Ctx) : (s.modCtxAt t c f).commitIv = s.commitIv := rfl
@[simp] theorem State.modCtxAt_cycle (s : State) (t : Nat) (c : Fin 4) (f : Ctx → Ctx) : (s.modCtxAt t c f).cycle = s.cycle := rfl
@[simp] theorem State.modCtxAt_cur (s : State) (t : Nat) (c : Fin 4) (f : Ctx → Ctx) : (s.modCtxAt t c f).cur = s.cur := rfl
@[simp] theorem State.modCtxAt_agenda (s : State) (t : Nat) (c : Fin 4) (f : Ctx → Ctx) : (s.modCtxAt t c f).agenda = s.agenda := rfl
@[simp] theorem State.modCtxAt_rrSite (s : State) (t : Nat) (c : Fin 4) (f : Ctx → Ctx) : (s.modCtxAt t c f).rrSite = s.rrSite := rfl
@[simp] theorem State.modCtxAt_round (s : State) (t : Nat) (c : Fin 4) (f : Ctx → Ctx) : (s.modCtxAt t c f).round = s.round := rfl
@[simp] theorem State.modCtxAt_interval (s : State) (t : Nat) (c : Fin 4) (f : Ctx → Ctx) : (s.modCtxAt t c f).interval = s.interval := rfl
@[simp] theorem State.modCtxAt_fresh (s : State) (t : Nat) (c : Fin 4) (f : Ctx → Ctx) : (s.modCtxAt t c f).fresh = s.fresh := rfl

@[simp] theorem State.setCtx_engines (s : State) (x : Ctx) : (s.setCtx x).engines = s.engines := rfl
@[simp] theorem State.setCtx_routers (s : State) (x : Ctx) : (s.setCtx x).routers = s.routers := rfl
@[simp] theorem State.setCtx_ageLimit (s : State) (x : Ctx) : (s.setCtx x).ageLimit = s.ageLimit := rfl
@[simp] theorem State.setCtx_marks (s : State) (x : Ctx) : (s.setCtx x).marks = s.marks := rfl
@[simp] theorem State.setCtx_haltBits (s : State) (x : Ctx) : (s.setCtx x).haltBits = s.haltBits := rfl
@[simp] theorem State.setCtx_holdBuf (s : State) (x : Ctx) : (s.setCtx x).holdBuf = s.holdBuf := rfl
@[simp] theorem State.setCtx_bridges (s : State) (x : Ctx) : (s.setCtx x).bridges = s.bridges := rfl
@[simp] theorem State.setCtx_launches (s : State) (x : Ctx) : (s.setCtx x).launches = s.launches := rfl
@[simp] theorem State.setCtx_kernels (s : State) (x : Ctx) : (s.setCtx x).kernels = s.kernels := rfl
@[simp] theorem State.setCtx_tenants (s : State) (x : Ctx) : (s.setCtx x).tenants = s.tenants := rfl
@[simp] theorem State.setCtx_nextH (s : State) (x : Ctx) : (s.setCtx x).nextH = s.nextH := rfl
@[simp] theorem State.setCtx_nextL (s : State) (x : Ctx) : (s.setCtx x).nextL = s.nextL := rfl
@[simp] theorem State.setCtx_qturn (s : State) (x : Ctx) : (s.setCtx x).qturn = s.qturn := rfl
@[simp] theorem State.setCtx_phq (s : State) (x : Ctx) : (s.setCtx x).phq = s.phq := rfl
@[simp] theorem State.setCtx_stations (s : State) (x : Ctx) : (s.setCtx x).stations = s.stations := rfl
@[simp] theorem State.setCtx_seals (s : State) (x : Ctx) : (s.setCtx x).seals = s.seals := rfl
@[simp] theorem State.setCtx_pushes (s : State) (x : Ctx) : (s.setCtx x).pushes = s.pushes := rfl
@[simp] theorem State.setCtx_root (s : State) (x : Ctx) : (s.setCtx x).root = s.root := rfl
@[simp] theorem State.setCtx_helmRoots (s : State) (x : Ctx) : (s.setCtx x).helmRoots = s.helmRoots := rfl
@[simp] theorem State.setCtx_phys (s : State) (x : Ctx) : (s.setCtx x).phys = s.phys := rfl
@[simp] theorem State.setCtx_badPhys (s : State) (x : Ctx) : (s.setCtx x).badPhys = s.badPhys := rfl
@[simp] theorem State.setCtx_settling (s : State) (x : Ctx) : (s.setCtx x).settling = s.settling := rfl
@[simp] theorem State.setCtx_counters (s : State) (x : Ctx) : (s.setCtx x).counters = s.counters := rfl
@[simp] theorem State.setCtx_cntq (s : State) (x : Ctx) : (s.setCtx x).cntq = s.cntq := rfl
@[simp] theorem State.setCtx_incs (s : State) (x : Ctx) : (s.setCtx x).incs = s.incs := rfl
@[simp] theorem State.setCtx_lent (s : State) (x : Ctx) : (s.setCtx x).lent = s.lent := rfl
@[simp] theorem State.setCtx_armed (s : State) (x : Ctx) : (s.setCtx x).armed = s.armed := rfl
@[simp] theorem State.setCtx_firing (s : State) (x : Ctx) : (s.setCtx x).firing = s.firing := rfl
@[simp] theorem State.setCtx_spans (s : State) (x : Ctx) : (s.setCtx x).spans = s.spans := rfl
@[simp] theorem State.setCtx_routes (s : State) (x : Ctx) : (s.setCtx x).routes = s.routes := rfl
@[simp] theorem State.setCtx_device (s : State) (x : Ctx) : (s.setCtx x).device = s.device := rfl
@[simp] theorem State.setCtx_xfers (s : State) (x : Ctx) : (s.setCtx x).xfers = s.xfers := rfl
@[simp] theorem State.setCtx_incoming (s : State) (x : Ctx) : (s.setCtx x).incoming = s.incoming := rfl
@[simp] theorem State.setCtx_xrecs (s : State) (x : Ctx) : (s.setCtx x).xrecs = s.xrecs := rfl
@[simp] theorem State.setCtx_spanWait (s : State) (x : Ctx) : (s.setCtx x).spanWait = s.spanWait := rfl
@[simp] theorem State.setCtx_nextX (s : State) (x : Ctx) : (s.setCtx x).nextX = s.nextX := rfl
@[simp] theorem State.setCtx_spanStop (s : State) (x : Ctx) : (s.setCtx x).spanStop = s.spanStop := rfl
@[simp] theorem State.setCtx_power (s : State) (x : Ctx) : (s.setCtx x).power = s.power := rfl
@[simp] theorem State.setCtx_boot (s : State) (x : Ctx) : (s.setCtx x).boot = s.boot := rfl
@[simp] theorem State.setCtx_sumac (s : State) (x : Ctx) : (s.setCtx x).sumac = s.sumac := rfl
@[simp] theorem State.setCtx_errors (s : State) (x : Ctx) : (s.setCtx x).errors = s.errors := rfl
@[simp] theorem State.setCtx_commitIv (s : State) (x : Ctx) : (s.setCtx x).commitIv = s.commitIv := rfl
@[simp] theorem State.setCtx_cycle (s : State) (x : Ctx) : (s.setCtx x).cycle = s.cycle := rfl
@[simp] theorem State.setCtx_cur (s : State) (x : Ctx) : (s.setCtx x).cur = s.cur := rfl
@[simp] theorem State.setCtx_agenda (s : State) (x : Ctx) : (s.setCtx x).agenda = s.agenda := rfl
@[simp] theorem State.setCtx_rrSite (s : State) (x : Ctx) : (s.setCtx x).rrSite = s.rrSite := rfl
@[simp] theorem State.setCtx_round (s : State) (x : Ctx) : (s.setCtx x).round = s.round := rfl
@[simp] theorem State.setCtx_interval (s : State) (x : Ctx) : (s.setCtx x).interval = s.interval := rfl
@[simp] theorem State.setCtx_fresh (s : State) (x : Ctx) : (s.setCtx x).fresh = s.fresh := rfl

@[simp] theorem State.modCtx_engines (s : State) (f : Ctx → Ctx) : (s.modCtx f).engines = s.engines := rfl
@[simp] theorem State.modCtx_routers (s : State) (f : Ctx → Ctx) : (s.modCtx f).routers = s.routers := rfl
@[simp] theorem State.modCtx_ageLimit (s : State) (f : Ctx → Ctx) : (s.modCtx f).ageLimit = s.ageLimit := rfl
@[simp] theorem State.modCtx_marks (s : State) (f : Ctx → Ctx) : (s.modCtx f).marks = s.marks := rfl
@[simp] theorem State.modCtx_haltBits (s : State) (f : Ctx → Ctx) : (s.modCtx f).haltBits = s.haltBits := rfl
@[simp] theorem State.modCtx_holdBuf (s : State) (f : Ctx → Ctx) : (s.modCtx f).holdBuf = s.holdBuf := rfl
@[simp] theorem State.modCtx_bridges (s : State) (f : Ctx → Ctx) : (s.modCtx f).bridges = s.bridges := rfl
@[simp] theorem State.modCtx_launches (s : State) (f : Ctx → Ctx) : (s.modCtx f).launches = s.launches := rfl
@[simp] theorem State.modCtx_kernels (s : State) (f : Ctx → Ctx) : (s.modCtx f).kernels = s.kernels := rfl
@[simp] theorem State.modCtx_tenants (s : State) (f : Ctx → Ctx) : (s.modCtx f).tenants = s.tenants := rfl
@[simp] theorem State.modCtx_nextH (s : State) (f : Ctx → Ctx) : (s.modCtx f).nextH = s.nextH := rfl
@[simp] theorem State.modCtx_nextL (s : State) (f : Ctx → Ctx) : (s.modCtx f).nextL = s.nextL := rfl
@[simp] theorem State.modCtx_qturn (s : State) (f : Ctx → Ctx) : (s.modCtx f).qturn = s.qturn := rfl
@[simp] theorem State.modCtx_phq (s : State) (f : Ctx → Ctx) : (s.modCtx f).phq = s.phq := rfl
@[simp] theorem State.modCtx_stations (s : State) (f : Ctx → Ctx) : (s.modCtx f).stations = s.stations := rfl
@[simp] theorem State.modCtx_seals (s : State) (f : Ctx → Ctx) : (s.modCtx f).seals = s.seals := rfl
@[simp] theorem State.modCtx_pushes (s : State) (f : Ctx → Ctx) : (s.modCtx f).pushes = s.pushes := rfl
@[simp] theorem State.modCtx_root (s : State) (f : Ctx → Ctx) : (s.modCtx f).root = s.root := rfl
@[simp] theorem State.modCtx_helmRoots (s : State) (f : Ctx → Ctx) : (s.modCtx f).helmRoots = s.helmRoots := rfl
@[simp] theorem State.modCtx_phys (s : State) (f : Ctx → Ctx) : (s.modCtx f).phys = s.phys := rfl
@[simp] theorem State.modCtx_badPhys (s : State) (f : Ctx → Ctx) : (s.modCtx f).badPhys = s.badPhys := rfl
@[simp] theorem State.modCtx_settling (s : State) (f : Ctx → Ctx) : (s.modCtx f).settling = s.settling := rfl
@[simp] theorem State.modCtx_counters (s : State) (f : Ctx → Ctx) : (s.modCtx f).counters = s.counters := rfl
@[simp] theorem State.modCtx_cntq (s : State) (f : Ctx → Ctx) : (s.modCtx f).cntq = s.cntq := rfl
@[simp] theorem State.modCtx_incs (s : State) (f : Ctx → Ctx) : (s.modCtx f).incs = s.incs := rfl
@[simp] theorem State.modCtx_lent (s : State) (f : Ctx → Ctx) : (s.modCtx f).lent = s.lent := rfl
@[simp] theorem State.modCtx_armed (s : State) (f : Ctx → Ctx) : (s.modCtx f).armed = s.armed := rfl
@[simp] theorem State.modCtx_firing (s : State) (f : Ctx → Ctx) : (s.modCtx f).firing = s.firing := rfl
@[simp] theorem State.modCtx_spans (s : State) (f : Ctx → Ctx) : (s.modCtx f).spans = s.spans := rfl
@[simp] theorem State.modCtx_routes (s : State) (f : Ctx → Ctx) : (s.modCtx f).routes = s.routes := rfl
@[simp] theorem State.modCtx_device (s : State) (f : Ctx → Ctx) : (s.modCtx f).device = s.device := rfl
@[simp] theorem State.modCtx_xfers (s : State) (f : Ctx → Ctx) : (s.modCtx f).xfers = s.xfers := rfl
@[simp] theorem State.modCtx_incoming (s : State) (f : Ctx → Ctx) : (s.modCtx f).incoming = s.incoming := rfl
@[simp] theorem State.modCtx_xrecs (s : State) (f : Ctx → Ctx) : (s.modCtx f).xrecs = s.xrecs := rfl
@[simp] theorem State.modCtx_spanWait (s : State) (f : Ctx → Ctx) : (s.modCtx f).spanWait = s.spanWait := rfl
@[simp] theorem State.modCtx_nextX (s : State) (f : Ctx → Ctx) : (s.modCtx f).nextX = s.nextX := rfl
@[simp] theorem State.modCtx_spanStop (s : State) (f : Ctx → Ctx) : (s.modCtx f).spanStop = s.spanStop := rfl
@[simp] theorem State.modCtx_power (s : State) (f : Ctx → Ctx) : (s.modCtx f).power = s.power := rfl
@[simp] theorem State.modCtx_boot (s : State) (f : Ctx → Ctx) : (s.modCtx f).boot = s.boot := rfl
@[simp] theorem State.modCtx_sumac (s : State) (f : Ctx → Ctx) : (s.modCtx f).sumac = s.sumac := rfl
@[simp] theorem State.modCtx_errors (s : State) (f : Ctx → Ctx) : (s.modCtx f).errors = s.errors := rfl
@[simp] theorem State.modCtx_commitIv (s : State) (f : Ctx → Ctx) : (s.modCtx f).commitIv = s.commitIv := rfl
@[simp] theorem State.modCtx_cycle (s : State) (f : Ctx → Ctx) : (s.modCtx f).cycle = s.cycle := rfl
@[simp] theorem State.modCtx_cur (s : State) (f : Ctx → Ctx) : (s.modCtx f).cur = s.cur := rfl
@[simp] theorem State.modCtx_agenda (s : State) (f : Ctx → Ctx) : (s.modCtx f).agenda = s.agenda := rfl
@[simp] theorem State.modCtx_rrSite (s : State) (f : Ctx → Ctx) : (s.modCtx f).rrSite = s.rrSite := rfl
@[simp] theorem State.modCtx_round (s : State) (f : Ctx → Ctx) : (s.modCtx f).round = s.round := rfl
@[simp] theorem State.modCtx_interval (s : State) (f : Ctx → Ctx) : (s.modCtx f).interval = s.interval := rfl
@[simp] theorem State.modCtx_fresh (s : State) (f : Ctx → Ctx) : (s.modCtx f).fresh = s.fresh := rfl

@[simp] theorem State.done_engines (s : State) (n : Nat) (x : Ctx) : (s.done n x).engines = s.engines := rfl
@[simp] theorem State.done_routers (s : State) (n : Nat) (x : Ctx) : (s.done n x).routers = s.routers := rfl
@[simp] theorem State.done_ageLimit (s : State) (n : Nat) (x : Ctx) : (s.done n x).ageLimit = s.ageLimit := rfl
@[simp] theorem State.done_marks (s : State) (n : Nat) (x : Ctx) : (s.done n x).marks = s.marks := rfl
@[simp] theorem State.done_haltBits (s : State) (n : Nat) (x : Ctx) : (s.done n x).haltBits = s.haltBits := rfl
@[simp] theorem State.done_holdBuf (s : State) (n : Nat) (x : Ctx) : (s.done n x).holdBuf = s.holdBuf := rfl
@[simp] theorem State.done_bridges (s : State) (n : Nat) (x : Ctx) : (s.done n x).bridges = s.bridges := rfl
@[simp] theorem State.done_launches (s : State) (n : Nat) (x : Ctx) : (s.done n x).launches = s.launches := rfl
@[simp] theorem State.done_kernels (s : State) (n : Nat) (x : Ctx) : (s.done n x).kernels = s.kernels := rfl
@[simp] theorem State.done_tenants (s : State) (n : Nat) (x : Ctx) : (s.done n x).tenants = s.tenants := rfl
@[simp] theorem State.done_nextH (s : State) (n : Nat) (x : Ctx) : (s.done n x).nextH = s.nextH := rfl
@[simp] theorem State.done_nextL (s : State) (n : Nat) (x : Ctx) : (s.done n x).nextL = s.nextL := rfl
@[simp] theorem State.done_qturn (s : State) (n : Nat) (x : Ctx) : (s.done n x).qturn = s.qturn := rfl
@[simp] theorem State.done_phq (s : State) (n : Nat) (x : Ctx) : (s.done n x).phq = s.phq := rfl
@[simp] theorem State.done_stations (s : State) (n : Nat) (x : Ctx) : (s.done n x).stations = s.stations := rfl
@[simp] theorem State.done_seals (s : State) (n : Nat) (x : Ctx) : (s.done n x).seals = s.seals := rfl
@[simp] theorem State.done_pushes (s : State) (n : Nat) (x : Ctx) : (s.done n x).pushes = s.pushes := rfl
@[simp] theorem State.done_root (s : State) (n : Nat) (x : Ctx) : (s.done n x).root = s.root := rfl
@[simp] theorem State.done_helmRoots (s : State) (n : Nat) (x : Ctx) : (s.done n x).helmRoots = s.helmRoots := rfl
@[simp] theorem State.done_phys (s : State) (n : Nat) (x : Ctx) : (s.done n x).phys = s.phys := rfl
@[simp] theorem State.done_badPhys (s : State) (n : Nat) (x : Ctx) : (s.done n x).badPhys = s.badPhys := rfl
@[simp] theorem State.done_settling (s : State) (n : Nat) (x : Ctx) : (s.done n x).settling = s.settling := rfl
@[simp] theorem State.done_counters (s : State) (n : Nat) (x : Ctx) : (s.done n x).counters = s.counters := rfl
@[simp] theorem State.done_cntq (s : State) (n : Nat) (x : Ctx) : (s.done n x).cntq = s.cntq := rfl
@[simp] theorem State.done_incs (s : State) (n : Nat) (x : Ctx) : (s.done n x).incs = s.incs := rfl
@[simp] theorem State.done_lent (s : State) (n : Nat) (x : Ctx) : (s.done n x).lent = s.lent := rfl
@[simp] theorem State.done_armed (s : State) (n : Nat) (x : Ctx) : (s.done n x).armed = s.armed := rfl
@[simp] theorem State.done_firing (s : State) (n : Nat) (x : Ctx) : (s.done n x).firing = s.firing := rfl
@[simp] theorem State.done_spans (s : State) (n : Nat) (x : Ctx) : (s.done n x).spans = s.spans := rfl
@[simp] theorem State.done_routes (s : State) (n : Nat) (x : Ctx) : (s.done n x).routes = s.routes := rfl
@[simp] theorem State.done_device (s : State) (n : Nat) (x : Ctx) : (s.done n x).device = s.device := rfl
@[simp] theorem State.done_xfers (s : State) (n : Nat) (x : Ctx) : (s.done n x).xfers = s.xfers := rfl
@[simp] theorem State.done_incoming (s : State) (n : Nat) (x : Ctx) : (s.done n x).incoming = s.incoming := rfl
@[simp] theorem State.done_xrecs (s : State) (n : Nat) (x : Ctx) : (s.done n x).xrecs = s.xrecs := rfl
@[simp] theorem State.done_spanWait (s : State) (n : Nat) (x : Ctx) : (s.done n x).spanWait = s.spanWait := rfl
@[simp] theorem State.done_nextX (s : State) (n : Nat) (x : Ctx) : (s.done n x).nextX = s.nextX := rfl
@[simp] theorem State.done_spanStop (s : State) (n : Nat) (x : Ctx) : (s.done n x).spanStop = s.spanStop := rfl
@[simp] theorem State.done_power (s : State) (n : Nat) (x : Ctx) : (s.done n x).power = s.power := rfl
@[simp] theorem State.done_boot (s : State) (n : Nat) (x : Ctx) : (s.done n x).boot = s.boot := rfl
@[simp] theorem State.done_sumac (s : State) (n : Nat) (x : Ctx) : (s.done n x).sumac = s.sumac := rfl
@[simp] theorem State.done_errors (s : State) (n : Nat) (x : Ctx) : (s.done n x).errors = s.errors := rfl
@[simp] theorem State.done_commitIv (s : State) (n : Nat) (x : Ctx) : (s.done n x).commitIv = s.commitIv := rfl
@[simp] theorem State.done_cycle (s : State) (n : Nat) (x : Ctx) : (s.done n x).cycle = s.cycle := rfl
@[simp] theorem State.done_cur (s : State) (n : Nat) (x : Ctx) : (s.done n x).cur = s.cur := rfl
@[simp] theorem State.done_agenda (s : State) (n : Nat) (x : Ctx) : (s.done n x).agenda = s.agenda := rfl
@[simp] theorem State.done_rrSite (s : State) (n : Nat) (x : Ctx) : (s.done n x).rrSite = s.rrSite := rfl
@[simp] theorem State.done_round (s : State) (n : Nat) (x : Ctx) : (s.done n x).round = s.round := rfl
@[simp] theorem State.done_interval (s : State) (n : Nat) (x : Ctx) : (s.done n x).interval = s.interval := rfl
@[simp] theorem State.done_fresh (s : State) (n : Nat) (x : Ctx) : (s.done n x).fresh = s.fresh := rfl

@[simp] theorem State.stall_engines (s : State) : (s.stall).engines = s.engines := rfl
@[simp] theorem State.stall_routers (s : State) : (s.stall).routers = s.routers := rfl
@[simp] theorem State.stall_ageLimit (s : State) : (s.stall).ageLimit = s.ageLimit := rfl
@[simp] theorem State.stall_marks (s : State) : (s.stall).marks = s.marks := rfl
@[simp] theorem State.stall_haltBits (s : State) : (s.stall).haltBits = s.haltBits := rfl
@[simp] theorem State.stall_holdBuf (s : State) : (s.stall).holdBuf = s.holdBuf := rfl
@[simp] theorem State.stall_bridges (s : State) : (s.stall).bridges = s.bridges := rfl
@[simp] theorem State.stall_launches (s : State) : (s.stall).launches = s.launches := rfl
@[simp] theorem State.stall_kernels (s : State) : (s.stall).kernels = s.kernels := rfl
@[simp] theorem State.stall_tenants (s : State) : (s.stall).tenants = s.tenants := rfl
@[simp] theorem State.stall_nextH (s : State) : (s.stall).nextH = s.nextH := rfl
@[simp] theorem State.stall_nextL (s : State) : (s.stall).nextL = s.nextL := rfl
@[simp] theorem State.stall_qturn (s : State) : (s.stall).qturn = s.qturn := rfl
@[simp] theorem State.stall_phq (s : State) : (s.stall).phq = s.phq := rfl
@[simp] theorem State.stall_stations (s : State) : (s.stall).stations = s.stations := rfl
@[simp] theorem State.stall_seals (s : State) : (s.stall).seals = s.seals := rfl
@[simp] theorem State.stall_pushes (s : State) : (s.stall).pushes = s.pushes := rfl
@[simp] theorem State.stall_root (s : State) : (s.stall).root = s.root := rfl
@[simp] theorem State.stall_helmRoots (s : State) : (s.stall).helmRoots = s.helmRoots := rfl
@[simp] theorem State.stall_phys (s : State) : (s.stall).phys = s.phys := rfl
@[simp] theorem State.stall_badPhys (s : State) : (s.stall).badPhys = s.badPhys := rfl
@[simp] theorem State.stall_settling (s : State) : (s.stall).settling = s.settling := rfl
@[simp] theorem State.stall_counters (s : State) : (s.stall).counters = s.counters := rfl
@[simp] theorem State.stall_cntq (s : State) : (s.stall).cntq = s.cntq := rfl
@[simp] theorem State.stall_incs (s : State) : (s.stall).incs = s.incs := rfl
@[simp] theorem State.stall_lent (s : State) : (s.stall).lent = s.lent := rfl
@[simp] theorem State.stall_armed (s : State) : (s.stall).armed = s.armed := rfl
@[simp] theorem State.stall_firing (s : State) : (s.stall).firing = s.firing := rfl
@[simp] theorem State.stall_spans (s : State) : (s.stall).spans = s.spans := rfl
@[simp] theorem State.stall_routes (s : State) : (s.stall).routes = s.routes := rfl
@[simp] theorem State.stall_device (s : State) : (s.stall).device = s.device := rfl
@[simp] theorem State.stall_xfers (s : State) : (s.stall).xfers = s.xfers := rfl
@[simp] theorem State.stall_incoming (s : State) : (s.stall).incoming = s.incoming := rfl
@[simp] theorem State.stall_xrecs (s : State) : (s.stall).xrecs = s.xrecs := rfl
@[simp] theorem State.stall_spanWait (s : State) : (s.stall).spanWait = s.spanWait := rfl
@[simp] theorem State.stall_nextX (s : State) : (s.stall).nextX = s.nextX := rfl
@[simp] theorem State.stall_spanStop (s : State) : (s.stall).spanStop = s.spanStop := rfl
@[simp] theorem State.stall_power (s : State) : (s.stall).power = s.power := rfl
@[simp] theorem State.stall_boot (s : State) : (s.stall).boot = s.boot := rfl
@[simp] theorem State.stall_sumac (s : State) : (s.stall).sumac = s.sumac := rfl
@[simp] theorem State.stall_errors (s : State) : (s.stall).errors = s.errors := rfl
@[simp] theorem State.stall_commitIv (s : State) : (s.stall).commitIv = s.commitIv := rfl
@[simp] theorem State.stall_cycle (s : State) : (s.stall).cycle = s.cycle := rfl
@[simp] theorem State.stall_cur (s : State) : (s.stall).cur = s.cur := rfl
@[simp] theorem State.stall_agenda (s : State) : (s.stall).agenda = s.agenda := rfl
@[simp] theorem State.stall_rrSite (s : State) : (s.stall).rrSite = s.rrSite := rfl
@[simp] theorem State.stall_round (s : State) : (s.stall).round = s.round := rfl
@[simp] theorem State.stall_interval (s : State) : (s.stall).interval = s.interval := rfl
@[simp] theorem State.stall_fresh (s : State) : (s.stall).fresh = s.fresh := rfl

@[simp] theorem State.setEngine_sites (s : State) (e : Nat) (x : Engine) : (s.setEngine e x).sites = s.sites := rfl
@[simp] theorem State.setEngine_routers (s : State) (e : Nat) (x : Engine) : (s.setEngine e x).routers = s.routers := rfl
@[simp] theorem State.setEngine_ageLimit (s : State) (e : Nat) (x : Engine) : (s.setEngine e x).ageLimit = s.ageLimit := rfl
@[simp] theorem State.setEngine_marks (s : State) (e : Nat) (x : Engine) : (s.setEngine e x).marks = s.marks := rfl
@[simp] theorem State.setEngine_haltBits (s : State) (e : Nat) (x : Engine) : (s.setEngine e x).haltBits = s.haltBits := rfl
@[simp] theorem State.setEngine_holdBuf (s : State) (e : Nat) (x : Engine) : (s.setEngine e x).holdBuf = s.holdBuf := rfl
@[simp] theorem State.setEngine_bridges (s : State) (e : Nat) (x : Engine) : (s.setEngine e x).bridges = s.bridges := rfl
@[simp] theorem State.setEngine_launches (s : State) (e : Nat) (x : Engine) : (s.setEngine e x).launches = s.launches := rfl
@[simp] theorem State.setEngine_kernels (s : State) (e : Nat) (x : Engine) : (s.setEngine e x).kernels = s.kernels := rfl
@[simp] theorem State.setEngine_tenants (s : State) (e : Nat) (x : Engine) : (s.setEngine e x).tenants = s.tenants := rfl
@[simp] theorem State.setEngine_nextH (s : State) (e : Nat) (x : Engine) : (s.setEngine e x).nextH = s.nextH := rfl
@[simp] theorem State.setEngine_nextL (s : State) (e : Nat) (x : Engine) : (s.setEngine e x).nextL = s.nextL := rfl
@[simp] theorem State.setEngine_qturn (s : State) (e : Nat) (x : Engine) : (s.setEngine e x).qturn = s.qturn := rfl
@[simp] theorem State.setEngine_phq (s : State) (e : Nat) (x : Engine) : (s.setEngine e x).phq = s.phq := rfl
@[simp] theorem State.setEngine_stations (s : State) (e : Nat) (x : Engine) : (s.setEngine e x).stations = s.stations := rfl
@[simp] theorem State.setEngine_seals (s : State) (e : Nat) (x : Engine) : (s.setEngine e x).seals = s.seals := rfl
@[simp] theorem State.setEngine_pushes (s : State) (e : Nat) (x : Engine) : (s.setEngine e x).pushes = s.pushes := rfl
@[simp] theorem State.setEngine_root (s : State) (e : Nat) (x : Engine) : (s.setEngine e x).root = s.root := rfl
@[simp] theorem State.setEngine_helmRoots (s : State) (e : Nat) (x : Engine) : (s.setEngine e x).helmRoots = s.helmRoots := rfl
@[simp] theorem State.setEngine_phys (s : State) (e : Nat) (x : Engine) : (s.setEngine e x).phys = s.phys := rfl
@[simp] theorem State.setEngine_badPhys (s : State) (e : Nat) (x : Engine) : (s.setEngine e x).badPhys = s.badPhys := rfl
@[simp] theorem State.setEngine_settling (s : State) (e : Nat) (x : Engine) : (s.setEngine e x).settling = s.settling := rfl
@[simp] theorem State.setEngine_counters (s : State) (e : Nat) (x : Engine) : (s.setEngine e x).counters = s.counters := rfl
@[simp] theorem State.setEngine_cntq (s : State) (e : Nat) (x : Engine) : (s.setEngine e x).cntq = s.cntq := rfl
@[simp] theorem State.setEngine_incs (s : State) (e : Nat) (x : Engine) : (s.setEngine e x).incs = s.incs := rfl
@[simp] theorem State.setEngine_lent (s : State) (e : Nat) (x : Engine) : (s.setEngine e x).lent = s.lent := rfl
@[simp] theorem State.setEngine_armed (s : State) (e : Nat) (x : Engine) : (s.setEngine e x).armed = s.armed := rfl
@[simp] theorem State.setEngine_firing (s : State) (e : Nat) (x : Engine) : (s.setEngine e x).firing = s.firing := rfl
@[simp] theorem State.setEngine_spans (s : State) (e : Nat) (x : Engine) : (s.setEngine e x).spans = s.spans := rfl
@[simp] theorem State.setEngine_routes (s : State) (e : Nat) (x : Engine) : (s.setEngine e x).routes = s.routes := rfl
@[simp] theorem State.setEngine_device (s : State) (e : Nat) (x : Engine) : (s.setEngine e x).device = s.device := rfl
@[simp] theorem State.setEngine_xfers (s : State) (e : Nat) (x : Engine) : (s.setEngine e x).xfers = s.xfers := rfl
@[simp] theorem State.setEngine_incoming (s : State) (e : Nat) (x : Engine) : (s.setEngine e x).incoming = s.incoming := rfl
@[simp] theorem State.setEngine_xrecs (s : State) (e : Nat) (x : Engine) : (s.setEngine e x).xrecs = s.xrecs := rfl
@[simp] theorem State.setEngine_spanWait (s : State) (e : Nat) (x : Engine) : (s.setEngine e x).spanWait = s.spanWait := rfl
@[simp] theorem State.setEngine_nextX (s : State) (e : Nat) (x : Engine) : (s.setEngine e x).nextX = s.nextX := rfl
@[simp] theorem State.setEngine_spanStop (s : State) (e : Nat) (x : Engine) : (s.setEngine e x).spanStop = s.spanStop := rfl
@[simp] theorem State.setEngine_power (s : State) (e : Nat) (x : Engine) : (s.setEngine e x).power = s.power := rfl
@[simp] theorem State.setEngine_boot (s : State) (e : Nat) (x : Engine) : (s.setEngine e x).boot = s.boot := rfl
@[simp] theorem State.setEngine_sumac (s : State) (e : Nat) (x : Engine) : (s.setEngine e x).sumac = s.sumac := rfl
@[simp] theorem State.setEngine_errors (s : State) (e : Nat) (x : Engine) : (s.setEngine e x).errors = s.errors := rfl
@[simp] theorem State.setEngine_commitIv (s : State) (e : Nat) (x : Engine) : (s.setEngine e x).commitIv = s.commitIv := rfl
@[simp] theorem State.setEngine_cycle (s : State) (e : Nat) (x : Engine) : (s.setEngine e x).cycle = s.cycle := rfl
@[simp] theorem State.setEngine_cur (s : State) (e : Nat) (x : Engine) : (s.setEngine e x).cur = s.cur := rfl
@[simp] theorem State.setEngine_agenda (s : State) (e : Nat) (x : Engine) : (s.setEngine e x).agenda = s.agenda := rfl
@[simp] theorem State.setEngine_rrSite (s : State) (e : Nat) (x : Engine) : (s.setEngine e x).rrSite = s.rrSite := rfl
@[simp] theorem State.setEngine_round (s : State) (e : Nat) (x : Engine) : (s.setEngine e x).round = s.round := rfl
@[simp] theorem State.setEngine_interval (s : State) (e : Nat) (x : Engine) : (s.setEngine e x).interval = s.interval := rfl
@[simp] theorem State.setEngine_fresh (s : State) (e : Nat) (x : Engine) : (s.setEngine e x).fresh = s.fresh := rfl

/-! Updates of a context. -/

theorem Ctx.fallThrough_s (c : Ctx) (t : Word) : (c.fallThrough t).s = c.s := by
  unfold Ctx.fallThrough; dsimp only; split <;> rfl
theorem Ctx.fallThrough_v (c : Ctx) (t : Word) : (c.fallThrough t).v = c.v := by
  unfold Ctx.fallThrough; dsimp only; split <;> rfl
theorem Ctx.fallThrough_p (c : Ctx) (t : Word) : (c.fallThrough t).p = c.p := by
  unfold Ctx.fallThrough; dsimp only; split <;> rfl
theorem Ctx.fallThrough_k (c : Ctx) (t : Word) : (c.fallThrough t).k = c.k := by
  unfold Ctx.fallThrough; dsimp only; split <;> rfl
theorem Ctx.fallThrough_b (c : Ctx) (t : Word) : (c.fallThrough t).b = c.b := by
  unfold Ctx.fallThrough; dsimp only; split <;> rfl
theorem Ctx.fallThrough_mrow (c : Ctx) (t : Word) : (c.fallThrough t).mrow = c.mrow := by
  unfold Ctx.fallThrough; dsimp only; split <;> rfl
theorem Ctx.fallThrough_mcol (c : Ctx) (t : Word) : (c.fallThrough t).mcol = c.mcol := by
  unfold Ctx.fallThrough; dsimp only; split <;> rfl
theorem Ctx.fallThrough_flags (c : Ctx) (t : Word) : (c.fallThrough t).flags = c.flags := by
  unfold Ctx.fallThrough; dsimp only; split <;> rfl
theorem Ctx.fallThrough_st (c : Ctx) (t : Word) : (c.fallThrough t).st = c.st := by
  unfold Ctx.fallThrough; dsimp only; split <;> rfl
theorem Ctx.fallThrough_prior (c : Ctx) (t : Word) : (c.fallThrough t).prior = c.prior := by
  unfold Ctx.fallThrough; dsimp only; split <;> rfl
theorem Ctx.fallThrough_wait (c : Ctx) (t : Word) : (c.fallThrough t).wait = c.wait := by
  unfold Ctx.fallThrough; dsimp only; split <;> rfl
theorem Ctx.fallThrough_pfx (c : Ctx) (t : Word) : (c.fallThrough t).pfx = c.pfx := by
  unfold Ctx.fallThrough; dsimp only; split <;> rfl
theorem Ctx.fallThrough_latch (c : Ctx) (t : Word) : (c.fallThrough t).latch = c.latch := by
  unfold Ctx.fallThrough; dsimp only; split <;> rfl
theorem Ctx.fallThrough_yielding (c : Ctx) (t : Word) : (c.fallThrough t).yielding = c.yielding := by
  unfold Ctx.fallThrough; dsimp only; split <;> rfl
theorem Ctx.fallThrough_chan (c : Ctx) (t : Word) : (c.fallThrough t).chan = c.chan := by
  unfold Ctx.fallThrough; dsimp only; split <;> rfl
theorem Ctx.fallThrough_hdr (c : Ctx) (t : Word) : (c.fallThrough t).hdr = c.hdr := by
  unfold Ctx.fallThrough; dsimp only; split <;> rfl
theorem Ctx.fallThrough_wdog (c : Ctx) (t : Word) : (c.fallThrough t).wdog = c.wdog := by
  unfold Ctx.fallThrough; dsimp only; split <;> rfl
theorem Ctx.fallThrough_hold (c : Ctx) (t : Word) : (c.fallThrough t).hold = c.hold := by
  unfold Ctx.fallThrough; dsimp only; split <;> rfl
theorem Ctx.fallThrough_outbox (c : Ctx) (t : Word) : (c.fallThrough t).outbox = c.outbox := by
  unfold Ctx.fallThrough; dsimp only; split <;> rfl
theorem Ctx.fallThrough_heldOvf (c : Ctx) (t : Word) : (c.fallThrough t).heldOvf = c.heldOvf := by
  unfold Ctx.fallThrough; dsimp only; split <;> rfl
theorem Ctx.fallThrough_lastid (c : Ctx) (t : Word) : (c.fallThrough t).lastid = c.lastid := by
  unfold Ctx.fallThrough; dsimp only; split <;> rfl
theorem Ctx.fallThrough_cpycount (c : Ctx) (t : Word) : (c.fallThrough t).cpycount = c.cpycount := by
  unfold Ctx.fallThrough; dsimp only; split <;> rfl
theorem Ctx.fallThrough_pushed (c : Ctx) (t : Word) : (c.fallThrough t).pushed = c.pushed := by
  unfold Ctx.fallThrough; dsimp only; split <;> rfl
theorem Ctx.fallThrough_fr (c : Ctx) (t : Word) : (c.fallThrough t).fr = c.fr := by
  unfold Ctx.fallThrough; dsimp only; split <;> rfl
theorem Ctx.fallThrough_floor (c : Ctx) (t : Word) : (c.fallThrough t).floor = c.floor := by
  unfold Ctx.fallThrough; dsimp only; split <;> rfl
theorem Ctx.fallThrough_status (c : Ctx) (t : Word) : (c.fallThrough t).status = c.status := by
  unfold Ctx.fallThrough; dsimp only; split <;> rfl
theorem Ctx.fallThrough_owners (c : Ctx) (t : Word) : (c.fallThrough t).owners = c.owners := by
  unfold Ctx.fallThrough; dsimp only; split <;> rfl
theorem Ctx.fallThrough_ownAll (c : Ctx) (t : Word) : (c.fallThrough t).ownAll = c.ownAll := by
  unfold Ctx.fallThrough; dsimp only; split <;> rfl
theorem Ctx.fallThrough_slices (c : Ctx) (t : Word) : (c.fallThrough t).slices = c.slices := by
  unfold Ctx.fallThrough; dsimp only; split <;> rfl
theorem Ctx.fallThrough_unacked (c : Ctx) (t : Word) : (c.fallThrough t).unacked = c.unacked := by
  unfold Ctx.fallThrough; dsimp only; split <;> rfl
theorem Ctx.fallThrough_posted (c : Ctx) (t : Word) : (c.fallThrough t).posted = c.posted := by
  unfold Ctx.fallThrough; dsimp only; split <;> rfl
theorem Ctx.fallThrough_posts (c : Ctx) (t : Word) : (c.fallThrough t).posts = c.posts := by
  unfold Ctx.fallThrough; dsimp only; split <;> rfl
theorem Ctx.fallThrough_lost (c : Ctx) (t : Word) : (c.fallThrough t).lost = c.lost := by
  unfold Ctx.fallThrough; dsimp only; split <;> rfl
theorem Ctx.fallThrough_reqid (c : Ctx) (t : Word) : (c.fallThrough t).reqid = c.reqid := by
  unfold Ctx.fallThrough; dsimp only; split <;> rfl
theorem Ctx.fallThrough_reqBase (c : Ctx) (t : Word) : (c.fallThrough t).reqBase = c.reqBase := by
  unfold Ctx.fallThrough; dsimp only; split <;> rfl
theorem Ctx.fallThrough_persisted (c : Ctx) (t : Word) : (c.fallThrough t).persisted = c.persisted := by
  unfold Ctx.fallThrough; dsimp only; split <;> rfl
theorem Ctx.fallThrough_fenceId (c : Ctx) (t : Word) : (c.fallThrough t).fenceId = c.fenceId := by
  unfold Ctx.fallThrough; dsimp only; split <;> rfl
theorem Ctx.fallThrough_ending (c : Ctx) (t : Word) : (c.fallThrough t).ending = c.ending := by
  unfold Ctx.fallThrough; dsimp only; split <;> rfl
theorem Ctx.fallThrough_counted (c : Ctx) (t : Word) : (c.fallThrough t).counted = c.counted := by
  unfold Ctx.fallThrough; dsimp only; split <;> rfl
theorem Ctx.fallThrough_drop (c : Ctx) (t : Word) : (c.fallThrough t).drop = c.drop := by
  unfold Ctx.fallThrough; dsimp only; split <;> rfl
theorem Ctx.fallThrough_record (c : Ctx) (t : Word) : (c.fallThrough t).record = c.record := by
  unfold Ctx.fallThrough; dsimp only; split <;> rfl
theorem Ctx.fallThrough_trap (c : Ctx) (t : Word) : (c.fallThrough t).trap = c.trap := by
  unfold Ctx.fallThrough; dsimp only; split <;> rfl
theorem Ctx.fallThrough_atBrk (c : Ctx) (t : Word) : (c.fallThrough t).atBrk = c.atBrk := by
  unfold Ctx.fallThrough; dsimp only; split <;> rfl
theorem Ctx.fallThrough_deficit (c : Ctx) (t : Word) : (c.fallThrough t).deficit = c.deficit := by
  unfold Ctx.fallThrough; dsimp only; split <;> rfl
theorem Ctx.fallThrough_quota (c : Ctx) (t : Word) : (c.fallThrough t).quota = c.quota := by
  unfold Ctx.fallThrough; dsimp only; split <;> rfl
theorem Ctx.fallThrough_badS (c : Ctx) (t : Word) : (c.fallThrough t).badS = c.badS := by
  unfold Ctx.fallThrough; dsimp only; split <;> rfl
theorem Ctx.fallThrough_badV (c : Ctx) (t : Word) : (c.fallThrough t).badV = c.badV := by
  unfold Ctx.fallThrough; dsimp only; split <;> rfl

@[simp] theorem Ctx.setS_v (c : Ctx) (i : Fin 32) (x : Word) : (c.setS i x).v = c.v := by unfold Ctx.setS; split <;> rfl
@[simp] theorem Ctx.setS_p (c : Ctx) (i : Fin 32) (x : Word) : (c.setS i x).p = c.p := by unfold Ctx.setS; split <;> rfl
@[simp] theorem Ctx.setS_lp (c : Ctx) (i : Fin 32) (x : Word) : (c.setS i x).lp = c.lp := by unfold Ctx.setS; split <;> rfl
@[simp] theorem Ctx.setS_k (c : Ctx) (i : Fin 32) (x : Word) : (c.setS i x).k = c.k := by unfold Ctx.setS; split <;> rfl
@[simp] theorem Ctx.setS_b (c : Ctx) (i : Fin 32) (x : Word) : (c.setS i x).b = c.b := by unfold Ctx.setS; split <;> rfl
@[simp] theorem Ctx.setS_mrow (c : Ctx) (i : Fin 32) (x : Word) : (c.setS i x).mrow = c.mrow := by unfold Ctx.setS; split <;> rfl
@[simp] theorem Ctx.setS_mcol (c : Ctx) (i : Fin 32) (x : Word) : (c.setS i x).mcol = c.mcol := by unfold Ctx.setS; split <;> rfl
@[simp] theorem Ctx.setS_flags (c : Ctx) (i : Fin 32) (x : Word) : (c.setS i x).flags = c.flags := by unfold Ctx.setS; split <;> rfl
@[simp] theorem Ctx.setS_pc (c : Ctx) (i : Fin 32) (x : Word) : (c.setS i x).pc = c.pc := by unfold Ctx.setS; split <;> rfl
@[simp] theorem Ctx.setS_st (c : Ctx) (i : Fin 32) (x : Word) : (c.setS i x).st = c.st := by unfold Ctx.setS; split <;> rfl
@[simp] theorem Ctx.setS_prior (c : Ctx) (i : Fin 32) (x : Word) : (c.setS i x).prior = c.prior := by unfold Ctx.setS; split <;> rfl
@[simp] theorem Ctx.setS_wait (c : Ctx) (i : Fin 32) (x : Word) : (c.setS i x).wait = c.wait := by unfold Ctx.setS; split <;> rfl
@[simp] theorem Ctx.setS_pfx (c : Ctx) (i : Fin 32) (x : Word) : (c.setS i x).pfx = c.pfx := by unfold Ctx.setS; split <;> rfl
@[simp] theorem Ctx.setS_latch (c : Ctx) (i : Fin 32) (x : Word) : (c.setS i x).latch = c.latch := by unfold Ctx.setS; split <;> rfl
@[simp] theorem Ctx.setS_yielding (c : Ctx) (i : Fin 32) (x : Word) : (c.setS i x).yielding = c.yielding := by unfold Ctx.setS; split <;> rfl
@[simp] theorem Ctx.setS_chan (c : Ctx) (i : Fin 32) (x : Word) : (c.setS i x).chan = c.chan := by unfold Ctx.setS; split <;> rfl
@[simp] theorem Ctx.setS_hdr (c : Ctx) (i : Fin 32) (x : Word) : (c.setS i x).hdr = c.hdr := by unfold Ctx.setS; split <;> rfl
@[simp] theorem Ctx.setS_wdog (c : Ctx) (i : Fin 32) (x : Word) : (c.setS i x).wdog = c.wdog := by unfold Ctx.setS; split <;> rfl
@[simp] theorem Ctx.setS_hold (c : Ctx) (i : Fin 32) (x : Word) : (c.setS i x).hold = c.hold := by unfold Ctx.setS; split <;> rfl
@[simp] theorem Ctx.setS_outbox (c : Ctx) (i : Fin 32) (x : Word) : (c.setS i x).outbox = c.outbox := by unfold Ctx.setS; split <;> rfl
@[simp] theorem Ctx.setS_heldOvf (c : Ctx) (i : Fin 32) (x : Word) : (c.setS i x).heldOvf = c.heldOvf := by unfold Ctx.setS; split <;> rfl
@[simp] theorem Ctx.setS_lastid (c : Ctx) (i : Fin 32) (x : Word) : (c.setS i x).lastid = c.lastid := by unfold Ctx.setS; split <;> rfl
@[simp] theorem Ctx.setS_cpycount (c : Ctx) (i : Fin 32) (x : Word) : (c.setS i x).cpycount = c.cpycount := by unfold Ctx.setS; split <;> rfl
@[simp] theorem Ctx.setS_pushed (c : Ctx) (i : Fin 32) (x : Word) : (c.setS i x).pushed = c.pushed := by unfold Ctx.setS; split <;> rfl
@[simp] theorem Ctx.setS_fr (c : Ctx) (i : Fin 32) (x : Word) : (c.setS i x).fr = c.fr := by unfold Ctx.setS; split <;> rfl
@[simp] theorem Ctx.setS_floor (c : Ctx) (i : Fin 32) (x : Word) : (c.setS i x).floor = c.floor := by unfold Ctx.setS; split <;> rfl
@[simp] theorem Ctx.setS_status (c : Ctx) (i : Fin 32) (x : Word) : (c.setS i x).status = c.status := by unfold Ctx.setS; split <;> rfl
@[simp] theorem Ctx.setS_owners (c : Ctx) (i : Fin 32) (x : Word) : (c.setS i x).owners = c.owners := by unfold Ctx.setS; split <;> rfl
@[simp] theorem Ctx.setS_ownAll (c : Ctx) (i : Fin 32) (x : Word) : (c.setS i x).ownAll = c.ownAll := by unfold Ctx.setS; split <;> rfl
@[simp] theorem Ctx.setS_slices (c : Ctx) (i : Fin 32) (x : Word) : (c.setS i x).slices = c.slices := by unfold Ctx.setS; split <;> rfl
@[simp] theorem Ctx.setS_unacked (c : Ctx) (i : Fin 32) (x : Word) : (c.setS i x).unacked = c.unacked := by unfold Ctx.setS; split <;> rfl
@[simp] theorem Ctx.setS_posted (c : Ctx) (i : Fin 32) (x : Word) : (c.setS i x).posted = c.posted := by unfold Ctx.setS; split <;> rfl
@[simp] theorem Ctx.setS_posts (c : Ctx) (i : Fin 32) (x : Word) : (c.setS i x).posts = c.posts := by unfold Ctx.setS; split <;> rfl
@[simp] theorem Ctx.setS_lost (c : Ctx) (i : Fin 32) (x : Word) : (c.setS i x).lost = c.lost := by unfold Ctx.setS; split <;> rfl
@[simp] theorem Ctx.setS_reqid (c : Ctx) (i : Fin 32) (x : Word) : (c.setS i x).reqid = c.reqid := by unfold Ctx.setS; split <;> rfl
@[simp] theorem Ctx.setS_reqBase (c : Ctx) (i : Fin 32) (x : Word) : (c.setS i x).reqBase = c.reqBase := by unfold Ctx.setS; split <;> rfl
@[simp] theorem Ctx.setS_persisted (c : Ctx) (i : Fin 32) (x : Word) : (c.setS i x).persisted = c.persisted := by unfold Ctx.setS; split <;> rfl
@[simp] theorem Ctx.setS_fenceId (c : Ctx) (i : Fin 32) (x : Word) : (c.setS i x).fenceId = c.fenceId := by unfold Ctx.setS; split <;> rfl
@[simp] theorem Ctx.setS_ending (c : Ctx) (i : Fin 32) (x : Word) : (c.setS i x).ending = c.ending := by unfold Ctx.setS; split <;> rfl
@[simp] theorem Ctx.setS_counted (c : Ctx) (i : Fin 32) (x : Word) : (c.setS i x).counted = c.counted := by unfold Ctx.setS; split <;> rfl
@[simp] theorem Ctx.setS_drop (c : Ctx) (i : Fin 32) (x : Word) : (c.setS i x).drop = c.drop := by unfold Ctx.setS; split <;> rfl
@[simp] theorem Ctx.setS_record (c : Ctx) (i : Fin 32) (x : Word) : (c.setS i x).record = c.record := by unfold Ctx.setS; split <;> rfl
@[simp] theorem Ctx.setS_trap (c : Ctx) (i : Fin 32) (x : Word) : (c.setS i x).trap = c.trap := by unfold Ctx.setS; split <;> rfl
@[simp] theorem Ctx.setS_atBrk (c : Ctx) (i : Fin 32) (x : Word) : (c.setS i x).atBrk = c.atBrk := by unfold Ctx.setS; split <;> rfl
@[simp] theorem Ctx.setS_deficit (c : Ctx) (i : Fin 32) (x : Word) : (c.setS i x).deficit = c.deficit := by unfold Ctx.setS; split <;> rfl
@[simp] theorem Ctx.setS_quota (c : Ctx) (i : Fin 32) (x : Word) : (c.setS i x).quota = c.quota := by unfold Ctx.setS; split <;> rfl
@[simp] theorem Ctx.setS_badV (c : Ctx) (i : Fin 32) (x : Word) : (c.setS i x).badV = c.badV := by unfold Ctx.setS; split <;> rfl

@[simp] theorem Ctx.setV_s (c : Ctx) (i : Fin 32) (x : VWord) : (c.setV i x).s = c.s := rfl
@[simp] theorem Ctx.setV_p (c : Ctx) (i : Fin 32) (x : VWord) : (c.setV i x).p = c.p := rfl
@[simp] theorem Ctx.setV_lp (c : Ctx) (i : Fin 32) (x : VWord) : (c.setV i x).lp = c.lp := rfl
@[simp] theorem Ctx.setV_k (c : Ctx) (i : Fin 32) (x : VWord) : (c.setV i x).k = c.k := rfl
@[simp] theorem Ctx.setV_b (c : Ctx) (i : Fin 32) (x : VWord) : (c.setV i x).b = c.b := rfl
@[simp] theorem Ctx.setV_mrow (c : Ctx) (i : Fin 32) (x : VWord) : (c.setV i x).mrow = c.mrow := rfl
@[simp] theorem Ctx.setV_mcol (c : Ctx) (i : Fin 32) (x : VWord) : (c.setV i x).mcol = c.mcol := rfl
@[simp] theorem Ctx.setV_flags (c : Ctx) (i : Fin 32) (x : VWord) : (c.setV i x).flags = c.flags := rfl
@[simp] theorem Ctx.setV_pc (c : Ctx) (i : Fin 32) (x : VWord) : (c.setV i x).pc = c.pc := rfl
@[simp] theorem Ctx.setV_st (c : Ctx) (i : Fin 32) (x : VWord) : (c.setV i x).st = c.st := rfl
@[simp] theorem Ctx.setV_prior (c : Ctx) (i : Fin 32) (x : VWord) : (c.setV i x).prior = c.prior := rfl
@[simp] theorem Ctx.setV_wait (c : Ctx) (i : Fin 32) (x : VWord) : (c.setV i x).wait = c.wait := rfl
@[simp] theorem Ctx.setV_pfx (c : Ctx) (i : Fin 32) (x : VWord) : (c.setV i x).pfx = c.pfx := rfl
@[simp] theorem Ctx.setV_latch (c : Ctx) (i : Fin 32) (x : VWord) : (c.setV i x).latch = c.latch := rfl
@[simp] theorem Ctx.setV_yielding (c : Ctx) (i : Fin 32) (x : VWord) : (c.setV i x).yielding = c.yielding := rfl
@[simp] theorem Ctx.setV_chan (c : Ctx) (i : Fin 32) (x : VWord) : (c.setV i x).chan = c.chan := rfl
@[simp] theorem Ctx.setV_hdr (c : Ctx) (i : Fin 32) (x : VWord) : (c.setV i x).hdr = c.hdr := rfl
@[simp] theorem Ctx.setV_wdog (c : Ctx) (i : Fin 32) (x : VWord) : (c.setV i x).wdog = c.wdog := rfl
@[simp] theorem Ctx.setV_hold (c : Ctx) (i : Fin 32) (x : VWord) : (c.setV i x).hold = c.hold := rfl
@[simp] theorem Ctx.setV_outbox (c : Ctx) (i : Fin 32) (x : VWord) : (c.setV i x).outbox = c.outbox := rfl
@[simp] theorem Ctx.setV_heldOvf (c : Ctx) (i : Fin 32) (x : VWord) : (c.setV i x).heldOvf = c.heldOvf := rfl
@[simp] theorem Ctx.setV_lastid (c : Ctx) (i : Fin 32) (x : VWord) : (c.setV i x).lastid = c.lastid := rfl
@[simp] theorem Ctx.setV_cpycount (c : Ctx) (i : Fin 32) (x : VWord) : (c.setV i x).cpycount = c.cpycount := rfl
@[simp] theorem Ctx.setV_pushed (c : Ctx) (i : Fin 32) (x : VWord) : (c.setV i x).pushed = c.pushed := rfl
@[simp] theorem Ctx.setV_fr (c : Ctx) (i : Fin 32) (x : VWord) : (c.setV i x).fr = c.fr := rfl
@[simp] theorem Ctx.setV_floor (c : Ctx) (i : Fin 32) (x : VWord) : (c.setV i x).floor = c.floor := rfl
@[simp] theorem Ctx.setV_status (c : Ctx) (i : Fin 32) (x : VWord) : (c.setV i x).status = c.status := rfl
@[simp] theorem Ctx.setV_owners (c : Ctx) (i : Fin 32) (x : VWord) : (c.setV i x).owners = c.owners := rfl
@[simp] theorem Ctx.setV_ownAll (c : Ctx) (i : Fin 32) (x : VWord) : (c.setV i x).ownAll = c.ownAll := rfl
@[simp] theorem Ctx.setV_slices (c : Ctx) (i : Fin 32) (x : VWord) : (c.setV i x).slices = c.slices := rfl
@[simp] theorem Ctx.setV_unacked (c : Ctx) (i : Fin 32) (x : VWord) : (c.setV i x).unacked = c.unacked := rfl
@[simp] theorem Ctx.setV_posted (c : Ctx) (i : Fin 32) (x : VWord) : (c.setV i x).posted = c.posted := rfl
@[simp] theorem Ctx.setV_posts (c : Ctx) (i : Fin 32) (x : VWord) : (c.setV i x).posts = c.posts := rfl
@[simp] theorem Ctx.setV_lost (c : Ctx) (i : Fin 32) (x : VWord) : (c.setV i x).lost = c.lost := rfl
@[simp] theorem Ctx.setV_reqid (c : Ctx) (i : Fin 32) (x : VWord) : (c.setV i x).reqid = c.reqid := rfl
@[simp] theorem Ctx.setV_reqBase (c : Ctx) (i : Fin 32) (x : VWord) : (c.setV i x).reqBase = c.reqBase := rfl
@[simp] theorem Ctx.setV_persisted (c : Ctx) (i : Fin 32) (x : VWord) : (c.setV i x).persisted = c.persisted := rfl
@[simp] theorem Ctx.setV_fenceId (c : Ctx) (i : Fin 32) (x : VWord) : (c.setV i x).fenceId = c.fenceId := rfl
@[simp] theorem Ctx.setV_ending (c : Ctx) (i : Fin 32) (x : VWord) : (c.setV i x).ending = c.ending := rfl
@[simp] theorem Ctx.setV_counted (c : Ctx) (i : Fin 32) (x : VWord) : (c.setV i x).counted = c.counted := rfl
@[simp] theorem Ctx.setV_drop (c : Ctx) (i : Fin 32) (x : VWord) : (c.setV i x).drop = c.drop := rfl
@[simp] theorem Ctx.setV_record (c : Ctx) (i : Fin 32) (x : VWord) : (c.setV i x).record = c.record := rfl
@[simp] theorem Ctx.setV_trap (c : Ctx) (i : Fin 32) (x : VWord) : (c.setV i x).trap = c.trap := rfl
@[simp] theorem Ctx.setV_atBrk (c : Ctx) (i : Fin 32) (x : VWord) : (c.setV i x).atBrk = c.atBrk := rfl
@[simp] theorem Ctx.setV_deficit (c : Ctx) (i : Fin 32) (x : VWord) : (c.setV i x).deficit = c.deficit := rfl
@[simp] theorem Ctx.setV_quota (c : Ctx) (i : Fin 32) (x : VWord) : (c.setV i x).quota = c.quota := rfl
@[simp] theorem Ctx.setV_badS (c : Ctx) (i : Fin 32) (x : VWord) : (c.setV i x).badS = c.badS := rfl

@[simp] theorem Ctx.setVm_s (c : Ctx) (i : Fin 32) (x : VWord) : (c.setVm i x).s = c.s := rfl
@[simp] theorem Ctx.setVm_p (c : Ctx) (i : Fin 32) (x : VWord) : (c.setVm i x).p = c.p := rfl
@[simp] theorem Ctx.setVm_lp (c : Ctx) (i : Fin 32) (x : VWord) : (c.setVm i x).lp = c.lp := rfl
@[simp] theorem Ctx.setVm_k (c : Ctx) (i : Fin 32) (x : VWord) : (c.setVm i x).k = c.k := rfl
@[simp] theorem Ctx.setVm_b (c : Ctx) (i : Fin 32) (x : VWord) : (c.setVm i x).b = c.b := rfl
@[simp] theorem Ctx.setVm_mrow (c : Ctx) (i : Fin 32) (x : VWord) : (c.setVm i x).mrow = c.mrow := rfl
@[simp] theorem Ctx.setVm_mcol (c : Ctx) (i : Fin 32) (x : VWord) : (c.setVm i x).mcol = c.mcol := rfl
@[simp] theorem Ctx.setVm_flags (c : Ctx) (i : Fin 32) (x : VWord) : (c.setVm i x).flags = c.flags := rfl
@[simp] theorem Ctx.setVm_pc (c : Ctx) (i : Fin 32) (x : VWord) : (c.setVm i x).pc = c.pc := rfl
@[simp] theorem Ctx.setVm_st (c : Ctx) (i : Fin 32) (x : VWord) : (c.setVm i x).st = c.st := rfl
@[simp] theorem Ctx.setVm_prior (c : Ctx) (i : Fin 32) (x : VWord) : (c.setVm i x).prior = c.prior := rfl
@[simp] theorem Ctx.setVm_wait (c : Ctx) (i : Fin 32) (x : VWord) : (c.setVm i x).wait = c.wait := rfl
@[simp] theorem Ctx.setVm_pfx (c : Ctx) (i : Fin 32) (x : VWord) : (c.setVm i x).pfx = c.pfx := rfl
@[simp] theorem Ctx.setVm_latch (c : Ctx) (i : Fin 32) (x : VWord) : (c.setVm i x).latch = c.latch := rfl
@[simp] theorem Ctx.setVm_yielding (c : Ctx) (i : Fin 32) (x : VWord) : (c.setVm i x).yielding = c.yielding := rfl
@[simp] theorem Ctx.setVm_chan (c : Ctx) (i : Fin 32) (x : VWord) : (c.setVm i x).chan = c.chan := rfl
@[simp] theorem Ctx.setVm_hdr (c : Ctx) (i : Fin 32) (x : VWord) : (c.setVm i x).hdr = c.hdr := rfl
@[simp] theorem Ctx.setVm_wdog (c : Ctx) (i : Fin 32) (x : VWord) : (c.setVm i x).wdog = c.wdog := rfl
@[simp] theorem Ctx.setVm_hold (c : Ctx) (i : Fin 32) (x : VWord) : (c.setVm i x).hold = c.hold := rfl
@[simp] theorem Ctx.setVm_outbox (c : Ctx) (i : Fin 32) (x : VWord) : (c.setVm i x).outbox = c.outbox := rfl
@[simp] theorem Ctx.setVm_heldOvf (c : Ctx) (i : Fin 32) (x : VWord) : (c.setVm i x).heldOvf = c.heldOvf := rfl
@[simp] theorem Ctx.setVm_lastid (c : Ctx) (i : Fin 32) (x : VWord) : (c.setVm i x).lastid = c.lastid := rfl
@[simp] theorem Ctx.setVm_cpycount (c : Ctx) (i : Fin 32) (x : VWord) : (c.setVm i x).cpycount = c.cpycount := rfl
@[simp] theorem Ctx.setVm_pushed (c : Ctx) (i : Fin 32) (x : VWord) : (c.setVm i x).pushed = c.pushed := rfl
@[simp] theorem Ctx.setVm_fr (c : Ctx) (i : Fin 32) (x : VWord) : (c.setVm i x).fr = c.fr := rfl
@[simp] theorem Ctx.setVm_floor (c : Ctx) (i : Fin 32) (x : VWord) : (c.setVm i x).floor = c.floor := rfl
@[simp] theorem Ctx.setVm_status (c : Ctx) (i : Fin 32) (x : VWord) : (c.setVm i x).status = c.status := rfl
@[simp] theorem Ctx.setVm_owners (c : Ctx) (i : Fin 32) (x : VWord) : (c.setVm i x).owners = c.owners := rfl
@[simp] theorem Ctx.setVm_ownAll (c : Ctx) (i : Fin 32) (x : VWord) : (c.setVm i x).ownAll = c.ownAll := rfl
@[simp] theorem Ctx.setVm_slices (c : Ctx) (i : Fin 32) (x : VWord) : (c.setVm i x).slices = c.slices := rfl
@[simp] theorem Ctx.setVm_unacked (c : Ctx) (i : Fin 32) (x : VWord) : (c.setVm i x).unacked = c.unacked := rfl
@[simp] theorem Ctx.setVm_posted (c : Ctx) (i : Fin 32) (x : VWord) : (c.setVm i x).posted = c.posted := rfl
@[simp] theorem Ctx.setVm_posts (c : Ctx) (i : Fin 32) (x : VWord) : (c.setVm i x).posts = c.posts := rfl
@[simp] theorem Ctx.setVm_lost (c : Ctx) (i : Fin 32) (x : VWord) : (c.setVm i x).lost = c.lost := rfl
@[simp] theorem Ctx.setVm_reqid (c : Ctx) (i : Fin 32) (x : VWord) : (c.setVm i x).reqid = c.reqid := rfl
@[simp] theorem Ctx.setVm_reqBase (c : Ctx) (i : Fin 32) (x : VWord) : (c.setVm i x).reqBase = c.reqBase := rfl
@[simp] theorem Ctx.setVm_persisted (c : Ctx) (i : Fin 32) (x : VWord) : (c.setVm i x).persisted = c.persisted := rfl
@[simp] theorem Ctx.setVm_fenceId (c : Ctx) (i : Fin 32) (x : VWord) : (c.setVm i x).fenceId = c.fenceId := rfl
@[simp] theorem Ctx.setVm_ending (c : Ctx) (i : Fin 32) (x : VWord) : (c.setVm i x).ending = c.ending := rfl
@[simp] theorem Ctx.setVm_counted (c : Ctx) (i : Fin 32) (x : VWord) : (c.setVm i x).counted = c.counted := rfl
@[simp] theorem Ctx.setVm_drop (c : Ctx) (i : Fin 32) (x : VWord) : (c.setVm i x).drop = c.drop := rfl
@[simp] theorem Ctx.setVm_record (c : Ctx) (i : Fin 32) (x : VWord) : (c.setVm i x).record = c.record := rfl
@[simp] theorem Ctx.setVm_trap (c : Ctx) (i : Fin 32) (x : VWord) : (c.setVm i x).trap = c.trap := rfl
@[simp] theorem Ctx.setVm_atBrk (c : Ctx) (i : Fin 32) (x : VWord) : (c.setVm i x).atBrk = c.atBrk := rfl
@[simp] theorem Ctx.setVm_deficit (c : Ctx) (i : Fin 32) (x : VWord) : (c.setVm i x).deficit = c.deficit := rfl
@[simp] theorem Ctx.setVm_quota (c : Ctx) (i : Fin 32) (x : VWord) : (c.setVm i x).quota = c.quota := rfl
@[simp] theorem Ctx.setVm_badS (c : Ctx) (i : Fin 32) (x : VWord) : (c.setVm i x).badS = c.badS := rfl

@[simp] theorem Ctx.setP_s (c : Ctx) (i : Fin 32) (x : BitVec 32) : (c.setP i x).s = c.s := by unfold Ctx.setP; split <;> rfl
@[simp] theorem Ctx.setP_v (c : Ctx) (i : Fin 32) (x : BitVec 32) : (c.setP i x).v = c.v := by unfold Ctx.setP; split <;> rfl
@[simp] theorem Ctx.setP_lp (c : Ctx) (i : Fin 32) (x : BitVec 32) : (c.setP i x).lp = c.lp := by unfold Ctx.setP; split <;> rfl
@[simp] theorem Ctx.setP_k (c : Ctx) (i : Fin 32) (x : BitVec 32) : (c.setP i x).k = c.k := by unfold Ctx.setP; split <;> rfl
@[simp] theorem Ctx.setP_b (c : Ctx) (i : Fin 32) (x : BitVec 32) : (c.setP i x).b = c.b := by unfold Ctx.setP; split <;> rfl
@[simp] theorem Ctx.setP_mrow (c : Ctx) (i : Fin 32) (x : BitVec 32) : (c.setP i x).mrow = c.mrow := by unfold Ctx.setP; split <;> rfl
@[simp] theorem Ctx.setP_mcol (c : Ctx) (i : Fin 32) (x : BitVec 32) : (c.setP i x).mcol = c.mcol := by unfold Ctx.setP; split <;> rfl
@[simp] theorem Ctx.setP_flags (c : Ctx) (i : Fin 32) (x : BitVec 32) : (c.setP i x).flags = c.flags := by unfold Ctx.setP; split <;> rfl
@[simp] theorem Ctx.setP_pc (c : Ctx) (i : Fin 32) (x : BitVec 32) : (c.setP i x).pc = c.pc := by unfold Ctx.setP; split <;> rfl
@[simp] theorem Ctx.setP_st (c : Ctx) (i : Fin 32) (x : BitVec 32) : (c.setP i x).st = c.st := by unfold Ctx.setP; split <;> rfl
@[simp] theorem Ctx.setP_prior (c : Ctx) (i : Fin 32) (x : BitVec 32) : (c.setP i x).prior = c.prior := by unfold Ctx.setP; split <;> rfl
@[simp] theorem Ctx.setP_wait (c : Ctx) (i : Fin 32) (x : BitVec 32) : (c.setP i x).wait = c.wait := by unfold Ctx.setP; split <;> rfl
@[simp] theorem Ctx.setP_pfx (c : Ctx) (i : Fin 32) (x : BitVec 32) : (c.setP i x).pfx = c.pfx := by unfold Ctx.setP; split <;> rfl
@[simp] theorem Ctx.setP_latch (c : Ctx) (i : Fin 32) (x : BitVec 32) : (c.setP i x).latch = c.latch := by unfold Ctx.setP; split <;> rfl
@[simp] theorem Ctx.setP_yielding (c : Ctx) (i : Fin 32) (x : BitVec 32) : (c.setP i x).yielding = c.yielding := by unfold Ctx.setP; split <;> rfl
@[simp] theorem Ctx.setP_chan (c : Ctx) (i : Fin 32) (x : BitVec 32) : (c.setP i x).chan = c.chan := by unfold Ctx.setP; split <;> rfl
@[simp] theorem Ctx.setP_hdr (c : Ctx) (i : Fin 32) (x : BitVec 32) : (c.setP i x).hdr = c.hdr := by unfold Ctx.setP; split <;> rfl
@[simp] theorem Ctx.setP_wdog (c : Ctx) (i : Fin 32) (x : BitVec 32) : (c.setP i x).wdog = c.wdog := by unfold Ctx.setP; split <;> rfl
@[simp] theorem Ctx.setP_hold (c : Ctx) (i : Fin 32) (x : BitVec 32) : (c.setP i x).hold = c.hold := by unfold Ctx.setP; split <;> rfl
@[simp] theorem Ctx.setP_outbox (c : Ctx) (i : Fin 32) (x : BitVec 32) : (c.setP i x).outbox = c.outbox := by unfold Ctx.setP; split <;> rfl
@[simp] theorem Ctx.setP_heldOvf (c : Ctx) (i : Fin 32) (x : BitVec 32) : (c.setP i x).heldOvf = c.heldOvf := by unfold Ctx.setP; split <;> rfl
@[simp] theorem Ctx.setP_lastid (c : Ctx) (i : Fin 32) (x : BitVec 32) : (c.setP i x).lastid = c.lastid := by unfold Ctx.setP; split <;> rfl
@[simp] theorem Ctx.setP_cpycount (c : Ctx) (i : Fin 32) (x : BitVec 32) : (c.setP i x).cpycount = c.cpycount := by unfold Ctx.setP; split <;> rfl
@[simp] theorem Ctx.setP_pushed (c : Ctx) (i : Fin 32) (x : BitVec 32) : (c.setP i x).pushed = c.pushed := by unfold Ctx.setP; split <;> rfl
@[simp] theorem Ctx.setP_fr (c : Ctx) (i : Fin 32) (x : BitVec 32) : (c.setP i x).fr = c.fr := by unfold Ctx.setP; split <;> rfl
@[simp] theorem Ctx.setP_floor (c : Ctx) (i : Fin 32) (x : BitVec 32) : (c.setP i x).floor = c.floor := by unfold Ctx.setP; split <;> rfl
@[simp] theorem Ctx.setP_status (c : Ctx) (i : Fin 32) (x : BitVec 32) : (c.setP i x).status = c.status := by unfold Ctx.setP; split <;> rfl
@[simp] theorem Ctx.setP_owners (c : Ctx) (i : Fin 32) (x : BitVec 32) : (c.setP i x).owners = c.owners := by unfold Ctx.setP; split <;> rfl
@[simp] theorem Ctx.setP_ownAll (c : Ctx) (i : Fin 32) (x : BitVec 32) : (c.setP i x).ownAll = c.ownAll := by unfold Ctx.setP; split <;> rfl
@[simp] theorem Ctx.setP_slices (c : Ctx) (i : Fin 32) (x : BitVec 32) : (c.setP i x).slices = c.slices := by unfold Ctx.setP; split <;> rfl
@[simp] theorem Ctx.setP_unacked (c : Ctx) (i : Fin 32) (x : BitVec 32) : (c.setP i x).unacked = c.unacked := by unfold Ctx.setP; split <;> rfl
@[simp] theorem Ctx.setP_posted (c : Ctx) (i : Fin 32) (x : BitVec 32) : (c.setP i x).posted = c.posted := by unfold Ctx.setP; split <;> rfl
@[simp] theorem Ctx.setP_posts (c : Ctx) (i : Fin 32) (x : BitVec 32) : (c.setP i x).posts = c.posts := by unfold Ctx.setP; split <;> rfl
@[simp] theorem Ctx.setP_lost (c : Ctx) (i : Fin 32) (x : BitVec 32) : (c.setP i x).lost = c.lost := by unfold Ctx.setP; split <;> rfl
@[simp] theorem Ctx.setP_reqid (c : Ctx) (i : Fin 32) (x : BitVec 32) : (c.setP i x).reqid = c.reqid := by unfold Ctx.setP; split <;> rfl
@[simp] theorem Ctx.setP_reqBase (c : Ctx) (i : Fin 32) (x : BitVec 32) : (c.setP i x).reqBase = c.reqBase := by unfold Ctx.setP; split <;> rfl
@[simp] theorem Ctx.setP_persisted (c : Ctx) (i : Fin 32) (x : BitVec 32) : (c.setP i x).persisted = c.persisted := by unfold Ctx.setP; split <;> rfl
@[simp] theorem Ctx.setP_fenceId (c : Ctx) (i : Fin 32) (x : BitVec 32) : (c.setP i x).fenceId = c.fenceId := by unfold Ctx.setP; split <;> rfl
@[simp] theorem Ctx.setP_ending (c : Ctx) (i : Fin 32) (x : BitVec 32) : (c.setP i x).ending = c.ending := by unfold Ctx.setP; split <;> rfl
@[simp] theorem Ctx.setP_counted (c : Ctx) (i : Fin 32) (x : BitVec 32) : (c.setP i x).counted = c.counted := by unfold Ctx.setP; split <;> rfl
@[simp] theorem Ctx.setP_drop (c : Ctx) (i : Fin 32) (x : BitVec 32) : (c.setP i x).drop = c.drop := by unfold Ctx.setP; split <;> rfl
@[simp] theorem Ctx.setP_record (c : Ctx) (i : Fin 32) (x : BitVec 32) : (c.setP i x).record = c.record := by unfold Ctx.setP; split <;> rfl
@[simp] theorem Ctx.setP_trap (c : Ctx) (i : Fin 32) (x : BitVec 32) : (c.setP i x).trap = c.trap := by unfold Ctx.setP; split <;> rfl
@[simp] theorem Ctx.setP_atBrk (c : Ctx) (i : Fin 32) (x : BitVec 32) : (c.setP i x).atBrk = c.atBrk := by unfold Ctx.setP; split <;> rfl
@[simp] theorem Ctx.setP_deficit (c : Ctx) (i : Fin 32) (x : BitVec 32) : (c.setP i x).deficit = c.deficit := by unfold Ctx.setP; split <;> rfl
@[simp] theorem Ctx.setP_quota (c : Ctx) (i : Fin 32) (x : BitVec 32) : (c.setP i x).quota = c.quota := by unfold Ctx.setP; split <;> rfl
@[simp] theorem Ctx.setP_badS (c : Ctx) (i : Fin 32) (x : BitVec 32) : (c.setP i x).badS = c.badS := by unfold Ctx.setP; split <;> rfl
@[simp] theorem Ctx.setP_badV (c : Ctx) (i : Fin 32) (x : BitVec 32) : (c.setP i x).badV = c.badV := by unfold Ctx.setP; split <;> rfl

@[simp] theorem Ctx.orFlags_s (c : Ctx) (f : BitVec 5) : (c.orFlags f).s = c.s := rfl
@[simp] theorem Ctx.orFlags_v (c : Ctx) (f : BitVec 5) : (c.orFlags f).v = c.v := rfl
@[simp] theorem Ctx.orFlags_p (c : Ctx) (f : BitVec 5) : (c.orFlags f).p = c.p := rfl
@[simp] theorem Ctx.orFlags_lp (c : Ctx) (f : BitVec 5) : (c.orFlags f).lp = c.lp := rfl
@[simp] theorem Ctx.orFlags_k (c : Ctx) (f : BitVec 5) : (c.orFlags f).k = c.k := rfl
@[simp] theorem Ctx.orFlags_b (c : Ctx) (f : BitVec 5) : (c.orFlags f).b = c.b := rfl
@[simp] theorem Ctx.orFlags_mrow (c : Ctx) (f : BitVec 5) : (c.orFlags f).mrow = c.mrow := rfl
@[simp] theorem Ctx.orFlags_mcol (c : Ctx) (f : BitVec 5) : (c.orFlags f).mcol = c.mcol := rfl
@[simp] theorem Ctx.orFlags_pc (c : Ctx) (f : BitVec 5) : (c.orFlags f).pc = c.pc := rfl
@[simp] theorem Ctx.orFlags_st (c : Ctx) (f : BitVec 5) : (c.orFlags f).st = c.st := rfl
@[simp] theorem Ctx.orFlags_prior (c : Ctx) (f : BitVec 5) : (c.orFlags f).prior = c.prior := rfl
@[simp] theorem Ctx.orFlags_wait (c : Ctx) (f : BitVec 5) : (c.orFlags f).wait = c.wait := rfl
@[simp] theorem Ctx.orFlags_pfx (c : Ctx) (f : BitVec 5) : (c.orFlags f).pfx = c.pfx := rfl
@[simp] theorem Ctx.orFlags_latch (c : Ctx) (f : BitVec 5) : (c.orFlags f).latch = c.latch := rfl
@[simp] theorem Ctx.orFlags_yielding (c : Ctx) (f : BitVec 5) : (c.orFlags f).yielding = c.yielding := rfl
@[simp] theorem Ctx.orFlags_chan (c : Ctx) (f : BitVec 5) : (c.orFlags f).chan = c.chan := rfl
@[simp] theorem Ctx.orFlags_hdr (c : Ctx) (f : BitVec 5) : (c.orFlags f).hdr = c.hdr := rfl
@[simp] theorem Ctx.orFlags_wdog (c : Ctx) (f : BitVec 5) : (c.orFlags f).wdog = c.wdog := rfl
@[simp] theorem Ctx.orFlags_hold (c : Ctx) (f : BitVec 5) : (c.orFlags f).hold = c.hold := rfl
@[simp] theorem Ctx.orFlags_outbox (c : Ctx) (f : BitVec 5) : (c.orFlags f).outbox = c.outbox := rfl
@[simp] theorem Ctx.orFlags_heldOvf (c : Ctx) (f : BitVec 5) : (c.orFlags f).heldOvf = c.heldOvf := rfl
@[simp] theorem Ctx.orFlags_lastid (c : Ctx) (f : BitVec 5) : (c.orFlags f).lastid = c.lastid := rfl
@[simp] theorem Ctx.orFlags_cpycount (c : Ctx) (f : BitVec 5) : (c.orFlags f).cpycount = c.cpycount := rfl
@[simp] theorem Ctx.orFlags_pushed (c : Ctx) (f : BitVec 5) : (c.orFlags f).pushed = c.pushed := rfl
@[simp] theorem Ctx.orFlags_fr (c : Ctx) (f : BitVec 5) : (c.orFlags f).fr = c.fr := rfl
@[simp] theorem Ctx.orFlags_floor (c : Ctx) (f : BitVec 5) : (c.orFlags f).floor = c.floor := rfl
@[simp] theorem Ctx.orFlags_status (c : Ctx) (f : BitVec 5) : (c.orFlags f).status = c.status := rfl
@[simp] theorem Ctx.orFlags_owners (c : Ctx) (f : BitVec 5) : (c.orFlags f).owners = c.owners := rfl
@[simp] theorem Ctx.orFlags_ownAll (c : Ctx) (f : BitVec 5) : (c.orFlags f).ownAll = c.ownAll := rfl
@[simp] theorem Ctx.orFlags_slices (c : Ctx) (f : BitVec 5) : (c.orFlags f).slices = c.slices := rfl
@[simp] theorem Ctx.orFlags_unacked (c : Ctx) (f : BitVec 5) : (c.orFlags f).unacked = c.unacked := rfl
@[simp] theorem Ctx.orFlags_posted (c : Ctx) (f : BitVec 5) : (c.orFlags f).posted = c.posted := rfl
@[simp] theorem Ctx.orFlags_posts (c : Ctx) (f : BitVec 5) : (c.orFlags f).posts = c.posts := rfl
@[simp] theorem Ctx.orFlags_lost (c : Ctx) (f : BitVec 5) : (c.orFlags f).lost = c.lost := rfl
@[simp] theorem Ctx.orFlags_reqid (c : Ctx) (f : BitVec 5) : (c.orFlags f).reqid = c.reqid := rfl
@[simp] theorem Ctx.orFlags_reqBase (c : Ctx) (f : BitVec 5) : (c.orFlags f).reqBase = c.reqBase := rfl
@[simp] theorem Ctx.orFlags_persisted (c : Ctx) (f : BitVec 5) : (c.orFlags f).persisted = c.persisted := rfl
@[simp] theorem Ctx.orFlags_fenceId (c : Ctx) (f : BitVec 5) : (c.orFlags f).fenceId = c.fenceId := rfl
@[simp] theorem Ctx.orFlags_ending (c : Ctx) (f : BitVec 5) : (c.orFlags f).ending = c.ending := rfl
@[simp] theorem Ctx.orFlags_counted (c : Ctx) (f : BitVec 5) : (c.orFlags f).counted = c.counted := rfl
@[simp] theorem Ctx.orFlags_drop (c : Ctx) (f : BitVec 5) : (c.orFlags f).drop = c.drop := rfl
@[simp] theorem Ctx.orFlags_record (c : Ctx) (f : BitVec 5) : (c.orFlags f).record = c.record := rfl
@[simp] theorem Ctx.orFlags_trap (c : Ctx) (f : BitVec 5) : (c.orFlags f).trap = c.trap := rfl
@[simp] theorem Ctx.orFlags_atBrk (c : Ctx) (f : BitVec 5) : (c.orFlags f).atBrk = c.atBrk := rfl
@[simp] theorem Ctx.orFlags_deficit (c : Ctx) (f : BitVec 5) : (c.orFlags f).deficit = c.deficit := rfl
@[simp] theorem Ctx.orFlags_quota (c : Ctx) (f : BitVec 5) : (c.orFlags f).quota = c.quota := rfl
@[simp] theorem Ctx.orFlags_badS (c : Ctx) (f : BitVec 5) : (c.orFlags f).badS = c.badS := rfl
@[simp] theorem Ctx.orFlags_badV (c : Ctx) (f : BitVec 5) : (c.orFlags f).badV = c.badV := rfl

@[simp] theorem Ctx.freeLoops_s (c : Ctx) : (c.freeLoops).s = c.s := rfl
@[simp] theorem Ctx.freeLoops_v (c : Ctx) : (c.freeLoops).v = c.v := rfl
@[simp] theorem Ctx.freeLoops_p (c : Ctx) : (c.freeLoops).p = c.p := rfl
@[simp] theorem Ctx.freeLoops_k (c : Ctx) : (c.freeLoops).k = c.k := rfl
@[simp] theorem Ctx.freeLoops_b (c : Ctx) : (c.freeLoops).b = c.b := rfl
@[simp] theorem Ctx.freeLoops_mrow (c : Ctx) : (c.freeLoops).mrow = c.mrow := rfl
@[simp] theorem Ctx.freeLoops_mcol (c : Ctx) : (c.freeLoops).mcol = c.mcol := rfl
@[simp] theorem Ctx.freeLoops_flags (c : Ctx) : (c.freeLoops).flags = c.flags := rfl
@[simp] theorem Ctx.freeLoops_pc (c : Ctx) : (c.freeLoops).pc = c.pc := rfl
@[simp] theorem Ctx.freeLoops_st (c : Ctx) : (c.freeLoops).st = c.st := rfl
@[simp] theorem Ctx.freeLoops_prior (c : Ctx) : (c.freeLoops).prior = c.prior := rfl
@[simp] theorem Ctx.freeLoops_wait (c : Ctx) : (c.freeLoops).wait = c.wait := rfl
@[simp] theorem Ctx.freeLoops_pfx (c : Ctx) : (c.freeLoops).pfx = c.pfx := rfl
@[simp] theorem Ctx.freeLoops_latch (c : Ctx) : (c.freeLoops).latch = c.latch := rfl
@[simp] theorem Ctx.freeLoops_yielding (c : Ctx) : (c.freeLoops).yielding = c.yielding := rfl
@[simp] theorem Ctx.freeLoops_chan (c : Ctx) : (c.freeLoops).chan = c.chan := rfl
@[simp] theorem Ctx.freeLoops_hdr (c : Ctx) : (c.freeLoops).hdr = c.hdr := rfl
@[simp] theorem Ctx.freeLoops_wdog (c : Ctx) : (c.freeLoops).wdog = c.wdog := rfl
@[simp] theorem Ctx.freeLoops_hold (c : Ctx) : (c.freeLoops).hold = c.hold := rfl
@[simp] theorem Ctx.freeLoops_outbox (c : Ctx) : (c.freeLoops).outbox = c.outbox := rfl
@[simp] theorem Ctx.freeLoops_heldOvf (c : Ctx) : (c.freeLoops).heldOvf = c.heldOvf := rfl
@[simp] theorem Ctx.freeLoops_lastid (c : Ctx) : (c.freeLoops).lastid = c.lastid := rfl
@[simp] theorem Ctx.freeLoops_cpycount (c : Ctx) : (c.freeLoops).cpycount = c.cpycount := rfl
@[simp] theorem Ctx.freeLoops_pushed (c : Ctx) : (c.freeLoops).pushed = c.pushed := rfl
@[simp] theorem Ctx.freeLoops_fr (c : Ctx) : (c.freeLoops).fr = c.fr := rfl
@[simp] theorem Ctx.freeLoops_floor (c : Ctx) : (c.freeLoops).floor = c.floor := rfl
@[simp] theorem Ctx.freeLoops_status (c : Ctx) : (c.freeLoops).status = c.status := rfl
@[simp] theorem Ctx.freeLoops_owners (c : Ctx) : (c.freeLoops).owners = c.owners := rfl
@[simp] theorem Ctx.freeLoops_ownAll (c : Ctx) : (c.freeLoops).ownAll = c.ownAll := rfl
@[simp] theorem Ctx.freeLoops_slices (c : Ctx) : (c.freeLoops).slices = c.slices := rfl
@[simp] theorem Ctx.freeLoops_unacked (c : Ctx) : (c.freeLoops).unacked = c.unacked := rfl
@[simp] theorem Ctx.freeLoops_posted (c : Ctx) : (c.freeLoops).posted = c.posted := rfl
@[simp] theorem Ctx.freeLoops_posts (c : Ctx) : (c.freeLoops).posts = c.posts := rfl
@[simp] theorem Ctx.freeLoops_lost (c : Ctx) : (c.freeLoops).lost = c.lost := rfl
@[simp] theorem Ctx.freeLoops_reqid (c : Ctx) : (c.freeLoops).reqid = c.reqid := rfl
@[simp] theorem Ctx.freeLoops_reqBase (c : Ctx) : (c.freeLoops).reqBase = c.reqBase := rfl
@[simp] theorem Ctx.freeLoops_persisted (c : Ctx) : (c.freeLoops).persisted = c.persisted := rfl
@[simp] theorem Ctx.freeLoops_fenceId (c : Ctx) : (c.freeLoops).fenceId = c.fenceId := rfl
@[simp] theorem Ctx.freeLoops_ending (c : Ctx) : (c.freeLoops).ending = c.ending := rfl
@[simp] theorem Ctx.freeLoops_counted (c : Ctx) : (c.freeLoops).counted = c.counted := rfl
@[simp] theorem Ctx.freeLoops_drop (c : Ctx) : (c.freeLoops).drop = c.drop := rfl
@[simp] theorem Ctx.freeLoops_record (c : Ctx) : (c.freeLoops).record = c.record := rfl
@[simp] theorem Ctx.freeLoops_trap (c : Ctx) : (c.freeLoops).trap = c.trap := rfl
@[simp] theorem Ctx.freeLoops_atBrk (c : Ctx) : (c.freeLoops).atBrk = c.atBrk := rfl
@[simp] theorem Ctx.freeLoops_deficit (c : Ctx) : (c.freeLoops).deficit = c.deficit := rfl
@[simp] theorem Ctx.freeLoops_quota (c : Ctx) : (c.freeLoops).quota = c.quota := rfl
@[simp] theorem Ctx.freeLoops_badS (c : Ctx) : (c.freeLoops).badS = c.badS := rfl
@[simp] theorem Ctx.freeLoops_badV (c : Ctx) : (c.freeLoops).badV = c.badV := rfl

@[simp] theorem Ctx.advance_s (c : Ctx) (n : Nat) : (c.advance n).s = c.s := c.fallThrough_s _
@[simp] theorem Ctx.advance_v (c : Ctx) (n : Nat) : (c.advance n).v = c.v := c.fallThrough_v _
@[simp] theorem Ctx.advance_p (c : Ctx) (n : Nat) : (c.advance n).p = c.p := c.fallThrough_p _
@[simp] theorem Ctx.advance_k (c : Ctx) (n : Nat) : (c.advance n).k = c.k := c.fallThrough_k _
@[simp] theorem Ctx.advance_b (c : Ctx) (n : Nat) : (c.advance n).b = c.b := c.fallThrough_b _
@[simp] theorem Ctx.advance_mrow (c : Ctx) (n : Nat) : (c.advance n).mrow = c.mrow := c.fallThrough_mrow _
@[simp] theorem Ctx.advance_mcol (c : Ctx) (n : Nat) : (c.advance n).mcol = c.mcol := c.fallThrough_mcol _
@[simp] theorem Ctx.advance_flags (c : Ctx) (n : Nat) : (c.advance n).flags = c.flags := c.fallThrough_flags _
@[simp] theorem Ctx.advance_prior (c : Ctx) (n : Nat) : (c.advance n).prior = c.prior := c.fallThrough_prior _
@[simp] theorem Ctx.advance_latch (c : Ctx) (n : Nat) : (c.advance n).latch = c.latch := c.fallThrough_latch _
@[simp] theorem Ctx.advance_yielding (c : Ctx) (n : Nat) : (c.advance n).yielding = c.yielding := c.fallThrough_yielding _
@[simp] theorem Ctx.advance_chan (c : Ctx) (n : Nat) : (c.advance n).chan = c.chan := c.fallThrough_chan _
@[simp] theorem Ctx.advance_hdr (c : Ctx) (n : Nat) : (c.advance n).hdr = c.hdr := c.fallThrough_hdr _
@[simp] theorem Ctx.advance_wdog (c : Ctx) (n : Nat) : (c.advance n).wdog = c.wdog := c.fallThrough_wdog _
@[simp] theorem Ctx.advance_hold (c : Ctx) (n : Nat) : (c.advance n).hold = c.hold := c.fallThrough_hold _
@[simp] theorem Ctx.advance_outbox (c : Ctx) (n : Nat) : (c.advance n).outbox = c.outbox := c.fallThrough_outbox _
@[simp] theorem Ctx.advance_heldOvf (c : Ctx) (n : Nat) : (c.advance n).heldOvf = c.heldOvf := c.fallThrough_heldOvf _
@[simp] theorem Ctx.advance_lastid (c : Ctx) (n : Nat) : (c.advance n).lastid = c.lastid := c.fallThrough_lastid _
@[simp] theorem Ctx.advance_cpycount (c : Ctx) (n : Nat) : (c.advance n).cpycount = c.cpycount := c.fallThrough_cpycount _
@[simp] theorem Ctx.advance_pushed (c : Ctx) (n : Nat) : (c.advance n).pushed = c.pushed := c.fallThrough_pushed _
@[simp] theorem Ctx.advance_fr (c : Ctx) (n : Nat) : (c.advance n).fr = c.fr := c.fallThrough_fr _
@[simp] theorem Ctx.advance_floor (c : Ctx) (n : Nat) : (c.advance n).floor = c.floor := c.fallThrough_floor _
@[simp] theorem Ctx.advance_status (c : Ctx) (n : Nat) : (c.advance n).status = c.status := c.fallThrough_status _
@[simp] theorem Ctx.advance_owners (c : Ctx) (n : Nat) : (c.advance n).owners = c.owners := c.fallThrough_owners _
@[simp] theorem Ctx.advance_ownAll (c : Ctx) (n : Nat) : (c.advance n).ownAll = c.ownAll := c.fallThrough_ownAll _
@[simp] theorem Ctx.advance_slices (c : Ctx) (n : Nat) : (c.advance n).slices = c.slices := c.fallThrough_slices _
@[simp] theorem Ctx.advance_unacked (c : Ctx) (n : Nat) : (c.advance n).unacked = c.unacked := c.fallThrough_unacked _
@[simp] theorem Ctx.advance_posted (c : Ctx) (n : Nat) : (c.advance n).posted = c.posted := c.fallThrough_posted _
@[simp] theorem Ctx.advance_posts (c : Ctx) (n : Nat) : (c.advance n).posts = c.posts := c.fallThrough_posts _
@[simp] theorem Ctx.advance_lost (c : Ctx) (n : Nat) : (c.advance n).lost = c.lost := c.fallThrough_lost _
@[simp] theorem Ctx.advance_reqid (c : Ctx) (n : Nat) : (c.advance n).reqid = c.reqid := c.fallThrough_reqid _
@[simp] theorem Ctx.advance_reqBase (c : Ctx) (n : Nat) : (c.advance n).reqBase = c.reqBase := c.fallThrough_reqBase _
@[simp] theorem Ctx.advance_persisted (c : Ctx) (n : Nat) : (c.advance n).persisted = c.persisted := c.fallThrough_persisted _
@[simp] theorem Ctx.advance_fenceId (c : Ctx) (n : Nat) : (c.advance n).fenceId = c.fenceId := c.fallThrough_fenceId _
@[simp] theorem Ctx.advance_ending (c : Ctx) (n : Nat) : (c.advance n).ending = c.ending := c.fallThrough_ending _
@[simp] theorem Ctx.advance_counted (c : Ctx) (n : Nat) : (c.advance n).counted = c.counted := c.fallThrough_counted _
@[simp] theorem Ctx.advance_drop (c : Ctx) (n : Nat) : (c.advance n).drop = c.drop := c.fallThrough_drop _
@[simp] theorem Ctx.advance_record (c : Ctx) (n : Nat) : (c.advance n).record = c.record := c.fallThrough_record _
@[simp] theorem Ctx.advance_trap (c : Ctx) (n : Nat) : (c.advance n).trap = c.trap := c.fallThrough_trap _
@[simp] theorem Ctx.advance_atBrk (c : Ctx) (n : Nat) : (c.advance n).atBrk = c.atBrk := c.fallThrough_atBrk _
@[simp] theorem Ctx.advance_deficit (c : Ctx) (n : Nat) : (c.advance n).deficit = c.deficit := c.fallThrough_deficit _
@[simp] theorem Ctx.advance_quota (c : Ctx) (n : Nat) : (c.advance n).quota = c.quota := c.fallThrough_quota _
@[simp] theorem Ctx.advance_badS (c : Ctx) (n : Nat) : (c.advance n).badS = c.badS := c.fallThrough_badS _
@[simp] theorem Ctx.advance_badV (c : Ctx) (n : Nat) : (c.advance n).badV = c.badV := c.fallThrough_badV _

@[simp] theorem Ctx.jump_s (c : Ctx) (t : Word) : (c.jump t).s = c.s := rfl
@[simp] theorem Ctx.jump_v (c : Ctx) (t : Word) : (c.jump t).v = c.v := rfl
@[simp] theorem Ctx.jump_p (c : Ctx) (t : Word) : (c.jump t).p = c.p := rfl
@[simp] theorem Ctx.jump_k (c : Ctx) (t : Word) : (c.jump t).k = c.k := rfl
@[simp] theorem Ctx.jump_b (c : Ctx) (t : Word) : (c.jump t).b = c.b := rfl
@[simp] theorem Ctx.jump_mrow (c : Ctx) (t : Word) : (c.jump t).mrow = c.mrow := rfl
@[simp] theorem Ctx.jump_mcol (c : Ctx) (t : Word) : (c.jump t).mcol = c.mcol := rfl
@[simp] theorem Ctx.jump_flags (c : Ctx) (t : Word) : (c.jump t).flags = c.flags := rfl
@[simp] theorem Ctx.jump_prior (c : Ctx) (t : Word) : (c.jump t).prior = c.prior := rfl
@[simp] theorem Ctx.jump_latch (c : Ctx) (t : Word) : (c.jump t).latch = c.latch := rfl
@[simp] theorem Ctx.jump_yielding (c : Ctx) (t : Word) : (c.jump t).yielding = c.yielding := rfl
@[simp] theorem Ctx.jump_chan (c : Ctx) (t : Word) : (c.jump t).chan = c.chan := rfl
@[simp] theorem Ctx.jump_hdr (c : Ctx) (t : Word) : (c.jump t).hdr = c.hdr := rfl
@[simp] theorem Ctx.jump_wdog (c : Ctx) (t : Word) : (c.jump t).wdog = c.wdog := rfl
@[simp] theorem Ctx.jump_hold (c : Ctx) (t : Word) : (c.jump t).hold = c.hold := rfl
@[simp] theorem Ctx.jump_outbox (c : Ctx) (t : Word) : (c.jump t).outbox = c.outbox := rfl
@[simp] theorem Ctx.jump_heldOvf (c : Ctx) (t : Word) : (c.jump t).heldOvf = c.heldOvf := rfl
@[simp] theorem Ctx.jump_lastid (c : Ctx) (t : Word) : (c.jump t).lastid = c.lastid := rfl
@[simp] theorem Ctx.jump_cpycount (c : Ctx) (t : Word) : (c.jump t).cpycount = c.cpycount := rfl
@[simp] theorem Ctx.jump_pushed (c : Ctx) (t : Word) : (c.jump t).pushed = c.pushed := rfl
@[simp] theorem Ctx.jump_fr (c : Ctx) (t : Word) : (c.jump t).fr = c.fr := rfl
@[simp] theorem Ctx.jump_floor (c : Ctx) (t : Word) : (c.jump t).floor = c.floor := rfl
@[simp] theorem Ctx.jump_status (c : Ctx) (t : Word) : (c.jump t).status = c.status := rfl
@[simp] theorem Ctx.jump_owners (c : Ctx) (t : Word) : (c.jump t).owners = c.owners := rfl
@[simp] theorem Ctx.jump_ownAll (c : Ctx) (t : Word) : (c.jump t).ownAll = c.ownAll := rfl
@[simp] theorem Ctx.jump_slices (c : Ctx) (t : Word) : (c.jump t).slices = c.slices := rfl
@[simp] theorem Ctx.jump_unacked (c : Ctx) (t : Word) : (c.jump t).unacked = c.unacked := rfl
@[simp] theorem Ctx.jump_posted (c : Ctx) (t : Word) : (c.jump t).posted = c.posted := rfl
@[simp] theorem Ctx.jump_posts (c : Ctx) (t : Word) : (c.jump t).posts = c.posts := rfl
@[simp] theorem Ctx.jump_lost (c : Ctx) (t : Word) : (c.jump t).lost = c.lost := rfl
@[simp] theorem Ctx.jump_reqid (c : Ctx) (t : Word) : (c.jump t).reqid = c.reqid := rfl
@[simp] theorem Ctx.jump_reqBase (c : Ctx) (t : Word) : (c.jump t).reqBase = c.reqBase := rfl
@[simp] theorem Ctx.jump_persisted (c : Ctx) (t : Word) : (c.jump t).persisted = c.persisted := rfl
@[simp] theorem Ctx.jump_fenceId (c : Ctx) (t : Word) : (c.jump t).fenceId = c.fenceId := rfl
@[simp] theorem Ctx.jump_ending (c : Ctx) (t : Word) : (c.jump t).ending = c.ending := rfl
@[simp] theorem Ctx.jump_counted (c : Ctx) (t : Word) : (c.jump t).counted = c.counted := rfl
@[simp] theorem Ctx.jump_drop (c : Ctx) (t : Word) : (c.jump t).drop = c.drop := rfl
@[simp] theorem Ctx.jump_record (c : Ctx) (t : Word) : (c.jump t).record = c.record := rfl
@[simp] theorem Ctx.jump_trap (c : Ctx) (t : Word) : (c.jump t).trap = c.trap := rfl
@[simp] theorem Ctx.jump_atBrk (c : Ctx) (t : Word) : (c.jump t).atBrk = c.atBrk := rfl
@[simp] theorem Ctx.jump_deficit (c : Ctx) (t : Word) : (c.jump t).deficit = c.deficit := rfl
@[simp] theorem Ctx.jump_quota (c : Ctx) (t : Word) : (c.jump t).quota = c.quota := rfl
@[simp] theorem Ctx.jump_badS (c : Ctx) (t : Word) : (c.jump t).badS = c.badS := rfl
@[simp] theorem Ctx.jump_badV (c : Ctx) (t : Word) : (c.jump t).badV = c.badV := rfl

@[simp] theorem Ctx.advance_pfx (c : Ctx) (n : Nat) : (c.advance n).pfx = none := rfl
@[simp] theorem Ctx.jump_pfx (c : Ctx) (t : Word) : (c.jump t).pfx = none := rfl
@[simp] theorem Ctx.advance_st (c : Ctx) (n : Nat) : (c.advance n).st = .running := rfl
@[simp] theorem Ctx.jump_st (c : Ctx) (t : Word) : (c.jump t).st = .running := rfl
@[simp] theorem Ctx.advance_wait (c : Ctx) (n : Nat) : (c.advance n).wait = .none := rfl
@[simp] theorem Ctx.jump_wait (c : Ctx) (t : Word) : (c.jump t).wait = .none := rfl
@[simp] theorem Ctx.jump_pc (c : Ctx) (t : Word) : (c.jump t).pc = t := rfl

end Sys2Proof.Machine
end

