-- ==== Sys2Proof/Laws/Ops.lean ====
section
/-! SUPPORT. What reading a site, a context or a memory gives after an update of the state. -/

namespace Sys2Proof.Machine

/-! Sites. -/

@[simp] theorem State.site_setSite (s : State) (t : Nat) (x : Site) : (s.setSite t x).site t = x := by
  simp [State.site, State.setSite, mapGetD_put]

theorem State.site_setSite_ne (s : State) (t u : Nat) (x : Site) (h : t ≠ u) : (s.setSite t x).site u = s.site u := by
  simp [State.site, State.setSite, mapGetD_put, h]

@[simp] theorem State.site_modSite (s : State) (t : Nat) (f : Site → Site) : (s.modSite t f).site t = f (s.site t) := by
  simp [State.modSite]

theorem State.site_modSite_ne (s : State) (t u : Nat) (f : Site → Site) (h : t ≠ u) : (s.modSite t f).site u = s.site u := by
  simp [State.modSite, State.site_setSite_ne _ _ _ _ h]

@[simp] theorem State.site_modCore (s : State) (t : Nat) (f : Core → Core) :
    (s.modCore t f).site t = { s.site t with core := f (s.site t).core } := by simp [State.modCore]

theorem State.site_modCore_ne (s : State) (t u : Nat) (f : Core → Core) (h : t ≠ u) : (s.modCore t f).site u = s.site u := by
  simp [State.modCore, State.site_modSite_ne _ _ _ _ h]

theorem State.setSite_setSite (s : State) (t : Nat) (x y : Site) : (s.setSite t x).setSite t y = s.setSite t y := by
  unfold State.setSite
  congr 1
  simp only [mapPut]
  congr 1
  rw [mapErase_insert, mapErase_erase]

/-! Contexts. -/

@[simp] theorem State.ctxAt_setCtxAt (s : State) (t : Nat) (c : Fin 4) (y : Ctx) : (s.setCtxAt t c y).ctxAt t c = y := by
  simp [State.ctxAt, State.setCtxAt]

theorem State.ctxAt_setCtxAt_ne (s : State) (t : Nat) (c d : Fin 4) (y : Ctx) (h : c ≠ d) :
    (s.setCtxAt t c y).ctxAt t d = s.ctxAt t d := by
  have : c.val ≠ d.val := fun e => h (Fin.ext e)
  simp [State.ctxAt, State.setCtxAt, this]

@[simp] theorem State.site_setCtxAt (s : State) (t : Nat) (c : Fin 4) (y : Ctx) :
    (s.setCtxAt t c y).site t = { s.site t with core := { (s.site t).core with ctxs := (s.site t).core.ctxs.set c y } } := by
  simp [State.setCtxAt]

theorem State.site_setCtxAt_ne (s : State) (t u : Nat) (c : Fin 4) (y : Ctx) (h : t ≠ u) :
    (s.setCtxAt t c y).site u = s.site u := by simp [State.setCtxAt, State.site_modCore_ne _ _ _ _ h]

theorem State.setCtxAt_setCtxAt (s : State) (t : Nat) (c : Fin 4) (x y : Ctx) :
    (s.setCtxAt t c x).setCtxAt t c y = s.setCtxAt t c y := by
  simp [State.setCtxAt, State.modCore, State.modSite, State.setSite_setSite]

/-! The running context. -/

@[simp] theorem State.ctx_setCtx (s : State) (y : Ctx) : (s.setCtx y).ctx = y := by
  simp [State.ctx, State.setCtx]

@[simp] theorem State.ctx_done (s : State) (n : Nat) (y : Ctx) : (s.done n y).ctx = y.advance n := by simp [State.done]

@[simp] theorem State.ctx_modCtx (s : State) (f : Ctx → Ctx) : (s.modCtx f).ctx = f s.ctx := by simp [State.modCtx]

theorem State.setCtx_setCtx (s : State) (x y : Ctx) : (s.setCtx x).setCtx y = s.setCtx y := by
  simp [State.setCtx, State.setCtxAt_setCtxAt]

theorem State.done_onlyCtx (s : State) (n : Nat) (y : Ctx) : s.done n y = s.setCtx (s.done n y).ctx := by simp [State.done]

/-! Scratchpads and code images of every site after an update of a core. -/

@[simp] theorem State.mem_modCore (s : State) (t u : Nat) (f : Core → Core) : ((s.modCore t f).site u).mem = (s.site u).mem := by
  by_cases h : t = u
  · subst h; simp
  · rw [State.site_modCore_ne _ _ _ _ h]

@[simp] theorem State.istore_modCore (s : State) (t u : Nat) (f : Core → Core) :
    ((s.modCore t f).site u).istore = (s.site u).istore := by
  by_cases h : t = u
  · subst h; simp
  · rw [State.site_modCore_ne _ _ _ _ h]

@[simp] theorem State.mem_setCtxAt (s : State) (t u : Nat) (c : Fin 4) (y : Ctx) :
    ((s.setCtxAt t c y).site u).mem = (s.site u).mem := s.mem_modCore t u _

@[simp] theorem State.mem_setCtx (s : State) (u : Nat) (y : Ctx) : ((s.setCtx y).site u).mem = (s.site u).mem :=
  s.mem_setCtxAt _ _ _ _

@[simp] theorem State.mem_done (s : State) (u n : Nat) (y : Ctx) : ((s.done n y).site u).mem = (s.site u).mem := s.mem_setCtx _ _

/-! Registers of a context. -/

theorem Ctx.sreg_setS (c : Ctx) (i j : Fin 32) (x : Word) :
    (c.setS i x).sreg j = if j = 0 then 0 else if i = j then x else c.sreg j := by
  unfold Ctx.sreg Ctx.setS
  by_cases hj : j = 0
  · simp [hj]
  · by_cases hi : i = 0
    · have : i ≠ j := fun e => hj (e ▸ hi)
      simp [hj, hi, Ne.symm hj]
    · by_cases he : i = j
      · subst he; simp [hj]
      · have : i.val ≠ j.val := fun e => he (Fin.ext e)
        simp [hj, hi, he, this]

theorem Ctx.vreg_setV (c : Ctx) (i j : Fin 32) (x : VWord) : (c.setV i x).vreg j = if i = j then x else c.vreg j := by
  unfold Ctx.vreg Ctx.setV Ctx.putV
  by_cases he : i = j
  · subst he; simp
  · have : i.val ≠ j.val := fun e => he (Fin.ext e)
    simp [he, this]

/-! Issuing. -/

theorem issue_ready (i : Instr) (s : State) (f : State → State) (h : s.legal i = true) (hc : s.ctx.cond = true) :
    issue i s f = .next (f s) := by simp [issue, h, hc]

theorem issue_illegal (i : Instr) (s : State) (f : State → State) (h : s.legal i = false) :
    issue i s f = .next (s.raise { cause := cILLEGAL }) := by simp [issue, h]

theorem issuePriv_illegal (i : Instr) (s : State) (p : Bool) (w : Word) (f : State → State) (h : s.legal i = false) :
    issuePriv i s p w f = .next (s.raise { cause := cILLEGAL }) := by simp [issuePriv, h]

theorem issueLanes_illegal (i : Instr) (s : State) (f : State → State) (h : s.legal i = false) :
    issueLanes i s f = .next (s.raise { cause := cILLEGAL }) := by simp [issueLanes, h]

/-- A failed condition: the next pc and nothing else. -/
theorem issue_skips (i : Instr) (s : State) (f : State → State) (h : s.legal i = true) (hc : s.ctx.cond = false) :
    issue i s f = .next (s.done i.size s.ctx) := by simp [issue, h, hc]

theorem issuePriv_skips (i : Instr) (s : State) (p : Bool) (w : Word) (f : State → State) (h : s.legal i = true)
    (hc : s.ctx.cond = false) : issuePriv i s p w f = .next (s.done i.size s.ctx) ∨
      issuePriv i s p w f = .next (s.raise { cause := cPRIV, w4 := w }) := by cases p <;> simp [issuePriv, h, hc]

theorem issuePriv_ready (i : Instr) (s : State) (p : Bool) (w : Word) (f : State → State) (h : s.legal i = true)
    (hp : p = false) (hc : s.ctx.cond = true) : issuePriv i s p w f = .next (f s) := by simp [issuePriv, h, hp, hc]

theorem issueLanes_legal (i : Instr) (s : State) (f : State → State) (h : s.legal i = true) :
    issueLanes i s f = .next (f s) := by simp [issueLanes, h]

theorem simple_ready (i : Instr) (s : State) (f : Ctx → Ctx) (h : s.legal i = true) (hc : s.ctx.cond = true) :
    simple i s f = .next (s.done i.size (f s.ctx)) := issue_ready _ _ _ h hc

/-- An instruction of the running context answers a next state. -/
theorem issue_next (i : Instr) (s : State) (f : State → State) : ∃ t, issue i s f = .next t := by
  unfold issue
  split
  · exact ⟨_, rfl⟩
  · split <;> exact ⟨_, rfl⟩

theorem issuePriv_next (i : Instr) (s : State) (p : Bool) (w : Word) (f : State → State) : ∃ t, issuePriv i s p w f = .next t := by
  unfold issuePriv
  split
  · exact ⟨_, rfl⟩
  · split
    · exact ⟨_, rfl⟩
    · split <;> exact ⟨_, rfl⟩

theorem issueLanes_next (i : Instr) (s : State) (f : State → State) : ∃ t, issueLanes i s f = .next t := by
  unfold issueLanes
  split <;> exact ⟨_, rfl⟩

end Sys2Proof.Machine
end

