-- ==== Sys2Proof/Laws/PerInstr.lean ====
section
/-! SUPPORT. Facts about the syntax of every instruction, one lemma per constructor. -/

/-- The form of an instruction's code (R47, R72, R263): two or four bytes, or none and the word 0 for an event; one of the three
encoding versions; four bytes for a word of the halyard extension. -/
def Sys2Proof.Laws.WordClass.Statement (i : Sys2Proof.Instr) : Prop :=
  (i.size = 2 ∨ i.size = 4 ∨ i.size = 0 ∧ Sys2Proof.encode i = 0) ∧ (1 ≤ i.since ∧ i.since ≤ 3) ∧ (i.halyard = true → i.size = 4)

theorem Sys2Proof.Laws.WordClass.add (d : Fin 32) (a : Fin 32) (b : Fin 32) :
    Sys2Proof.Laws.WordClass.Statement (.add d a b) :=
  ⟨.inr (.inl rfl), ⟨Nat.le_of_ble_eq_true rfl, Nat.le_of_ble_eq_true rfl⟩, fun h => nomatch h⟩
theorem Sys2Proof.Laws.WordClass.sub (d : Fin 32) (a : Fin 32) (b : Fin 32) :
    Sys2Proof.Laws.WordClass.Statement (.sub d a b) :=
  ⟨.inr (.inl rfl), ⟨Nat.le_of_ble_eq_true rfl, Nat.le_of_ble_eq_true rfl⟩, fun h => nomatch h⟩
theorem Sys2Proof.Laws.WordClass.mul (d : Fin 32) (a : Fin 32) (b : Fin 32) :
    Sys2Proof.Laws.WordClass.Statement (.mul d a b) :=
  ⟨.inr (.inl rfl), ⟨Nat.le_of_ble_eq_true rfl, Nat.le_of_ble_eq_true rfl⟩, fun h => nomatch h⟩
theorem Sys2Proof.Laws.WordClass.mulh (d : Fin 32) (a : Fin 32) (b : Fin 32) :
    Sys2Proof.Laws.WordClass.Statement (.mulh d a b) :=
  ⟨.inr (.inl rfl), ⟨Nat.le_of_ble_eq_true rfl, Nat.le_of_ble_eq_true rfl⟩, fun h => nomatch h⟩
theorem Sys2Proof.Laws.WordClass.mulhu (d : Fin 32) (a : Fin 32) (b : Fin 32) :
    Sys2Proof.Laws.WordClass.Statement (.mulhu d a b) :=
  ⟨.inr (.inl rfl), ⟨Nat.le_of_ble_eq_true rfl, Nat.le_of_ble_eq_true rfl⟩, fun h => nomatch h⟩
theorem Sys2Proof.Laws.WordClass.div (d : Fin 32) (a : Fin 32) (b : Fin 32) :
    Sys2Proof.Laws.WordClass.Statement (.div d a b) :=
  ⟨.inr (.inl rfl), ⟨Nat.le_of_ble_eq_true rfl, Nat.le_of_ble_eq_true rfl⟩, fun h => nomatch h⟩
theorem Sys2Proof.Laws.WordClass.divu (d : Fin 32) (a : Fin 32) (b : Fin 32) :
    Sys2Proof.Laws.WordClass.Statement (.divu d a b) :=
  ⟨.inr (.inl rfl), ⟨Nat.le_of_ble_eq_true rfl, Nat.le_of_ble_eq_true rfl⟩, fun h => nomatch h⟩
theorem Sys2Proof.Laws.WordClass.rem (d : Fin 32) (a : Fin 32) (b : Fin 32) :
    Sys2Proof.Laws.WordClass.Statement (.rem d a b) :=
  ⟨.inr (.inl rfl), ⟨Nat.le_of_ble_eq_true rfl, Nat.le_of_ble_eq_true rfl⟩, fun h => nomatch h⟩
theorem Sys2Proof.Laws.WordClass.remu (d : Fin 32) (a : Fin 32) (b : Fin 32) :
    Sys2Proof.Laws.WordClass.Statement (.remu d a b) :=
  ⟨.inr (.inl rfl), ⟨Nat.le_of_ble_eq_true rfl, Nat.le_of_ble_eq_true rfl⟩, fun h => nomatch h⟩
theorem Sys2Proof.Laws.WordClass.and (d : Fin 32) (a : Fin 32) (b : Fin 32) :
    Sys2Proof.Laws.WordClass.Statement (.and d a b) :=
  ⟨.inr (.inl rfl), ⟨Nat.le_of_ble_eq_true rfl, Nat.le_of_ble_eq_true rfl⟩, fun h => nomatch h⟩
theorem Sys2Proof.Laws.WordClass.or (d : Fin 32) (a : Fin 32) (b : Fin 32) :
    Sys2Proof.Laws.WordClass.Statement (.or d a b) :=
  ⟨.inr (.inl rfl), ⟨Nat.le_of_ble_eq_true rfl, Nat.le_of_ble_eq_true rfl⟩, fun h => nomatch h⟩
theorem Sys2Proof.Laws.WordClass.xor (d : Fin 32) (a : Fin 32) (b : Fin 32) :
    Sys2Proof.Laws.WordClass.Statement (.xor d a b) :=
  ⟨.inr (.inl rfl), ⟨Nat.le_of_ble_eq_true rfl, Nat.le_of_ble_eq_true rfl⟩, fun h => nomatch h⟩
theorem Sys2Proof.Laws.WordClass.shl (d : Fin 32) (a : Fin 32) (b : Fin 32) :
    Sys2Proof.Laws.WordClass.Statement (.shl d a b) :=
  ⟨.inr (.inl rfl), ⟨Nat.le_of_ble_eq_true rfl, Nat.le_of_ble_eq_true rfl⟩, fun h => nomatch h⟩
theorem Sys2Proof.Laws.WordClass.shr (d : Fin 32) (a : Fin 32) (b : Fin 32) :
    Sys2Proof.Laws.WordClass.Statement (.shr d a b) :=
  ⟨.inr (.inl rfl), ⟨Nat.le_of_ble_eq_true rfl, Nat.le_of_ble_eq_true rfl⟩, fun h => nomatch h⟩
theorem Sys2Proof.Laws.WordClass.sha (d : Fin 32) (a : Fin 32) (b : Fin 32) :
    Sys2Proof.Laws.WordClass.Statement (.sha d a b) :=
  ⟨.inr (.inl rfl), ⟨Nat.le_of_ble_eq_true rfl, Nat.le_of_ble_eq_true rfl⟩, fun h => nomatch h⟩
theorem Sys2Proof.Laws.WordClass.min (d : Fin 32) (a : Fin 32) (b : Fin 32) :
    Sys2Proof.Laws.WordClass.Statement (.min d a b) :=
  ⟨.inr (.inl rfl), ⟨Nat.le_of_ble_eq_true rfl, Nat.le_of_ble_eq_true rfl⟩, fun h => nomatch h⟩
theorem Sys2Proof.Laws.WordClass.max (d : Fin 32) (a : Fin 32) (b : Fin 32) :
    Sys2Proof.Laws.WordClass.Statement (.max d a b) :=
  ⟨.inr (.inl rfl), ⟨Nat.le_of_ble_eq_true rfl, Nat.le_of_ble_eq_true rfl⟩, fun h => nomatch h⟩
theorem Sys2Proof.Laws.WordClass.minu (d : Fin 32) (a : Fin 32) (b : Fin 32) :
    Sys2Proof.Laws.WordClass.Statement (.minu d a b) :=
  ⟨.inr (.inl rfl), ⟨Nat.le_of_ble_eq_true rfl, Nat.le_of_ble_eq_true rfl⟩, fun h => nomatch h⟩
theorem Sys2Proof.Laws.WordClass.maxu (d : Fin 32) (a : Fin 32) (b : Fin 32) :
    Sys2Proof.Laws.WordClass.Statement (.maxu d a b) :=
  ⟨.inr (.inl rfl), ⟨Nat.le_of_ble_eq_true rfl, Nat.le_of_ble_eq_true rfl⟩, fun h => nomatch h⟩
theorem Sys2Proof.Laws.WordClass.slt (d : Fin 32) (a : Fin 32) (b : Fin 32) :
    Sys2Proof.Laws.WordClass.Statement (.slt d a b) :=
  ⟨.inr (.inl rfl), ⟨Nat.le_of_ble_eq_true rfl, Nat.le_of_ble_eq_true rfl⟩, fun h => nomatch h⟩
theorem Sys2Proof.Laws.WordClass.sltu (d : Fin 32) (a : Fin 32) (b : Fin 32) :
    Sys2Proof.Laws.WordClass.Statement (.sltu d a b) :=
  ⟨.inr (.inl rfl), ⟨Nat.le_of_ble_eq_true rfl, Nat.le_of_ble_eq_true rfl⟩, fun h => nomatch h⟩
theorem Sys2Proof.Laws.WordClass.seq (d : Fin 32) (a : Fin 32) (b : Fin 32) :
    Sys2Proof.Laws.WordClass.Statement (.seq d a b) :=
  ⟨.inr (.inl rfl), ⟨Nat.le_of_ble_eq_true rfl, Nat.le_of_ble_eq_true rfl⟩, fun h => nomatch h⟩
theorem Sys2Proof.Laws.WordClass.clz (d : Fin 32) (a : Fin 32) :
    Sys2Proof.Laws.WordClass.Statement (.clz d a) :=
  ⟨.inr (.inl rfl), ⟨Nat.le_of_ble_eq_true rfl, Nat.le_of_ble_eq_true rfl⟩, fun h => nomatch h⟩
theorem Sys2Proof.Laws.WordClass.ctz (d : Fin 32) (a : Fin 32) :
    Sys2Proof.Laws.WordClass.Statement (.ctz d a) :=
  ⟨.inr (.inl rfl), ⟨Nat.le_of_ble_eq_true rfl, Nat.le_of_ble_eq_true rfl⟩, fun h => nomatch h⟩
theorem Sys2Proof.Laws.WordClass.popc (d : Fin 32) (a : Fin 32) :
    Sys2Proof.Laws.WordClass.Statement (.popc d a) :=
  ⟨.inr (.inl rfl), ⟨Nat.le_of_ble_eq_true rfl, Nat.le_of_ble_eq_true rfl⟩, fun h => nomatch h⟩
theorem Sys2Proof.Laws.WordClass.mov (d : Fin 32) (a : Fin 32) :
    Sys2Proof.Laws.WordClass.Statement (.mov d a) :=
  ⟨.inr (.inl rfl), ⟨Nat.le_of_ble_eq_true rfl, Nat.le_of_ble_eq_true rfl⟩, fun h => nomatch h⟩
theorem Sys2Proof.Laws.WordClass.sel (d : Fin 32) (a : Fin 32) (b : Fin 32) (p : Fin 8) :
    Sys2Proof.Laws.WordClass.Statement (.sel d a b p) :=
  ⟨.inr (.inl rfl), ⟨Nat.le_of_ble_eq_true rfl, Nat.le_of_ble_eq_true rfl⟩, fun h => nomatch h⟩
theorem Sys2Proof.Laws.WordClass.tileid (d : Fin 32) :
    Sys2Proof.Laws.WordClass.Statement (.tileid d) :=
  ⟨.inr (.inl rfl), ⟨Nat.le_of_ble_eq_true rfl, Nat.le_of_ble_eq_true rfl⟩, fun h => nomatch h⟩
theorem Sys2Proof.Laws.WordClass.gaddr (d : Fin 32) (a : Fin 32) (b : Fin 32) :
    Sys2Proof.Laws.WordClass.Statement (.gaddr d a b) :=
  ⟨.inr (.inl rfl), ⟨Nat.le_of_ble_eq_true rfl, Nat.le_of_ble_eq_true rfl⟩, fun h => nomatch h⟩
theorem Sys2Proof.Laws.WordClass.widF (d : Fin 32) (a : Fin 32) (f : Fin 8) :
    Sys2Proof.Laws.WordClass.Statement (.widF d a f) :=
  ⟨.inr (.inl rfl), ⟨Nat.le_of_ble_eq_true rfl, Nat.le_of_ble_eq_true rfl⟩, fun h => nomatch h⟩
theorem Sys2Proof.Laws.WordClass.addi (d : Fin 32) (a : Fin 32) (i : BitVec 13) :
    Sys2Proof.Laws.WordClass.Statement (.addi d a i) :=
  ⟨.inr (.inl rfl), ⟨Nat.le_of_ble_eq_true rfl, Nat.le_of_ble_eq_true rfl⟩, fun h => nomatch h⟩
theorem Sys2Proof.Laws.WordClass.andi (d : Fin 32) (a : Fin 32) (i : BitVec 13) :
    Sys2Proof.Laws.WordClass.Statement (.andi d a i) :=
  ⟨.inr (.inl rfl), ⟨Nat.le_of_ble_eq_true rfl, Nat.le_of_ble_eq_true rfl⟩, fun h => nomatch h⟩
theorem Sys2Proof.Laws.WordClass.ori (d : Fin 32) (a : Fin 32) (i : BitVec 13) :
    Sys2Proof.Laws.WordClass.Statement (.ori d a i) :=
  ⟨.inr (.inl rfl), ⟨Nat.le_of_ble_eq_true rfl, Nat.le_of_ble_eq_true rfl⟩, fun h => nomatch h⟩
theorem Sys2Proof.Laws.WordClass.xori (d : Fin 32) (a : Fin 32) (i : BitVec 13) :
    Sys2Proof.Laws.WordClass.Statement (.xori d a i) :=
  ⟨.inr (.inl rfl), ⟨Nat.le_of_ble_eq_true rfl, Nat.le_of_ble_eq_true rfl⟩, fun h => nomatch h⟩
theorem Sys2Proof.Laws.WordClass.slti (d : Fin 32) (a : Fin 32) (i : BitVec 13) :
    Sys2Proof.Laws.WordClass.Statement (.slti d a i) :=
  ⟨.inr (.inl rfl), ⟨Nat.le_of_ble_eq_true rfl, Nat.le_of_ble_eq_true rfl⟩, fun h => nomatch h⟩
theorem Sys2Proof.Laws.WordClass.li (d : Fin 32) (i : BitVec 13) :
    Sys2Proof.Laws.WordClass.Statement (.li d i) :=
  ⟨.inr (.inl rfl), ⟨Nat.le_of_ble_eq_true rfl, Nat.le_of_ble_eq_true rfl⟩, fun h => nomatch h⟩
theorem Sys2Proof.Laws.WordClass.lih (d : Fin 32) (a : Fin 32) (i : BitVec 13) :
    Sys2Proof.Laws.WordClass.Statement (.lih d a i) :=
  ⟨.inr (.inl rfl), ⟨Nat.le_of_ble_eq_true rfl, Nat.le_of_ble_eq_true rfl⟩, fun h => nomatch h⟩
theorem Sys2Proof.Laws.WordClass.shli (d : Fin 32) (a : Fin 32) (s : Fin 64) :
    Sys2Proof.Laws.WordClass.Statement (.shli d a s) :=
  ⟨.inr (.inl rfl), ⟨Nat.le_of_ble_eq_true rfl, Nat.le_of_ble_eq_true rfl⟩, fun h => nomatch h⟩
theorem Sys2Proof.Laws.WordClass.shri (d : Fin 32) (a : Fin 32) (s : Fin 64) :
    Sys2Proof.Laws.WordClass.Statement (.shri d a s) :=
  ⟨.inr (.inl rfl), ⟨Nat.le_of_ble_eq_true rfl, Nat.le_of_ble_eq_true rfl⟩, fun h => nomatch h⟩
theorem Sys2Proof.Laws.WordClass.shai (d : Fin 32) (a : Fin 32) (s : Fin 64) :
    Sys2Proof.Laws.WordClass.Statement (.shai d a s) :=
  ⟨.inr (.inl rfl), ⟨Nat.le_of_ble_eq_true rfl, Nat.le_of_ble_eq_true rfl⟩, fun h => nomatch h⟩
theorem Sys2Proof.Laws.WordClass.bext (d : Fin 32) (a : Fin 32) (p : Fin 64) (l : Fin 64) :
    Sys2Proof.Laws.WordClass.Statement (.bext d a p l) :=
  ⟨.inr (.inl rfl), ⟨Nat.le_of_ble_eq_true rfl, Nat.le_of_ble_eq_true rfl⟩, fun h => nomatch h⟩
theorem Sys2Proof.Laws.WordClass.bins (d : Fin 32) (a : Fin 32) (p : Fin 64) (l : Fin 64) :
    Sys2Proof.Laws.WordClass.Statement (.bins d a p l) :=
  ⟨.inr (.inl rfl), ⟨Nat.le_of_ble_eq_true rfl, Nat.le_of_ble_eq_true rfl⟩, fun h => nomatch h⟩
theorem Sys2Proof.Laws.WordClass.jalr (d : Fin 32) (a : Fin 32) (i : BitVec 13) :
    Sys2Proof.Laws.WordClass.Statement (.jalr d a i) :=
  ⟨.inr (.inl rfl), ⟨Nat.le_of_ble_eq_true rfl, Nat.le_of_ble_eq_true rfl⟩, fun h => nomatch h⟩
theorem Sys2Proof.Laws.WordClass.loop (d : Fin 32) (a : Fin 32) (t : BitVec 8) :
    Sys2Proof.Laws.WordClass.Statement (.loop d a t) :=
  ⟨.inr (.inl rfl), ⟨Nat.le_of_ble_eq_true rfl, Nat.le_of_ble_eq_true rfl⟩, fun h => nomatch h⟩
theorem Sys2Proof.Laws.WordClass.loopi (d : Fin 32) (n : Fin 32) (c : BitVec 13) :
    Sys2Proof.Laws.WordClass.Statement (.loopi d n c) :=
  ⟨.inr (.inl rfl), ⟨Nat.le_of_ble_eq_true rfl, Nat.le_of_ble_eq_true rfl⟩, fun h => nomatch h⟩
theorem Sys2Proof.Laws.WordClass.pset (d : Fin 32) (a : Fin 32) :
    Sys2Proof.Laws.WordClass.Statement (.pset d a) :=
  ⟨.inr (.inl rfl), ⟨Nat.le_of_ble_eq_true rfl, Nat.le_of_ble_eq_true rfl⟩, fun h => nomatch h⟩
theorem Sys2Proof.Laws.WordClass.pand (d : Fin 32) (a : Fin 32) (b : Fin 32) :
    Sys2Proof.Laws.WordClass.Statement (.pand d a b) :=
  ⟨.inr (.inl rfl), ⟨Nat.le_of_ble_eq_true rfl, Nat.le_of_ble_eq_true rfl⟩, fun h => nomatch h⟩
theorem Sys2Proof.Laws.WordClass.por (d : Fin 32) (a : Fin 32) (b : Fin 32) :
    Sys2Proof.Laws.WordClass.Statement (.por d a b) :=
  ⟨.inr (.inl rfl), ⟨Nat.le_of_ble_eq_true rfl, Nat.le_of_ble_eq_true rfl⟩, fun h => nomatch h⟩
theorem Sys2Proof.Laws.WordClass.pxor (d : Fin 32) (a : Fin 32) (b : Fin 32) :
    Sys2Proof.Laws.WordClass.Statement (.pxor d a b) :=
  ⟨.inr (.inl rfl), ⟨Nat.le_of_ble_eq_true rfl, Nat.le_of_ble_eq_true rfl⟩, fun h => nomatch h⟩
theorem Sys2Proof.Laws.WordClass.pnot (d : Fin 32) (a : Fin 32) :
    Sys2Proof.Laws.WordClass.Statement (.pnot d a) :=
  ⟨.inr (.inl rfl), ⟨Nat.le_of_ble_eq_true rfl, Nat.le_of_ble_eq_true rfl⟩, fun h => nomatch h⟩
theorem Sys2Proof.Laws.WordClass.ldPostinc (d : Fin 32) (a : Fin 32) (k : Fin 8) (i : BitVec 8) :
    Sys2Proof.Laws.WordClass.Statement (.ldPostinc d a k i) :=
  ⟨.inr (.inl rfl), ⟨Nat.le_of_ble_eq_true rfl, Nat.le_of_ble_eq_true rfl⟩, fun h => nomatch h⟩
theorem Sys2Proof.Laws.WordClass.ldI8 (d : Fin 32) (a : Fin 32) (i : BitVec 13) :
    Sys2Proof.Laws.WordClass.Statement (.ldI8 d a i) :=
  ⟨.inr (.inl rfl), ⟨Nat.le_of_ble_eq_true rfl, Nat.le_of_ble_eq_true rfl⟩, fun h => nomatch h⟩
theorem Sys2Proof.Laws.WordClass.ldN8 (d : Fin 32) (a : Fin 32) (i : BitVec 13) :
    Sys2Proof.Laws.WordClass.Statement (.ldN8 d a i) :=
  ⟨.inr (.inl rfl), ⟨Nat.le_of_ble_eq_true rfl, Nat.le_of_ble_eq_true rfl⟩, fun h => nomatch h⟩
theorem Sys2Proof.Laws.WordClass.ldI16 (d : Fin 32) (a : Fin 32) (i : BitVec 13) :
    Sys2Proof.Laws.WordClass.Statement (.ldI16 d a i) :=
  ⟨.inr (.inl rfl), ⟨Nat.le_of_ble_eq_true rfl, Nat.le_of_ble_eq_true rfl⟩, fun h => nomatch h⟩
theorem Sys2Proof.Laws.WordClass.ldN16 (d : Fin 32) (a : Fin 32) (i : BitVec 13) :
    Sys2Proof.Laws.WordClass.Statement (.ldN16 d a i) :=
  ⟨.inr (.inl rfl), ⟨Nat.le_of_ble_eq_true rfl, Nat.le_of_ble_eq_true rfl⟩, fun h => nomatch h⟩
theorem Sys2Proof.Laws.WordClass.ldI32 (d : Fin 32) (a : Fin 32) (i : BitVec 13) :
    Sys2Proof.Laws.WordClass.Statement (.ldI32 d a i) :=
  ⟨.inr (.inl rfl), ⟨Nat.le_of_ble_eq_true rfl, Nat.le_of_ble_eq_true rfl⟩, fun h => nomatch h⟩
theorem Sys2Proof.Laws.WordClass.ldN32 (d : Fin 32) (a : Fin 32) (i : BitVec 13) :
    Sys2Proof.Laws.WordClass.Statement (.ldN32 d a i) :=
  ⟨.inr (.inl rfl), ⟨Nat.le_of_ble_eq_true rfl, Nat.le_of_ble_eq_true rfl⟩, fun h => nomatch h⟩
theorem Sys2Proof.Laws.WordClass.ldI64 (d : Fin 32) (a : Fin 32) (i : BitVec 13) :
    Sys2Proof.Laws.WordClass.Statement (.ldI64 d a i) :=
  ⟨.inr (.inl rfl), ⟨Nat.le_of_ble_eq_true rfl, Nat.le_of_ble_eq_true rfl⟩, fun h => nomatch h⟩
theorem Sys2Proof.Laws.WordClass.st8 (d : Fin 32) (a : Fin 32) (i : BitVec 13) :
    Sys2Proof.Laws.WordClass.Statement (.st8 d a i) :=
  ⟨.inr (.inl rfl), ⟨Nat.le_of_ble_eq_true rfl, Nat.le_of_ble_eq_true rfl⟩, fun h => nomatch h⟩
theorem Sys2Proof.Laws.WordClass.st16 (d : Fin 32) (a : Fin 32) (i : BitVec 13) :
    Sys2Proof.Laws.WordClass.Statement (.st16 d a i) :=
  ⟨.inr (.inl rfl), ⟨Nat.le_of_ble_eq_true rfl, Nat.le_of_ble_eq_true rfl⟩, fun h => nomatch h⟩
theorem Sys2Proof.Laws.WordClass.st32 (d : Fin 32) (a : Fin 32) (i : BitVec 13) :
    Sys2Proof.Laws.WordClass.Statement (.st32 d a i) :=
  ⟨.inr (.inl rfl), ⟨Nat.le_of_ble_eq_true rfl, Nat.le_of_ble_eq_true rfl⟩, fun h => nomatch h⟩
theorem Sys2Proof.Laws.WordClass.st64 (d : Fin 32) (a : Fin 32) (i : BitVec 13) :
    Sys2Proof.Laws.WordClass.Statement (.st64 d a i) :=
  ⟨.inr (.inl rfl), ⟨Nat.le_of_ble_eq_true rfl, Nat.le_of_ble_eq_true rfl⟩, fun h => nomatch h⟩
theorem Sys2Proof.Laws.WordClass.lv (d : Fin 32) (a : Fin 32) (i : BitVec 13) :
    Sys2Proof.Laws.WordClass.Statement (.lv d a i) :=
  ⟨.inr (.inl rfl), ⟨Nat.le_of_ble_eq_true rfl, Nat.le_of_ble_eq_true rfl⟩, fun h => nomatch h⟩
theorem Sys2Proof.Laws.WordClass.sv (d : Fin 32) (a : Fin 32) (i : BitVec 13) :
    Sys2Proof.Laws.WordClass.Statement (.sv d a i) :=
  ⟨.inr (.inl rfl), ⟨Nat.le_of_ble_eq_true rfl, Nat.le_of_ble_eq_true rfl⟩, fun h => nomatch h⟩
theorem Sys2Proof.Laws.WordClass.stPostinc (d : Fin 32) (a : Fin 32) (k : Fin 32) (i : BitVec 8) :
    Sys2Proof.Laws.WordClass.Statement (.stPostinc d a k i) :=
  ⟨.inr (.inl rfl), ⟨Nat.le_of_ble_eq_true rfl, Nat.le_of_ble_eq_true rfl⟩, fun h => nomatch h⟩
theorem Sys2Proof.Laws.WordClass.lvs (d : Fin 32) (a : Fin 32) (b : Fin 32) (w : Fin 4) :
    Sys2Proof.Laws.WordClass.Statement (.lvs d a b w) :=
  ⟨.inr (.inl rfl), ⟨Nat.le_of_ble_eq_true rfl, Nat.le_of_ble_eq_true rfl⟩, fun h => nomatch h⟩
theorem Sys2Proof.Laws.WordClass.lvg (d : Fin 32) (a : Fin 32) (b : Fin 32) (w : Fin 4) :
    Sys2Proof.Laws.WordClass.Statement (.lvg d a b w) :=
  ⟨.inr (.inl rfl), ⟨Nat.le_of_ble_eq_true rfl, Nat.le_of_ble_eq_true rfl⟩, fun h => nomatch h⟩
theorem Sys2Proof.Laws.WordClass.svx (d : Fin 32) (a : Fin 32) (b : Fin 32) (w : Fin 4) :
    Sys2Proof.Laws.WordClass.Statement (.svx d a b w) :=
  ⟨.inr (.inl rfl), ⟨Nat.le_of_ble_eq_true rfl, Nat.le_of_ble_eq_true rfl⟩, fun h => nomatch h⟩
theorem Sys2Proof.Laws.WordClass.beq (a : Fin 32) (b : Fin 32) (i : BitVec 13) :
    Sys2Proof.Laws.WordClass.Statement (.beq a b i) :=
  ⟨.inr (.inl rfl), ⟨Nat.le_of_ble_eq_true rfl, Nat.le_of_ble_eq_true rfl⟩, fun h => nomatch h⟩
theorem Sys2Proof.Laws.WordClass.bne (a : Fin 32) (b : Fin 32) (i : BitVec 13) :
    Sys2Proof.Laws.WordClass.Statement (.bne a b i) :=
  ⟨.inr (.inl rfl), ⟨Nat.le_of_ble_eq_true rfl, Nat.le_of_ble_eq_true rfl⟩, fun h => nomatch h⟩
theorem Sys2Proof.Laws.WordClass.blt (a : Fin 32) (b : Fin 32) (i : BitVec 13) :
    Sys2Proof.Laws.WordClass.Statement (.blt a b i) :=
  ⟨.inr (.inl rfl), ⟨Nat.le_of_ble_eq_true rfl, Nat.le_of_ble_eq_true rfl⟩, fun h => nomatch h⟩
theorem Sys2Proof.Laws.WordClass.bge (a : Fin 32) (b : Fin 32) (i : BitVec 13) :
    Sys2Proof.Laws.WordClass.Statement (.bge a b i) :=
  ⟨.inr (.inl rfl), ⟨Nat.le_of_ble_eq_true rfl, Nat.le_of_ble_eq_true rfl⟩, fun h => nomatch h⟩
theorem Sys2Proof.Laws.WordClass.bltu (a : Fin 32) (b : Fin 32) (i : BitVec 13) :
    Sys2Proof.Laws.WordClass.Statement (.bltu a b i) :=
  ⟨.inr (.inl rfl), ⟨Nat.le_of_ble_eq_true rfl, Nat.le_of_ble_eq_true rfl⟩, fun h => nomatch h⟩
theorem Sys2Proof.Laws.WordClass.bgeu (a : Fin 32) (b : Fin 32) (i : BitVec 13) :
    Sys2Proof.Laws.WordClass.Statement (.bgeu a b i) :=
  ⟨.inr (.inl rfl), ⟨Nat.le_of_ble_eq_true rfl, Nat.le_of_ble_eq_true rfl⟩, fun h => nomatch h⟩
theorem Sys2Proof.Laws.WordClass.bp (a : Fin 32) (i : BitVec 13) :
    Sys2Proof.Laws.WordClass.Statement (.bp a i) :=
  ⟨.inr (.inl rfl), ⟨Nat.le_of_ble_eq_true rfl, Nat.le_of_ble_eq_true rfl⟩, fun h => nomatch h⟩
theorem Sys2Proof.Laws.WordClass.bnp (a : Fin 32) (i : BitVec 13) :
    Sys2Proof.Laws.WordClass.Statement (.bnp a i) :=
  ⟨.inr (.inl rfl), ⟨Nat.le_of_ble_eq_true rfl, Nat.le_of_ble_eq_true rfl⟩, fun h => nomatch h⟩
theorem Sys2Proof.Laws.WordClass.j (i : BitVec 23) :
    Sys2Proof.Laws.WordClass.Statement (.j i) :=
  ⟨.inr (.inl rfl), ⟨Nat.le_of_ble_eq_true rfl, Nat.le_of_ble_eq_true rfl⟩, fun h => nomatch h⟩
theorem Sys2Proof.Laws.WordClass.jal (i : BitVec 23) :
    Sys2Proof.Laws.WordClass.Statement (.jal i) :=
  ⟨.inr (.inl rfl), ⟨Nat.le_of_ble_eq_true rfl, Nat.le_of_ble_eq_true rfl⟩, fun h => nomatch h⟩
theorem Sys2Proof.Laws.WordClass.ldf32 (d : Fin 32) (a : Fin 32) (i : BitVec 13) :
    Sys2Proof.Laws.WordClass.Statement (.ldf32 d a i) :=
  ⟨.inr (.inl rfl), ⟨Nat.le_of_ble_eq_true rfl, Nat.le_of_ble_eq_true rfl⟩, fun h => nomatch h⟩
theorem Sys2Proof.Laws.WordClass.ldf64 (d : Fin 32) (a : Fin 32) (i : BitVec 13) :
    Sys2Proof.Laws.WordClass.Statement (.ldf64 d a i) :=
  ⟨.inr (.inl rfl), ⟨Nat.le_of_ble_eq_true rfl, Nat.le_of_ble_eq_true rfl⟩, fun h => nomatch h⟩
theorem Sys2Proof.Laws.WordClass.stf32 (d : Fin 32) (a : Fin 32) (i : BitVec 13) :
    Sys2Proof.Laws.WordClass.Statement (.stf32 d a i) :=
  ⟨.inr (.inl rfl), ⟨Nat.le_of_ble_eq_true rfl, Nat.le_of_ble_eq_true rfl⟩, fun h => nomatch h⟩
theorem Sys2Proof.Laws.WordClass.stf64 (d : Fin 32) (a : Fin 32) (i : BitVec 13) :
    Sys2Proof.Laws.WordClass.Statement (.stf64 d a i) :=
  ⟨.inr (.inl rfl), ⟨Nat.le_of_ble_eq_true rfl, Nat.le_of_ble_eq_true rfl⟩, fun h => nomatch h⟩
theorem Sys2Proof.Laws.WordClass.lvf (d : Fin 32) (a : Fin 32) (i : BitVec 13) :
    Sys2Proof.Laws.WordClass.Statement (.lvf d a i) :=
  ⟨.inr (.inl rfl), ⟨Nat.le_of_ble_eq_true rfl, Nat.le_of_ble_eq_true rfl⟩, fun h => nomatch h⟩
theorem Sys2Proof.Laws.WordClass.svf (d : Fin 32) (a : Fin 32) (i : BitVec 13) :
    Sys2Proof.Laws.WordClass.Statement (.svf d a i) :=
  ⟨.inr (.inl rfl), ⟨Nat.le_of_ble_eq_true rfl, Nat.le_of_ble_eq_true rfl⟩, fun h => nomatch h⟩
theorem Sys2Proof.Laws.WordClass.aadd (d : Fin 32) (a : Fin 32) (b : Fin 32) (w : Fin 2) (s : Fin 4) :
    Sys2Proof.Laws.WordClass.Statement (.aadd d a b w s) :=
  ⟨.inr (.inl rfl), ⟨Nat.le_of_ble_eq_true rfl, Nat.le_of_ble_eq_true rfl⟩, fun h => nomatch h⟩
theorem Sys2Proof.Laws.WordClass.aand (d : Fin 32) (a : Fin 32) (b : Fin 32) (w : Fin 2) (s : Fin 4) :
    Sys2Proof.Laws.WordClass.Statement (.aand d a b w s) :=
  ⟨.inr (.inl rfl), ⟨Nat.le_of_ble_eq_true rfl, Nat.le_of_ble_eq_true rfl⟩, fun h => nomatch h⟩
theorem Sys2Proof.Laws.WordClass.aor (d : Fin 32) (a : Fin 32) (b : Fin 32) (w : Fin 2) (s : Fin 4) :
    Sys2Proof.Laws.WordClass.Statement (.aor d a b w s) :=
  ⟨.inr (.inl rfl), ⟨Nat.le_of_ble_eq_true rfl, Nat.le_of_ble_eq_true rfl⟩, fun h => nomatch h⟩
theorem Sys2Proof.Laws.WordClass.axor (d : Fin 32) (a : Fin 32) (b : Fin 32) (w : Fin 2) (s : Fin 4) :
    Sys2Proof.Laws.WordClass.Statement (.axor d a b w s) :=
  ⟨.inr (.inl rfl), ⟨Nat.le_of_ble_eq_true rfl, Nat.le_of_ble_eq_true rfl⟩, fun h => nomatch h⟩
theorem Sys2Proof.Laws.WordClass.amin (d : Fin 32) (a : Fin 32) (b : Fin 32) (w : Fin 2) (s : Fin 4) :
    Sys2Proof.Laws.WordClass.Statement (.amin d a b w s) :=
  ⟨.inr (.inl rfl), ⟨Nat.le_of_ble_eq_true rfl, Nat.le_of_ble_eq_true rfl⟩, fun h => nomatch h⟩
theorem Sys2Proof.Laws.WordClass.amax (d : Fin 32) (a : Fin 32) (b : Fin 32) (w : Fin 2) (s : Fin 4) :
    Sys2Proof.Laws.WordClass.Statement (.amax d a b w s) :=
  ⟨.inr (.inl rfl), ⟨Nat.le_of_ble_eq_true rfl, Nat.le_of_ble_eq_true rfl⟩, fun h => nomatch h⟩
theorem Sys2Proof.Laws.WordClass.aminu (d : Fin 32) (a : Fin 32) (b : Fin 32) (w : Fin 2) (s : Fin 4) :
    Sys2Proof.Laws.WordClass.Statement (.aminu d a b w s) :=
  ⟨.inr (.inl rfl), ⟨Nat.le_of_ble_eq_true rfl, Nat.le_of_ble_eq_true rfl⟩, fun h => nomatch h⟩
theorem Sys2Proof.Laws.WordClass.amaxu (d : Fin 32) (a : Fin 32) (b : Fin 32) (w : Fin 2) (s : Fin 4) :
    Sys2Proof.Laws.WordClass.Statement (.amaxu d a b w s) :=
  ⟨.inr (.inl rfl), ⟨Nat.le_of_ble_eq_true rfl, Nat.le_of_ble_eq_true rfl⟩, fun h => nomatch h⟩
theorem Sys2Proof.Laws.WordClass.aswap (d : Fin 32) (a : Fin 32) (b : Fin 32) (w : Fin 2) (s : Fin 4) :
    Sys2Proof.Laws.WordClass.Statement (.aswap d a b w s) :=
  ⟨.inr (.inl rfl), ⟨Nat.le_of_ble_eq_true rfl, Nat.le_of_ble_eq_true rfl⟩, fun h => nomatch h⟩
theorem Sys2Proof.Laws.WordClass.acas (d : Fin 32) (a : Fin 32) (b : Fin 32) (w : Fin 2) (s : Fin 4) :
    Sys2Proof.Laws.WordClass.Statement (.acas d a b w s) :=
  ⟨.inr (.inl rfl), ⟨Nat.le_of_ble_eq_true rfl, Nat.le_of_ble_eq_true rfl⟩, fun h => nomatch h⟩
theorem Sys2Proof.Laws.WordClass.xaddf (a : Fin 32) (b : Fin 32) (t : Fin 2) :
    Sys2Proof.Laws.WordClass.Statement (.xaddf a b t) :=
  ⟨.inr (.inl rfl), ⟨Nat.le_of_ble_eq_true rfl, Nat.le_of_ble_eq_true rfl⟩, fun h => nomatch h⟩
theorem Sys2Proof.Laws.WordClass.xrd (d : Fin 32) (a : Fin 32) (t : Fin 2) :
    Sys2Proof.Laws.WordClass.Statement (.xrd d a t) :=
  ⟨.inr (.inl rfl), ⟨Nat.le_of_ble_eq_true rfl, Nat.le_of_ble_eq_true rfl⟩, fun h => nomatch h⟩
theorem Sys2Proof.Laws.WordClass.xclr (a : Fin 32) :
    Sys2Proof.Laws.WordClass.Statement (.xclr a) :=
  ⟨.inr (.inl rfl), ⟨Nat.le_of_ble_eq_true rfl, Nat.le_of_ble_eq_true rfl⟩, fun h => nomatch h⟩
theorem Sys2Proof.Laws.WordClass.cpy (d : Fin 32) (a : Fin 32) (b : Fin 32) (v : Fin 4) :
    Sys2Proof.Laws.WordClass.Statement (.cpy d a b v) :=
  ⟨.inr (.inl rfl), ⟨Nat.le_of_ble_eq_true rfl, Nat.le_of_ble_eq_true rfl⟩, fun h => nomatch h⟩
theorem Sys2Proof.Laws.WordClass.cpypop (d : Fin 32) :
    Sys2Proof.Laws.WordClass.Statement (.cpypop d) :=
  ⟨.inr (.inl rfl), ⟨Nat.le_of_ble_eq_true rfl, Nat.le_of_ble_eq_true rfl⟩, fun h => nomatch h⟩
theorem Sys2Proof.Laws.WordClass.fold (d : Fin 32) (a : Fin 32) (b : Fin 32) :
    Sys2Proof.Laws.WordClass.Statement (.fold d a b) :=
  ⟨.inr (.inl rfl), ⟨Nat.le_of_ble_eq_true rfl, Nat.le_of_ble_eq_true rfl⟩, fun h => nomatch h⟩
theorem Sys2Proof.Laws.WordClass.foldrd (d : Fin 32) (k : Fin 32) :
    Sys2Proof.Laws.WordClass.Statement (.foldrd d k) :=
  ⟨.inr (.inl rfl), ⟨Nat.le_of_ble_eq_true rfl, Nat.le_of_ble_eq_true rfl⟩, fun h => nomatch h⟩
theorem Sys2Proof.Laws.WordClass.vadd (r : Fin 4) (d : Fin 32) (a : Fin 32) (b : Fin 32) (t : Fin 16) :
    Sys2Proof.Laws.WordClass.Statement (.vadd r d a b t) :=
  ⟨.inr (.inl rfl), ⟨Nat.le_of_ble_eq_true rfl, Nat.le_of_ble_eq_true rfl⟩, fun h => nomatch h⟩
theorem Sys2Proof.Laws.WordClass.vsub (r : Fin 4) (d : Fin 32) (a : Fin 32) (b : Fin 32) (t : Fin 16) :
    Sys2Proof.Laws.WordClass.Statement (.vsub r d a b t) :=
  ⟨.inr (.inl rfl), ⟨Nat.le_of_ble_eq_true rfl, Nat.le_of_ble_eq_true rfl⟩, fun h => nomatch h⟩
theorem Sys2Proof.Laws.WordClass.vmul (r : Fin 4) (d : Fin 32) (a : Fin 32) (b : Fin 32) (t : Fin 16) :
    Sys2Proof.Laws.WordClass.Statement (.vmul r d a b t) :=
  ⟨.inr (.inl rfl), ⟨Nat.le_of_ble_eq_true rfl, Nat.le_of_ble_eq_true rfl⟩, fun h => nomatch h⟩
theorem Sys2Proof.Laws.WordClass.vfma (r : Fin 4) (d : Fin 32) (a : Fin 32) (b : Fin 32) (t : Fin 16) :
    Sys2Proof.Laws.WordClass.Statement (.vfma r d a b t) :=
  ⟨.inr (.inl rfl), ⟨Nat.le_of_ble_eq_true rfl, Nat.le_of_ble_eq_true rfl⟩, fun h => nomatch h⟩
theorem Sys2Proof.Laws.WordClass.vmin (r : Fin 4) (d : Fin 32) (a : Fin 32) (b : Fin 32) (t : Fin 16) :
    Sys2Proof.Laws.WordClass.Statement (.vmin r d a b t) :=
  ⟨.inr (.inl rfl), ⟨Nat.le_of_ble_eq_true rfl, Nat.le_of_ble_eq_true rfl⟩, fun h => nomatch h⟩
theorem Sys2Proof.Laws.WordClass.vmax (r : Fin 4) (d : Fin 32) (a : Fin 32) (b : Fin 32) (t : Fin 16) :
    Sys2Proof.Laws.WordClass.Statement (.vmax r d a b t) :=
  ⟨.inr (.inl rfl), ⟨Nat.le_of_ble_eq_true rfl, Nat.le_of_ble_eq_true rfl⟩, fun h => nomatch h⟩
theorem Sys2Proof.Laws.WordClass.vcmpeq (r : Fin 4) (d : Fin 32) (a : Fin 32) (b : Fin 32) (t : Fin 16) :
    Sys2Proof.Laws.WordClass.Statement (.vcmpeq r d a b t) :=
  ⟨.inr (.inl rfl), ⟨Nat.le_of_ble_eq_true rfl, Nat.le_of_ble_eq_true rfl⟩, fun h => nomatch h⟩
theorem Sys2Proof.Laws.WordClass.vcmplt (r : Fin 4) (d : Fin 32) (a : Fin 32) (b : Fin 32) (t : Fin 16) :
    Sys2Proof.Laws.WordClass.Statement (.vcmplt r d a b t) :=
  ⟨.inr (.inl rfl), ⟨Nat.le_of_ble_eq_true rfl, Nat.le_of_ble_eq_true rfl⟩, fun h => nomatch h⟩
theorem Sys2Proof.Laws.WordClass.vcmple (r : Fin 4) (d : Fin 32) (a : Fin 32) (b : Fin 32) (t : Fin 16) :
    Sys2Proof.Laws.WordClass.Statement (.vcmple r d a b t) :=
  ⟨.inr (.inl rfl), ⟨Nat.le_of_ble_eq_true rfl, Nat.le_of_ble_eq_true rfl⟩, fun h => nomatch h⟩
theorem Sys2Proof.Laws.WordClass.vredAdd (r : Fin 4) (d : Fin 32) (a : Fin 32) (t : Fin 16) :
    Sys2Proof.Laws.WordClass.Statement (.vredAdd r d a t) :=
  ⟨.inr (.inl rfl), ⟨Nat.le_of_ble_eq_true rfl, Nat.le_of_ble_eq_true rfl⟩, fun h => nomatch h⟩
theorem Sys2Proof.Laws.WordClass.vredMax (r : Fin 4) (d : Fin 32) (a : Fin 32) (t : Fin 16) :
    Sys2Proof.Laws.WordClass.Statement (.vredMax r d a t) :=
  ⟨.inr (.inl rfl), ⟨Nat.le_of_ble_eq_true rfl, Nat.le_of_ble_eq_true rfl⟩, fun h => nomatch h⟩
theorem Sys2Proof.Laws.WordClass.vredMin (r : Fin 4) (d : Fin 32) (a : Fin 32) (t : Fin 16) :
    Sys2Proof.Laws.WordClass.Statement (.vredMin r d a t) :=
  ⟨.inr (.inl rfl), ⟨Nat.le_of_ble_eq_true rfl, Nat.le_of_ble_eq_true rfl⟩, fun h => nomatch h⟩
theorem Sys2Proof.Laws.WordClass.vcvt (r : Fin 4) (d : Fin 32) (a : Fin 32) (s : Fin 16) (t : Fin 16) :
    Sys2Proof.Laws.WordClass.Statement (.vcvt r d a s t) :=
  ⟨.inr (.inl rfl), ⟨Nat.le_of_ble_eq_true rfl, Nat.le_of_ble_eq_true rfl⟩, fun h => nomatch h⟩
theorem Sys2Proof.Laws.WordClass.vdot (r : Fin 4) (d : Fin 32) (a : Fin 32) (b : Fin 32) (t : Fin 16) :
    Sys2Proof.Laws.WordClass.Statement (.vdot r d a b t) :=
  ⟨.inr (.inl rfl), ⟨Nat.le_of_ble_eq_true rfl, Nat.le_of_ble_eq_true rfl⟩, fun h => nomatch h⟩
theorem Sys2Proof.Laws.WordClass.vscale (r : Fin 4) (d : Fin 32) (a : Fin 32) (b : Fin 32) (t : Fin 16) :
    Sys2Proof.Laws.WordClass.Statement (.vscale r d a b t) :=
  ⟨.inr (.inl rfl), ⟨Nat.le_of_ble_eq_true rfl, Nat.le_of_ble_eq_true rfl⟩, fun h => nomatch h⟩
theorem Sys2Proof.Laws.WordClass.vpack (r : Fin 4) (d : Fin 32) (a : Fin 32) (b : Fin 32) (t : Fin 16) :
    Sys2Proof.Laws.WordClass.Statement (.vpack r d a b t) :=
  ⟨.inr (.inl rfl), ⟨Nat.le_of_ble_eq_true rfl, Nat.le_of_ble_eq_true rfl⟩, fun h => nomatch h⟩
theorem Sys2Proof.Laws.WordClass.vabs (d : Fin 32) (a : Fin 32) (t : Fin 16) :
    Sys2Proof.Laws.WordClass.Statement (.vabs d a t) :=
  ⟨.inr (.inl rfl), ⟨Nat.le_of_ble_eq_true rfl, Nat.le_of_ble_eq_true rfl⟩, fun h => nomatch h⟩
theorem Sys2Proof.Laws.WordClass.vneg (d : Fin 32) (a : Fin 32) (t : Fin 16) :
    Sys2Proof.Laws.WordClass.Statement (.vneg d a t) :=
  ⟨.inr (.inl rfl), ⟨Nat.le_of_ble_eq_true rfl, Nat.le_of_ble_eq_true rfl⟩, fun h => nomatch h⟩
theorem Sys2Proof.Laws.WordClass.vand (d : Fin 32) (a : Fin 32) (b : Fin 32) :
    Sys2Proof.Laws.WordClass.Statement (.vand d a b) :=
  ⟨.inr (.inl rfl), ⟨Nat.le_of_ble_eq_true rfl, Nat.le_of_ble_eq_true rfl⟩, fun h => nomatch h⟩
theorem Sys2Proof.Laws.WordClass.vor (d : Fin 32) (a : Fin 32) (b : Fin 32) :
    Sys2Proof.Laws.WordClass.Statement (.vor d a b) :=
  ⟨.inr (.inl rfl), ⟨Nat.le_of_ble_eq_true rfl, Nat.le_of_ble_eq_true rfl⟩, fun h => nomatch h⟩
theorem Sys2Proof.Laws.WordClass.vxor (d : Fin 32) (a : Fin 32) (b : Fin 32) :
    Sys2Proof.Laws.WordClass.Statement (.vxor d a b) :=
  ⟨.inr (.inl rfl), ⟨Nat.le_of_ble_eq_true rfl, Nat.le_of_ble_eq_true rfl⟩, fun h => nomatch h⟩
theorem Sys2Proof.Laws.WordClass.vshl (d : Fin 32) (a : Fin 32) (b : Fin 32) (t : Fin 16) :
    Sys2Proof.Laws.WordClass.Statement (.vshl d a b t) :=
  ⟨.inr (.inl rfl), ⟨Nat.le_of_ble_eq_true rfl, Nat.le_of_ble_eq_true rfl⟩, fun h => nomatch h⟩
theorem Sys2Proof.Laws.WordClass.vshr (d : Fin 32) (a : Fin 32) (b : Fin 32) (t : Fin 16) :
    Sys2Proof.Laws.WordClass.Statement (.vshr d a b t) :=
  ⟨.inr (.inl rfl), ⟨Nat.le_of_ble_eq_true rfl, Nat.le_of_ble_eq_true rfl⟩, fun h => nomatch h⟩
theorem Sys2Proof.Laws.WordClass.vsha (d : Fin 32) (a : Fin 32) (b : Fin 32) (t : Fin 16) :
    Sys2Proof.Laws.WordClass.Statement (.vsha d a b t) :=
  ⟨.inr (.inl rfl), ⟨Nat.le_of_ble_eq_true rfl, Nat.le_of_ble_eq_true rfl⟩, fun h => nomatch h⟩
theorem Sys2Proof.Laws.WordClass.vsel (d : Fin 32) (a : Fin 32) (b : Fin 32) (p : Fin 8) :
    Sys2Proof.Laws.WordClass.Statement (.vsel d a b p) :=
  ⟨.inr (.inl rfl), ⟨Nat.le_of_ble_eq_true rfl, Nat.le_of_ble_eq_true rfl⟩, fun h => nomatch h⟩
theorem Sys2Proof.Laws.WordClass.vbcast (d : Fin 32) (a : Fin 32) (t : Fin 16) :
    Sys2Proof.Laws.WordClass.Statement (.vbcast d a t) :=
  ⟨.inr (.inl rfl), ⟨Nat.le_of_ble_eq_true rfl, Nat.le_of_ble_eq_true rfl⟩, fun h => nomatch h⟩
theorem Sys2Proof.Laws.WordClass.vext (d : Fin 32) (a : Fin 32) (n : Fin 32) (t : Fin 16) :
    Sys2Proof.Laws.WordClass.Statement (.vext d a n t) :=
  ⟨.inr (.inl rfl), ⟨Nat.le_of_ble_eq_true rfl, Nat.le_of_ble_eq_true rfl⟩, fun h => nomatch h⟩
theorem Sys2Proof.Laws.WordClass.vperm (d : Fin 32) (a : Fin 32) (b : Fin 32) (t : Fin 16) :
    Sys2Proof.Laws.WordClass.Statement (.vperm d a b t) :=
  ⟨.inr (.inl rfl), ⟨Nat.le_of_ble_eq_true rfl, Nat.le_of_ble_eq_true rfl⟩, fun h => nomatch h⟩
theorem Sys2Proof.Laws.WordClass.vshuf (d : Fin 32) (a : Fin 32) (b : Fin 32) (t : Fin 16) :
    Sys2Proof.Laws.WordClass.Statement (.vshuf d a b t) :=
  ⟨.inr (.inl rfl), ⟨Nat.le_of_ble_eq_true rfl, Nat.le_of_ble_eq_true rfl⟩, fun h => nomatch h⟩
theorem Sys2Proof.Laws.WordClass.vrcp (d : Fin 32) (a : Fin 32) (t : Fin 16) :
    Sys2Proof.Laws.WordClass.Statement (.vrcp d a t) :=
  ⟨.inr (.inl rfl), ⟨Nat.le_of_ble_eq_true rfl, Nat.le_of_ble_eq_true rfl⟩, fun h => nomatch h⟩
theorem Sys2Proof.Laws.WordClass.vrsq (d : Fin 32) (a : Fin 32) (t : Fin 16) :
    Sys2Proof.Laws.WordClass.Statement (.vrsq d a t) :=
  ⟨.inr (.inl rfl), ⟨Nat.le_of_ble_eq_true rfl, Nat.le_of_ble_eq_true rfl⟩, fun h => nomatch h⟩
theorem Sys2Proof.Laws.WordClass.vexp2 (d : Fin 32) (a : Fin 32) (t : Fin 16) :
    Sys2Proof.Laws.WordClass.Statement (.vexp2 d a t) :=
  ⟨.inr (.inl rfl), ⟨Nat.le_of_ble_eq_true rfl, Nat.le_of_ble_eq_true rfl⟩, fun h => nomatch h⟩
theorem Sys2Proof.Laws.WordClass.vmaxexp (d : Fin 32) (a : Fin 32) (t : Fin 16) :
    Sys2Proof.Laws.WordClass.Statement (.vmaxexp d a t) :=
  ⟨.inr (.inl rfl), ⟨Nat.le_of_ble_eq_true rfl, Nat.le_of_ble_eq_true rfl⟩, fun h => nomatch h⟩
theorem Sys2Proof.Laws.WordClass.vunpk (d : Fin 32) (a : Fin 32) (h : Fin 32) (t : Fin 16) :
    Sys2Proof.Laws.WordClass.Statement (.vunpk d a h t) :=
  ⟨.inr (.inl rfl), ⟨Nat.le_of_ble_eq_true rfl, Nat.le_of_ble_eq_true rfl⟩, fun h => nomatch h⟩
theorem Sys2Proof.Laws.WordClass.mxopen (p : Fin 4) :
    Sys2Proof.Laws.WordClass.Statement (.mxopen p) :=
  ⟨.inr (.inl rfl), ⟨Nat.le_of_ble_eq_true rfl, Nat.le_of_ble_eq_true rfl⟩, fun h => nomatch h⟩
theorem Sys2Proof.Laws.WordClass.mxcfg (d : Fin 32) (p : Fin 4) :
    Sys2Proof.Laws.WordClass.Statement (.mxcfg d p) :=
  ⟨.inr (.inl rfl), ⟨Nat.le_of_ble_eq_true rfl, Nat.le_of_ble_eq_true rfl⟩, fun h => nomatch h⟩
theorem Sys2Proof.Laws.WordClass.mxpush (a : Fin 32) (p : Fin 4) :
    Sys2Proof.Laws.WordClass.Statement (.mxpush a p) :=
  ⟨.inr (.inl rfl), ⟨Nat.le_of_ble_eq_true rfl, Nat.le_of_ble_eq_true rfl⟩, fun h => nomatch h⟩
theorem Sys2Proof.Laws.WordClass.mxpushm (a : Fin 32) (n : Fin 32) (p : Fin 4) :
    Sys2Proof.Laws.WordClass.Statement (.mxpushm a n p) :=
  ⟨.inr (.inl rfl), ⟨Nat.le_of_ble_eq_true rfl, Nat.le_of_ble_eq_true rfl⟩, fun h => nomatch h⟩
theorem Sys2Proof.Laws.WordClass.mxscl (a : Fin 32) (p : Fin 4) :
    Sys2Proof.Laws.WordClass.Statement (.mxscl a p) :=
  ⟨.inr (.inl rfl), ⟨Nat.le_of_ble_eq_true rfl, Nat.le_of_ble_eq_true rfl⟩, fun h => nomatch h⟩
theorem Sys2Proof.Laws.WordClass.mxclose (p : Fin 4) :
    Sys2Proof.Laws.WordClass.Statement (.mxclose p) :=
  ⟨.inr (.inl rfl), ⟨Nat.le_of_ble_eq_true rfl, Nat.le_of_ble_eq_true rfl⟩, fun h => nomatch h⟩
theorem Sys2Proof.Laws.WordClass.mxstat (d : Fin 32) (p : Fin 4) :
    Sys2Proof.Laws.WordClass.Statement (.mxstat d p) :=
  ⟨.inr (.inl rfl), ⟨Nat.le_of_ble_eq_true rfl, Nat.le_of_ble_eq_true rfl⟩, fun h => nomatch h⟩
theorem Sys2Proof.Laws.WordClass.msetm (a : Fin 32) :
    Sys2Proof.Laws.WordClass.Statement (.msetm a) :=
  ⟨.inr (.inl rfl), ⟨Nat.le_of_ble_eq_true rfl, Nat.le_of_ble_eq_true rfl⟩, fun h => nomatch h⟩
theorem Sys2Proof.Laws.WordClass.skld (d : Fin 32) (a : Fin 32) :
    Sys2Proof.Laws.WordClass.Statement (.skld d a) :=
  ⟨.inr (.inl rfl), ⟨Nat.le_of_ble_eq_true rfl, Nat.le_of_ble_eq_true rfl⟩, fun h => nomatch h⟩
theorem Sys2Proof.Laws.WordClass.accz (d : Fin 32) :
    Sys2Proof.Laws.WordClass.Statement (.accz d) :=
  ⟨.inr (.inl rfl), ⟨Nat.le_of_ble_eq_true rfl, Nat.le_of_ble_eq_true rfl⟩, fun h => nomatch h⟩
theorem Sys2Proof.Laws.WordClass.accrd (v : Fin 32) (k : Fin 32) (r : Fin 32) :
    Sys2Proof.Laws.WordClass.Statement (.accrd v k r) :=
  ⟨.inr (.inl rfl), ⟨Nat.le_of_ble_eq_true rfl, Nat.le_of_ble_eq_true rfl⟩, fun h => nomatch h⟩
theorem Sys2Proof.Laws.WordClass.accwr (k : Fin 32) (v : Fin 32) (r : Fin 32) :
    Sys2Proof.Laws.WordClass.Statement (.accwr k v r) :=
  ⟨.inr (.inl rfl), ⟨Nat.le_of_ble_eq_true rfl, Nat.le_of_ble_eq_true rfl⟩, fun h => nomatch h⟩
theorem Sys2Proof.Laws.WordClass.acccvt (v : Fin 32) (k : Fin 32) (r : Fin 32) (t : Fin 16) :
    Sys2Proof.Laws.WordClass.Statement (.acccvt v k r t) :=
  ⟨.inr (.inl rfl), ⟨Nat.le_of_ble_eq_true rfl, Nat.le_of_ble_eq_true rfl⟩, fun h => nomatch h⟩
theorem Sys2Proof.Laws.WordClass.semset (d : Fin 32) (a : Fin 32) :
    Sys2Proof.Laws.WordClass.Statement (.semset d a) :=
  ⟨.inr (.inl rfl), ⟨Nat.le_of_ble_eq_true rfl, Nat.le_of_ble_eq_true rfl⟩, fun h => nomatch h⟩
theorem Sys2Proof.Laws.WordClass.semadd (d : Fin 32) (n : Fin 32) :
    Sys2Proof.Laws.WordClass.Statement (.semadd d n) :=
  ⟨.inr (.inl rfl), ⟨Nat.le_of_ble_eq_true rfl, Nat.le_of_ble_eq_true rfl⟩, fun h => nomatch h⟩
theorem Sys2Proof.Laws.WordClass.semwait (d : Fin 32) (n : Fin 32) :
    Sys2Proof.Laws.WordClass.Statement (.semwait d n) :=
  ⟨.inr (.inl rfl), ⟨Nat.le_of_ble_eq_true rfl, Nat.le_of_ble_eq_true rfl⟩, fun h => nomatch h⟩
theorem Sys2Proof.Laws.WordClass.phreg (d : Fin 32) (a : Fin 32) (m : Fin 32) :
    Sys2Proof.Laws.WordClass.Statement (.phreg d a m) :=
  ⟨.inr (.inl rfl), ⟨Nat.le_of_ble_eq_true rfl, Nat.le_of_ble_eq_true rfl⟩, fun h => nomatch h⟩
theorem Sys2Proof.Laws.WordClass.phdrop (a : Fin 32) :
    Sys2Proof.Laws.WordClass.Statement (.phdrop a) :=
  ⟨.inr (.inl rfl), ⟨Nat.le_of_ble_eq_true rfl, Nat.le_of_ble_eq_true rfl⟩, fun h => nomatch h⟩
theorem Sys2Proof.Laws.WordClass.phsig (d : Fin 32) (a : Fin 32) :
    Sys2Proof.Laws.WordClass.Statement (.phsig d a) :=
  ⟨.inr (.inl rfl), ⟨Nat.le_of_ble_eq_true rfl, Nat.le_of_ble_eq_true rfl⟩, fun h => nomatch h⟩
theorem Sys2Proof.Laws.WordClass.phwait (d : Fin 32) (a : Fin 32) (b : Fin 32) :
    Sys2Proof.Laws.WordClass.Statement (.phwait d a b) :=
  ⟨.inr (.inl rfl), ⟨Nat.le_of_ble_eq_true rfl, Nat.le_of_ble_eq_true rfl⟩, fun h => nomatch h⟩
theorem Sys2Proof.Laws.WordClass.phnext (d : Fin 32) (a : Fin 32) :
    Sys2Proof.Laws.WordClass.Statement (.phnext d a) :=
  ⟨.inr (.inl rfl), ⟨Nat.le_of_ble_eq_true rfl, Nat.le_of_ble_eq_true rfl⟩, fun h => nomatch h⟩
theorem Sys2Proof.Laws.WordClass.phaserRequest (m : Nat) :
    Sys2Proof.Laws.WordClass.Statement (.phaserRequest m) :=
  ⟨.inr (.inr ⟨rfl, rfl⟩), ⟨Nat.le_of_ble_eq_true rfl, Nat.le_of_ble_eq_true rfl⟩, fun h => nomatch h⟩
theorem Sys2Proof.Laws.WordClass.bar (d : Fin 32) :
    Sys2Proof.Laws.WordClass.Statement (.bar d) :=
  ⟨.inr (.inl rfl), ⟨Nat.le_of_ble_eq_true rfl, Nat.le_of_ble_eq_true rfl⟩, fun h => nomatch h⟩
theorem Sys2Proof.Laws.WordClass.bara (d : Fin 32) (a : Fin 32) :
    Sys2Proof.Laws.WordClass.Statement (.bara d a) :=
  ⟨.inr (.inl rfl), ⟨Nat.le_of_ble_eq_true rfl, Nat.le_of_ble_eq_true rfl⟩, fun h => nomatch h⟩
theorem Sys2Proof.Laws.WordClass.barw (d : Fin 32) (a : Fin 32) (b : Fin 32) :
    Sys2Proof.Laws.WordClass.Statement (.barw d a b) :=
  ⟨.inr (.inl rfl), ⟨Nat.le_of_ble_eq_true rfl, Nat.le_of_ble_eq_true rfl⟩, fun h => nomatch h⟩
theorem Sys2Proof.Laws.WordClass.ratlineRelease (l n m : Nat) :
    Sys2Proof.Laws.WordClass.Statement (.ratlineRelease l n m) :=
  ⟨.inr (.inr ⟨rfl, rfl⟩), ⟨Nat.le_of_ble_eq_true rfl, Nat.le_of_ble_eq_true rfl⟩, fun h => nomatch h⟩
theorem Sys2Proof.Laws.WordClass.vst (d : Fin 32) (a : Fin 32) (b : Fin 32) :
    Sys2Proof.Laws.WordClass.Statement (.vst d a b) :=
  ⟨.inr (.inl rfl), ⟨Nat.le_of_ble_eq_true rfl, Nat.le_of_ble_eq_true rfl⟩, fun h => nomatch h⟩
theorem Sys2Proof.Laws.WordClass.vld (d : Fin 32) (a : Fin 32) (b : Fin 32) :
    Sys2Proof.Laws.WordClass.Statement (.vld d a b) :=
  ⟨.inr (.inl rfl), ⟨Nat.le_of_ble_eq_true rfl, Nat.le_of_ble_eq_true rfl⟩, fun h => nomatch h⟩
theorem Sys2Proof.Laws.WordClass.vrecl (a : Fin 32) (b : Fin 32) :
    Sys2Proof.Laws.WordClass.Statement (.vrecl a b) :=
  ⟨.inr (.inl rfl), ⟨Nat.le_of_ble_eq_true rfl, Nat.le_of_ble_eq_true rfl⟩, fun h => nomatch h⟩
theorem Sys2Proof.Laws.WordClass.vldResend (t c : Nat) :
    Sys2Proof.Laws.WordClass.Statement (.vldResend t c) :=
  ⟨.inr (.inr ⟨rfl, rfl⟩), ⟨Nat.le_of_ble_eq_true rfl, Nat.le_of_ble_eq_true rfl⟩, fun h => nomatch h⟩
theorem Sys2Proof.Laws.WordClass.fence (d : Fin 32) :
    Sys2Proof.Laws.WordClass.Statement (.fence d) :=
  ⟨.inr (.inl rfl), ⟨Nat.le_of_ble_eq_true rfl, Nat.le_of_ble_eq_true rfl⟩, fun h => nomatch h⟩
theorem Sys2Proof.Laws.WordClass.sysr (d : Fin 32) (m : Fin 32) (n : Fin 32) :
    Sys2Proof.Laws.WordClass.Statement (.sysr d m n) :=
  ⟨.inr (.inl rfl), ⟨Nat.le_of_ble_eq_true rfl, Nat.le_of_ble_eq_true rfl⟩, fun h => nomatch h⟩
theorem Sys2Proof.Laws.WordClass.sysw (d : Fin 32) (m : Fin 32) (n : Fin 32) :
    Sys2Proof.Laws.WordClass.Statement (.sysw d m n) :=
  ⟨.inr (.inl rfl), ⟨Nat.le_of_ble_eq_true rfl, Nat.le_of_ble_eq_true rfl⟩, fun h => nomatch h⟩
theorem Sys2Proof.Laws.WordClass.trap (a : Fin 32) (b : Fin 32) :
    Sys2Proof.Laws.WordClass.Statement (.trap a b) :=
  ⟨.inr (.inl rfl), ⟨Nat.le_of_ble_eq_true rfl, Nat.le_of_ble_eq_true rfl⟩, fun h => nomatch h⟩
theorem Sys2Proof.Laws.WordClass.brk :
    Sys2Proof.Laws.WordClass.Statement (.brk) :=
  ⟨.inr (.inl rfl), ⟨Nat.le_of_ble_eq_true rfl, Nat.le_of_ble_eq_true rfl⟩, fun h => nomatch h⟩
theorem Sys2Proof.Laws.WordClass.wfi :
    Sys2Proof.Laws.WordClass.Statement (.wfi) :=
  ⟨.inr (.inl rfl), ⟨Nat.le_of_ble_eq_true rfl, Nat.le_of_ble_eq_true rfl⟩, fun h => nomatch h⟩
theorem Sys2Proof.Laws.WordClass.wfiWake (t c : Nat) :
    Sys2Proof.Laws.WordClass.Statement (.wfiWake t c) :=
  ⟨.inr (.inr ⟨rfl, rfl⟩), ⟨Nat.le_of_ble_eq_true rfl, Nat.le_of_ble_eq_true rfl⟩, fun h => nomatch h⟩
theorem Sys2Proof.Laws.WordClass.retireWord :
    Sys2Proof.Laws.WordClass.Statement (.retireWord) :=
  ⟨.inr (.inl rfl), ⟨Nat.le_of_ble_eq_true rfl, Nat.le_of_ble_eq_true rfl⟩, fun h => nomatch h⟩
theorem Sys2Proof.Laws.WordClass.retireS (a : Fin 32) :
    Sys2Proof.Laws.WordClass.Statement (.retireS a) :=
  ⟨.inr (.inl rfl), ⟨Nat.le_of_ble_eq_true rfl, Nat.le_of_ble_eq_true rfl⟩, fun h => nomatch h⟩
theorem Sys2Proof.Laws.WordClass.karg (d : Fin 32) (n : Fin 32) :
    Sys2Proof.Laws.WordClass.Statement (.karg d n) :=
  ⟨.inr (.inl rfl), ⟨Nat.le_of_ble_eq_true rfl, Nat.le_of_ble_eq_true rfl⟩, fun h => nomatch h⟩
theorem Sys2Proof.Laws.WordClass.pfenceT :
    Sys2Proof.Laws.WordClass.Statement (.pfenceT) :=
  ⟨.inr (.inl rfl), ⟨Nat.le_of_ble_eq_true rfl, Nat.le_of_ble_eq_true rfl⟩, fun h => nomatch h⟩
theorem Sys2Proof.Laws.WordClass.pfenceG :
    Sys2Proof.Laws.WordClass.Statement (.pfenceG) :=
  ⟨.inr (.inl rfl), ⟨Nat.le_of_ble_eq_true rfl, Nat.le_of_ble_eq_true rfl⟩, fun h => nomatch h⟩
theorem Sys2Proof.Laws.WordClass.pstat (d : Fin 32) :
    Sys2Proof.Laws.WordClass.Statement (.pstat d) :=
  ⟨.inr (.inl rfl), ⟨Nat.le_of_ble_eq_true rfl, Nat.le_of_ble_eq_true rfl⟩, fun h => nomatch h⟩
theorem Sys2Proof.Laws.WordClass.pgate (a : Fin 32) (m : Fin 32) :
    Sys2Proof.Laws.WordClass.Statement (.pgate a m) :=
  ⟨.inr (.inl rfl), ⟨Nat.le_of_ble_eq_true rfl, Nat.le_of_ble_eq_true rfl⟩, fun h => nomatch h⟩
theorem Sys2Proof.Laws.WordClass.tsend (d : Fin 32) (a : Fin 32) (b : Fin 32) :
    Sys2Proof.Laws.WordClass.Statement (.tsend d a b) :=
  ⟨.inr (.inl rfl), ⟨Nat.le_of_ble_eq_true rfl, Nat.le_of_ble_eq_true rfl⟩, fun h => nomatch h⟩
theorem Sys2Proof.Laws.WordClass.cntrd (d : Fin 32) (a : Fin 32) :
    Sys2Proof.Laws.WordClass.Statement (.cntrd d a) :=
  ⟨.inr (.inl rfl), ⟨Nat.le_of_ble_eq_true rfl, Nat.le_of_ble_eq_true rfl⟩, fun h => nomatch h⟩
theorem Sys2Proof.Laws.WordClass.cntset (a : Fin 32) (b : Fin 32) :
    Sys2Proof.Laws.WordClass.Statement (.cntset a b) :=
  ⟨.inr (.inl rfl), ⟨Nat.le_of_ble_eq_true rfl, Nat.le_of_ble_eq_true rfl⟩, fun h => nomatch h⟩
theorem Sys2Proof.Laws.WordClass.send (d : Fin 32) (a : Fin 32) (b : Fin 32) (n : Fin 32) :
    Sys2Proof.Laws.WordClass.Statement (.send d a b n) :=
  ⟨.inr (.inl rfl), ⟨Nat.le_of_ble_eq_true rfl, Nat.le_of_ble_eq_true rfl⟩, fun h => nomatch h⟩
theorem Sys2Proof.Laws.WordClass.sendm (d : Fin 32) (a : Fin 32) (b : Fin 32) (n : Fin 32) :
    Sys2Proof.Laws.WordClass.Statement (.sendm d a b n) :=
  ⟨.inr (.inl rfl), ⟨Nat.le_of_ble_eq_true rfl, Nat.le_of_ble_eq_true rfl⟩, fun h => nomatch h⟩
theorem Sys2Proof.Laws.WordClass.msgid (d : Fin 32) :
    Sys2Proof.Laws.WordClass.Statement (.msgid d) :=
  ⟨.inr (.inl rfl), ⟨Nat.le_of_ble_eq_true rfl, Nat.le_of_ble_eq_true rfl⟩, fun h => nomatch h⟩
theorem Sys2Proof.Laws.WordClass.qpush (d : Fin 32) (p : Fin 32) (q : Fin 32) :
    Sys2Proof.Laws.WordClass.Statement (.qpush d p q) :=
  ⟨.inr (.inl rfl), ⟨Nat.le_of_ble_eq_true rfl, Nat.le_of_ble_eq_true rfl⟩, fun h => nomatch h⟩
theorem Sys2Proof.Laws.WordClass.qpop (d : Fin 32) (p : Fin 32) (q : Fin 32) :
    Sys2Proof.Laws.WordClass.Statement (.qpop d p q) :=
  ⟨.inr (.inl rfl), ⟨Nat.le_of_ble_eq_true rfl, Nat.le_of_ble_eq_true rfl⟩, fun h => nomatch h⟩
theorem Sys2Proof.Laws.WordClass.qpeek (d : Fin 32) (p : Fin 32) (q : Fin 32) :
    Sys2Proof.Laws.WordClass.Statement (.qpeek d p q) :=
  ⟨.inr (.inl rfl), ⟨Nat.le_of_ble_eq_true rfl, Nat.le_of_ble_eq_true rfl⟩, fun h => nomatch h⟩
theorem Sys2Proof.Laws.WordClass.qcnt (d : Fin 32) (q : Fin 32) :
    Sys2Proof.Laws.WordClass.Statement (.qcnt d q) :=
  ⟨.inr (.inl rfl), ⟨Nat.le_of_ble_eq_true rfl, Nat.le_of_ble_eq_true rfl⟩, fun h => nomatch h⟩
theorem Sys2Proof.Laws.WordClass.qpushw (d : Fin 32) (q : Fin 32) :
    Sys2Proof.Laws.WordClass.Statement (.qpushw d q) :=
  ⟨.inr (.inl rfl), ⟨Nat.le_of_ble_eq_true rfl, Nat.le_of_ble_eq_true rfl⟩, fun h => nomatch h⟩
theorem Sys2Proof.Laws.WordClass.qpopw (d : Fin 32) (q : Fin 32) :
    Sys2Proof.Laws.WordClass.Statement (.qpopw d q) :=
  ⟨.inr (.inl rfl), ⟨Nat.le_of_ble_eq_true rfl, Nat.le_of_ble_eq_true rfl⟩, fun h => nomatch h⟩
theorem Sys2Proof.Laws.WordClass.qwaitExpiry (t c : Nat) :
    Sys2Proof.Laws.WordClass.Statement (.qwaitExpiry t c) :=
  ⟨.inr (.inr ⟨rfl, rfl⟩), ⟨Nat.le_of_ble_eq_true rfl, Nat.le_of_ble_eq_true rfl⟩, fun h => nomatch h⟩
theorem Sys2Proof.Laws.WordClass.rpush (d : Fin 32) (p : Fin 32) (b : Fin 32) :
    Sys2Proof.Laws.WordClass.Statement (.rpush d p b) :=
  ⟨.inr (.inl rfl), ⟨Nat.le_of_ble_eq_true rfl, Nat.le_of_ble_eq_true rfl⟩, fun h => nomatch h⟩
theorem Sys2Proof.Laws.WordClass.rpop (d : Fin 32) (p : Fin 32) (b : Fin 32) :
    Sys2Proof.Laws.WordClass.Statement (.rpop d p b) :=
  ⟨.inr (.inl rfl), ⟨Nat.le_of_ble_eq_true rfl, Nat.le_of_ble_eq_true rfl⟩, fun h => nomatch h⟩
theorem Sys2Proof.Laws.WordClass.chblk (d : Fin 32) (a : Fin 32) :
    Sys2Proof.Laws.WordClass.Statement (.chblk d a) :=
  ⟨.inr (.inl rfl), ⟨Nat.le_of_ble_eq_true rfl, Nat.le_of_ble_eq_true rfl⟩, fun h => nomatch h⟩
theorem Sys2Proof.Laws.WordClass.chunb (d : Fin 32) (a : Fin 32) :
    Sys2Proof.Laws.WordClass.Statement (.chunb d a) :=
  ⟨.inr (.inl rfl), ⟨Nat.le_of_ble_eq_true rfl, Nat.le_of_ble_eq_true rfl⟩, fun h => nomatch h⟩
theorem Sys2Proof.Laws.WordClass.chmask (a : Fin 32) (k : Fin 32) :
    Sys2Proof.Laws.WordClass.Statement (.chmask a k) :=
  ⟨.inr (.inl rfl), ⟨Nat.le_of_ble_eq_true rfl, Nat.le_of_ble_eq_true rfl⟩, fun h => nomatch h⟩
theorem Sys2Proof.Laws.WordClass.channelControlArrival (t : Nat) :
    Sys2Proof.Laws.WordClass.Statement (.channelControlArrival t) :=
  ⟨.inr (.inr ⟨rfl, rfl⟩), ⟨Nat.le_of_ble_eq_true rfl, Nat.le_of_ble_eq_true rfl⟩, fun h => nomatch h⟩
theorem Sys2Proof.Laws.WordClass.seal (a : Fin 32) (b : Fin 32) :
    Sys2Proof.Laws.WordClass.Statement (.seal a b) :=
  ⟨.inr (.inl rfl), ⟨Nat.le_of_ble_eq_true rfl, Nat.le_of_ble_eq_true rfl⟩, fun h => nomatch h⟩
theorem Sys2Proof.Laws.WordClass.unseal (a : Fin 32) (b : Fin 32) :
    Sys2Proof.Laws.WordClass.Statement (.unseal a b) :=
  ⟨.inr (.inl rfl), ⟨Nat.le_of_ble_eq_true rfl, Nat.le_of_ble_eq_true rfl⟩, fun h => nomatch h⟩
theorem Sys2Proof.Laws.WordClass.sealRequestArrival (k : Nat) :
    Sys2Proof.Laws.WordClass.Statement (.sealRequestArrival k) :=
  ⟨.inr (.inr ⟨rfl, rfl⟩), ⟨Nat.le_of_ble_eq_true rfl, Nat.le_of_ble_eq_true rfl⟩, fun h => nomatch h⟩
theorem Sys2Proof.Laws.WordClass.lgd (d : Fin 32) (a : Fin 32) :
    Sys2Proof.Laws.WordClass.Statement (.lgd d a) :=
  ⟨.inr (.inl rfl), ⟨Nat.le_of_ble_eq_true rfl, Nat.le_of_ble_eq_true rfl⟩, fun _ => rfl⟩
theorem Sys2Proof.Laws.WordClass.sgd (a : Fin 32) (b : Fin 32) :
    Sys2Proof.Laws.WordClass.Statement (.sgd a b) :=
  ⟨.inr (.inl rfl), ⟨Nat.le_of_ble_eq_true rfl, Nat.le_of_ble_eq_true rfl⟩, fun _ => rfl⟩
theorem Sys2Proof.Laws.WordClass.lgv (d : Fin 32) (a : Fin 32) :
    Sys2Proof.Laws.WordClass.Statement (.lgv d a) :=
  ⟨.inr (.inl rfl), ⟨Nat.le_of_ble_eq_true rfl, Nat.le_of_ble_eq_true rfl⟩, fun _ => rfl⟩
theorem Sys2Proof.Laws.WordClass.sgv (d : Fin 32) (a : Fin 32) :
    Sys2Proof.Laws.WordClass.Statement (.sgv d a) :=
  ⟨.inr (.inl rfl), ⟨Nat.le_of_ble_eq_true rfl, Nat.le_of_ble_eq_true rfl⟩, fun _ => rfl⟩
theorem Sys2Proof.Laws.WordClass.pusht (d : Fin 32) (a : Fin 32) (n : Fin 32) :
    Sys2Proof.Laws.WordClass.Statement (.pusht d a n) :=
  ⟨.inr (.inl rfl), ⟨Nat.le_of_ble_eq_true rfl, Nat.le_of_ble_eq_true rfl⟩, fun _ => rfl⟩
theorem Sys2Proof.Laws.WordClass.pushBeatArrival (t : Nat) :
    Sys2Proof.Laws.WordClass.Statement (.pushBeatArrival t) :=
  ⟨.inr (.inr ⟨rfl, rfl⟩), ⟨Nat.le_of_ble_eq_true rfl, Nat.le_of_ble_eq_true rfl⟩, fun h => nomatch h⟩
theorem Sys2Proof.Laws.WordClass.tlbiH (a : Fin 32) (b : Fin 32) :
    Sys2Proof.Laws.WordClass.Statement (.tlbiH a b) :=
  ⟨.inr (.inl rfl), ⟨Nat.le_of_ble_eq_true rfl, Nat.le_of_ble_eq_true rfl⟩, fun h => nomatch h⟩
theorem Sys2Proof.Laws.WordClass.illW :
    Sys2Proof.Laws.WordClass.Statement (.illW) :=
  ⟨.inr (.inl rfl), ⟨Nat.le_of_ble_eq_true rfl, Nat.le_of_ble_eq_true rfl⟩, fun h => nomatch h⟩
theorem Sys2Proof.Laws.WordClass.ill :
    Sys2Proof.Laws.WordClass.Statement (.ill) :=
  ⟨.inl rfl, ⟨Nat.le_of_ble_eq_true rfl, Nat.le_of_ble_eq_true rfl⟩, fun h => nomatch h⟩
theorem Sys2Proof.Laws.WordClass.nop :
    Sys2Proof.Laws.WordClass.Statement (.nop) :=
  ⟨.inl rfl, ⟨Nat.le_of_ble_eq_true rfl, Nat.le_of_ble_eq_true rfl⟩, fun h => nomatch h⟩
theorem Sys2Proof.Laws.WordClass.yield :
    Sys2Proof.Laws.WordClass.Statement (.yield) :=
  ⟨.inl rfl, ⟨Nat.le_of_ble_eq_true rfl, Nat.le_of_ble_eq_true rfl⟩, fun h => nomatch h⟩
theorem Sys2Proof.Laws.WordClass.retire :
    Sys2Proof.Laws.WordClass.Statement (.retire) :=
  ⟨.inl rfl, ⟨Nat.le_of_ble_eq_true rfl, Nat.le_of_ble_eq_true rfl⟩, fun h => nomatch h⟩
theorem Sys2Proof.Laws.WordClass.cAlu (d : Fin 32) (a : Fin 32) (o : Fin 8) :
    Sys2Proof.Laws.WordClass.Statement (.cAlu d a o) :=
  ⟨.inl rfl, ⟨Nat.le_of_ble_eq_true rfl, Nat.le_of_ble_eq_true rfl⟩, fun h => nomatch h⟩
theorem Sys2Proof.Laws.WordClass.cAddi (d : Fin 32) (i : BitVec 8) :
    Sys2Proof.Laws.WordClass.Statement (.cAddi d i) :=
  ⟨.inl rfl, ⟨Nat.le_of_ble_eq_true rfl, Nat.le_of_ble_eq_true rfl⟩, fun h => nomatch h⟩
theorem Sys2Proof.Laws.WordClass.cLi (d : Fin 32) (i : BitVec 8) :
    Sys2Proof.Laws.WordClass.Statement (.cLi d i) :=
  ⟨.inl rfl, ⟨Nat.le_of_ble_eq_true rfl, Nat.le_of_ble_eq_true rfl⟩, fun h => nomatch h⟩
theorem Sys2Proof.Laws.WordClass.cLd (d : Fin 8) (a : Fin 8) (o : Fin 4) (f : BitVec 5) :
    Sys2Proof.Laws.WordClass.Statement (.cLd d a o f) :=
  ⟨.inl rfl, ⟨Nat.le_of_ble_eq_true rfl, Nat.le_of_ble_eq_true rfl⟩, fun h => nomatch h⟩
theorem Sys2Proof.Laws.WordClass.cB (i : BitVec 13) :
    Sys2Proof.Laws.WordClass.Statement (.cB i) :=
  ⟨.inl rfl, ⟨Nat.le_of_ble_eq_true rfl, Nat.le_of_ble_eq_true rfl⟩, fun h => nomatch h⟩
theorem Sys2Proof.Laws.WordClass.pfx (p : Fin 8) (s : Fin 2) :
    Sys2Proof.Laws.WordClass.Statement (.pfx p s) :=
  ⟨.inl rfl, ⟨Nat.le_of_ble_eq_true rfl, Nat.le_of_ble_eq_true rfl⟩, fun h => nomatch h⟩
theorem Sys2Proof.Laws.WordClass.messageArrival (t : Nat) :
    Sys2Proof.Laws.WordClass.Statement (.messageArrival t) :=
  ⟨.inr (.inr ⟨rfl, rfl⟩), ⟨Nat.le_of_ble_eq_true rfl, Nat.le_of_ble_eq_true rfl⟩, fun h => nomatch h⟩
theorem Sys2Proof.Laws.WordClass.activationStart (t : Nat) :
    Sys2Proof.Laws.WordClass.Statement (.activationStart t) :=
  ⟨.inr (.inr ⟨rfl, rfl⟩), ⟨Nat.le_of_ble_eq_true rfl, Nat.le_of_ble_eq_true rfl⟩, fun h => nomatch h⟩
theorem Sys2Proof.Laws.WordClass.priorityAgeing (t : Nat) :
    Sys2Proof.Laws.WordClass.Statement (.priorityAgeing t) :=
  ⟨.inr (.inr ⟨rfl, rfl⟩), ⟨Nat.le_of_ble_eq_true rfl, Nat.le_of_ble_eq_true rfl⟩, fun h => nomatch h⟩
theorem Sys2Proof.Laws.WordClass.outboxInject (t : Nat) :
    Sys2Proof.Laws.WordClass.Statement (.outboxInject t) :=
  ⟨.inr (.inr ⟨rfl, rfl⟩), ⟨Nat.le_of_ble_eq_true rfl, Nat.le_of_ble_eq_true rfl⟩, fun h => nomatch h⟩
theorem Sys2Proof.Laws.WordClass.watchdogExpiry (t c : Nat) :
    Sys2Proof.Laws.WordClass.Statement (.watchdogExpiry t c) :=
  ⟨.inr (.inr ⟨rfl, rfl⟩), ⟨Nat.le_of_ble_eq_true rfl, Nat.le_of_ble_eq_true rfl⟩, fun h => nomatch h⟩
theorem Sys2Proof.Laws.WordClass.trapSequenceComplete (t c : Nat) :
    Sys2Proof.Laws.WordClass.Statement (.trapSequenceComplete t c) :=
  ⟨.inr (.inr ⟨rfl, rfl⟩), ⟨Nat.le_of_ble_eq_true rfl, Nat.le_of_ble_eq_true rfl⟩, fun h => nomatch h⟩
theorem Sys2Proof.Laws.WordClass.remoteRecordArrival (t : Nat) :
    Sys2Proof.Laws.WordClass.Statement (.remoteRecordArrival t) :=
  ⟨.inr (.inr ⟨rfl, rfl⟩), ⟨Nat.le_of_ble_eq_true rfl, Nat.le_of_ble_eq_true rfl⟩, fun h => nomatch h⟩
theorem Sys2Proof.Laws.WordClass.farRequestService (t : Nat) :
    Sys2Proof.Laws.WordClass.Statement (.farRequestService t) :=
  ⟨.inr (.inr ⟨rfl, rfl⟩), ⟨Nat.le_of_ble_eq_true rfl, Nat.le_of_ble_eq_true rfl⟩, fun h => nomatch h⟩
theorem Sys2Proof.Laws.WordClass.caOperation (t : Nat) :
    Sys2Proof.Laws.WordClass.Statement (.caOperation t) :=
  ⟨.inr (.inr ⟨rfl, rfl⟩), ⟨Nat.le_of_ble_eq_true rfl, Nat.le_of_ble_eq_true rfl⟩, fun h => nomatch h⟩
theorem Sys2Proof.Laws.WordClass.farResponseArrival (t : Nat) :
    Sys2Proof.Laws.WordClass.Statement (.farResponseArrival t) :=
  ⟨.inr (.inr ⟨rfl, rfl⟩), ⟨Nat.le_of_ble_eq_true rfl, Nat.le_of_ble_eq_true rfl⟩, fun h => nomatch h⟩
theorem Sys2Proof.Laws.WordClass.completionRound :
    Sys2Proof.Laws.WordClass.Statement (.completionRound) :=
  ⟨.inr (.inr ⟨rfl, rfl⟩), ⟨Nat.le_of_ble_eq_true rfl, Nat.le_of_ble_eq_true rfl⟩, fun h => nomatch h⟩
theorem Sys2Proof.Laws.WordClass.liveMigration (t u : Nat) :
    Sys2Proof.Laws.WordClass.Statement (.liveMigration t u) :=
  ⟨.inr (.inr ⟨rfl, rfl⟩), ⟨Nat.le_of_ble_eq_true rfl, Nat.le_of_ble_eq_true rfl⟩, fun h => nomatch h⟩
theorem Sys2Proof.Laws.WordClass.quiescePoint (t c : Nat) :
    Sys2Proof.Laws.WordClass.Statement (.quiescePoint t c) :=
  ⟨.inr (.inr ⟨rfl, rfl⟩), ⟨Nat.le_of_ble_eq_true rfl, Nat.le_of_ble_eq_true rfl⟩, fun h => nomatch h⟩
theorem Sys2Proof.Laws.WordClass.vfifoLanding (t : Nat) :
    Sys2Proof.Laws.WordClass.Statement (.vfifoLanding t) :=
  ⟨.inr (.inr ⟨rfl, rfl⟩), ⟨Nat.le_of_ble_eq_true rfl, Nat.le_of_ble_eq_true rfl⟩, fun h => nomatch h⟩
theorem Sys2Proof.Laws.WordClass.vfifoCreditReturn (t : Nat) :
    Sys2Proof.Laws.WordClass.Statement (.vfifoCreditReturn t) :=
  ⟨.inr (.inr ⟨rfl, rfl⟩), ⟨Nat.le_of_ble_eq_true rfl, Nat.le_of_ble_eq_true rfl⟩, fun h => nomatch h⟩
theorem Sys2Proof.Laws.WordClass.kStepConsume (e : Nat) :
    Sys2Proof.Laws.WordClass.Statement (.kStepConsume e) :=
  ⟨.inr (.inr ⟨rfl, rfl⟩), ⟨Nat.le_of_ble_eq_true rfl, Nat.le_of_ble_eq_true rfl⟩, fun h => nomatch h⟩
theorem Sys2Proof.Laws.WordClass.deliverySend (e : Nat) :
    Sys2Proof.Laws.WordClass.Statement (.deliverySend e) :=
  ⟨.inr (.inr ⟨rfl, rfl⟩), ⟨Nat.le_of_ble_eq_true rfl, Nat.le_of_ble_eq_true rfl⟩, fun h => nomatch h⟩
theorem Sys2Proof.Laws.WordClass.deliveryApply (t : Nat) :
    Sys2Proof.Laws.WordClass.Statement (.deliveryApply t) :=
  ⟨.inr (.inr ⟨rfl, rfl⟩), ⟨Nat.le_of_ble_eq_true rfl, Nat.le_of_ble_eq_true rfl⟩, fun h => nomatch h⟩
theorem Sys2Proof.Laws.WordClass.deliveryAck (e : Nat) :
    Sys2Proof.Laws.WordClass.Statement (.deliveryAck e) :=
  ⟨.inr (.inr ⟨rfl, rfl⟩), ⟨Nat.le_of_ble_eq_true rfl, Nat.le_of_ble_eq_true rfl⟩, fun h => nomatch h⟩
theorem Sys2Proof.Laws.WordClass.copyCommandStart (t : Nat) :
    Sys2Proof.Laws.WordClass.Statement (.copyCommandStart t) :=
  ⟨.inr (.inr ⟨rfl, rfl⟩), ⟨Nat.le_of_ble_eq_true rfl, Nat.le_of_ble_eq_true rfl⟩, fun h => nomatch h⟩
theorem Sys2Proof.Laws.WordClass.copyCompletion (t : Nat) :
    Sys2Proof.Laws.WordClass.Statement (.copyCompletion t) :=
  ⟨.inr (.inr ⟨rfl, rfl⟩), ⟨Nat.le_of_ble_eq_true rfl, Nat.le_of_ble_eq_true rfl⟩, fun h => nomatch h⟩
theorem Sys2Proof.Laws.WordClass.foldPerform (t : Nat) :
    Sys2Proof.Laws.WordClass.Statement (.foldPerform t) :=
  ⟨.inr (.inr ⟨rfl, rfl⟩), ⟨Nat.le_of_ble_eq_true rfl, Nat.le_of_ble_eq_true rfl⟩, fun h => nomatch h⟩
theorem Sys2Proof.Laws.WordClass.launchDoorbell (n q tail : Nat) (ds : List (List (BitVec 8))) :
    Sys2Proof.Laws.WordClass.Statement (.launchDoorbell n q tail ds) :=
  ⟨.inr (.inr ⟨rfl, rfl⟩), ⟨Nat.le_of_ble_eq_true rfl, Nat.le_of_ble_eq_true rfl⟩, fun h => nomatch h⟩
theorem Sys2Proof.Laws.WordClass.kernelRegister (n : Nat) (file : KernelFile) :
    Sys2Proof.Laws.WordClass.Statement (.kernelRegister n file) :=
  ⟨.inr (.inr ⟨rfl, rfl⟩), ⟨Nat.le_of_ble_eq_true rfl, Nat.le_of_ble_eq_true rfl⟩, fun h => nomatch h⟩
theorem Sys2Proof.Laws.WordClass.launchPlace (n q : Nat) :
    Sys2Proof.Laws.WordClass.Statement (.launchPlace n q) :=
  ⟨.inr (.inr ⟨rfl, rfl⟩), ⟨Nat.le_of_ble_eq_true rfl, Nat.le_of_ble_eq_true rfl⟩, fun h => nomatch h⟩
theorem Sys2Proof.Laws.WordClass.launchLoadComplete (l : Nat) :
    Sys2Proof.Laws.WordClass.Statement (.launchLoadComplete l) :=
  ⟨.inr (.inr ⟨rfl, rfl⟩), ⟨Nat.le_of_ble_eq_true rfl, Nat.le_of_ble_eq_true rfl⟩, fun h => nomatch h⟩
theorem Sys2Proof.Laws.WordClass.launchAbort (l : Nat) :
    Sys2Proof.Laws.WordClass.Statement (.launchAbort l) :=
  ⟨.inr (.inr ⟨rfl, rfl⟩), ⟨Nat.le_of_ble_eq_true rfl, Nat.le_of_ble_eq_true rfl⟩, fun h => nomatch h⟩
theorem Sys2Proof.Laws.WordClass.stationRequest (k : Nat) :
    Sys2Proof.Laws.WordClass.Statement (.stationRequest k) :=
  ⟨.inr (.inr ⟨rfl, rfl⟩), ⟨Nat.le_of_ble_eq_true rfl, Nat.le_of_ble_eq_true rfl⟩, fun h => nomatch h⟩
theorem Sys2Proof.Laws.WordClass.tableWalkComplete (k : Nat) :
    Sys2Proof.Laws.WordClass.Statement (.tableWalkComplete k) :=
  ⟨.inr (.inr ⟨rfl, rfl⟩), ⟨Nat.le_of_ble_eq_true rfl, Nat.le_of_ble_eq_true rfl⟩, fun h => nomatch h⟩
theorem Sys2Proof.Laws.WordClass.hbmAccessComplete (k : Nat) :
    Sys2Proof.Laws.WordClass.Statement (.hbmAccessComplete k) :=
  ⟨.inr (.inr ⟨rfl, rfl⟩), ⟨Nat.le_of_ble_eq_true rfl, Nat.le_of_ble_eq_true rfl⟩, fun h => nomatch h⟩
theorem Sys2Proof.Laws.WordClass.routerArbitration (t : Nat) :
    Sys2Proof.Laws.WordClass.Statement (.routerArbitration t) :=
  ⟨.inr (.inr ⟨rfl, rfl⟩), ⟨Nat.le_of_ble_eq_true rfl, Nat.le_of_ble_eq_true rfl⟩, fun h => nomatch h⟩
theorem Sys2Proof.Laws.WordClass.haltHoldDelivery (t : Nat) :
    Sys2Proof.Laws.WordClass.Statement (.haltHoldDelivery t) :=
  ⟨.inr (.inr ⟨rfl, rfl⟩), ⟨Nat.le_of_ble_eq_true rfl, Nat.le_of_ble_eq_true rfl⟩, fun h => nomatch h⟩
theorem Sys2Proof.Laws.WordClass.spanFrameReceive (p : Nat) (f : SpanFrame) :
    Sys2Proof.Laws.WordClass.Statement (.spanFrameReceive p f) :=
  ⟨.inr (.inr ⟨rfl, rfl⟩), ⟨Nat.le_of_ble_eq_true rfl, Nat.le_of_ble_eq_true rfl⟩, fun h => nomatch h⟩
theorem Sys2Proof.Laws.WordClass.spanLaneFail (p lane : Nat) :
    Sys2Proof.Laws.WordClass.Statement (.spanLaneFail p lane) :=
  ⟨.inr (.inr ⟨rfl, rfl⟩), ⟨Nat.le_of_ble_eq_true rfl, Nat.le_of_ble_eq_true rfl⟩, fun h => nomatch h⟩
theorem Sys2Proof.Laws.WordClass.spanEnable (p : Nat) :
    Sys2Proof.Laws.WordClass.Statement (.spanEnable p) :=
  ⟨.inr (.inr ⟨rfl, rfl⟩), ⟨Nat.le_of_ble_eq_true rfl, Nat.le_of_ble_eq_true rfl⟩, fun h => nomatch h⟩
theorem Sys2Proof.Laws.WordClass.spanTrainingDone (p : Nat) (lanes : BitVec 8) :
    Sys2Proof.Laws.WordClass.Statement (.spanTrainingDone p lanes) :=
  ⟨.inr (.inr ⟨rfl, rfl⟩), ⟨Nat.le_of_ble_eq_true rfl, Nat.le_of_ble_eq_true rfl⟩, fun h => nomatch h⟩
theorem Sys2Proof.Laws.WordClass.spanTrainingTimeout (p : Nat) :
    Sys2Proof.Laws.WordClass.Statement (.spanTrainingTimeout p) :=
  ⟨.inr (.inr ⟨rfl, rfl⟩), ⟨Nat.le_of_ble_eq_true rfl, Nat.le_of_ble_eq_true rfl⟩, fun h => nomatch h⟩
theorem Sys2Proof.Laws.WordClass.spanPeerHalt (p : Nat) :
    Sys2Proof.Laws.WordClass.Statement (.spanPeerHalt p) :=
  ⟨.inr (.inr ⟨rfl, rfl⟩), ⟨Nat.le_of_ble_eq_true rfl, Nat.le_of_ble_eq_true rfl⟩, fun h => nomatch h⟩
theorem Sys2Proof.Laws.WordClass.spanPeerResume (p : Nat) :
    Sys2Proof.Laws.WordClass.Statement (.spanPeerResume p) :=
  ⟨.inr (.inr ⟨rfl, rfl⟩), ⟨Nat.le_of_ble_eq_true rfl, Nat.le_of_ble_eq_true rfl⟩, fun h => nomatch h⟩
theorem Sys2Proof.Laws.WordClass.spanPeerLost (p : Nat) :
    Sys2Proof.Laws.WordClass.Statement (.spanPeerLost p) :=
  ⟨.inr (.inr ⟨rfl, rfl⟩), ⟨Nat.le_of_ble_eq_true rfl, Nat.le_of_ble_eq_true rfl⟩, fun h => nomatch h⟩
theorem Sys2Proof.Laws.WordClass.spanDisable (p : Nat) :
    Sys2Proof.Laws.WordClass.Statement (.spanDisable p) :=
  ⟨.inr (.inr ⟨rfl, rfl⟩), ⟨Nat.le_of_ble_eq_true rfl, Nat.le_of_ble_eq_true rfl⟩, fun h => nomatch h⟩
theorem Sys2Proof.Laws.WordClass.transferResend (x : Nat) :
    Sys2Proof.Laws.WordClass.Statement (.transferResend x) :=
  ⟨.inr (.inr ⟨rfl, rfl⟩), ⟨Nat.le_of_ble_eq_true rfl, Nat.le_of_ble_eq_true rfl⟩, fun h => nomatch h⟩
theorem Sys2Proof.Laws.WordClass.transferAck (x : Nat) :
    Sys2Proof.Laws.WordClass.Statement (.transferAck x) :=
  ⟨.inr (.inr ⟨rfl, rfl⟩), ⟨Nat.le_of_ble_eq_true rfl, Nat.le_of_ble_eq_true rfl⟩, fun h => nomatch h⟩
theorem Sys2Proof.Laws.WordClass.releaseNotice (dev x : Nat) :
    Sys2Proof.Laws.WordClass.Statement (.releaseNotice dev x) :=
  ⟨.inr (.inr ⟨rfl, rfl⟩), ⟨Nat.le_of_ble_eq_true rfl, Nat.le_of_ble_eq_true rfl⟩, fun h => nomatch h⟩
theorem Sys2Proof.Laws.WordClass.landingCount (i : Nat) :
    Sys2Proof.Laws.WordClass.Statement (.landingCount i) :=
  ⟨.inr (.inr ⟨rfl, rfl⟩), ⟨Nat.le_of_ble_eq_true rfl, Nat.le_of_ble_eq_true rfl⟩, fun h => nomatch h⟩
theorem Sys2Proof.Laws.WordClass.counterEngineCycle :
    Sys2Proof.Laws.WordClass.Statement (.counterEngineCycle) :=
  ⟨.inr (.inr ⟨rfl, rfl⟩), ⟨Nat.le_of_ble_eq_true rfl, Nat.le_of_ble_eq_true rfl⟩, fun h => nomatch h⟩
theorem Sys2Proof.Laws.WordClass.bridgeDegrade (b : Nat) :
    Sys2Proof.Laws.WordClass.Statement (.bridgeDegrade b) :=
  ⟨.inr (.inr ⟨rfl, rfl⟩), ⟨Nat.le_of_ble_eq_true rfl, Nat.le_of_ble_eq_true rfl⟩, fun h => nomatch h⟩
theorem Sys2Proof.Laws.WordClass.bridgeDown (b : Nat) :
    Sys2Proof.Laws.WordClass.Statement (.bridgeDown b) :=
  ⟨.inr (.inr ⟨rfl, rfl⟩), ⟨Nat.le_of_ble_eq_true rfl, Nat.le_of_ble_eq_true rfl⟩, fun h => nomatch h⟩
theorem Sys2Proof.Laws.WordClass.trickle (t : Nat) :
    Sys2Proof.Laws.WordClass.Statement (.trickle t) :=
  ⟨.inr (.inr ⟨rfl, rfl⟩), ⟨Nat.le_of_ble_eq_true rfl, Nat.le_of_ble_eq_true rfl⟩, fun h => nomatch h⟩
theorem Sys2Proof.Laws.WordClass.commit (t : Nat) :
    Sys2Proof.Laws.WordClass.Statement (.commit t) :=
  ⟨.inr (.inr ⟨rfl, rfl⟩), ⟨Nat.le_of_ble_eq_true rfl, Nat.le_of_ble_eq_true rfl⟩, fun h => nomatch h⟩
theorem Sys2Proof.Laws.WordClass.commitComplete (t : Nat) :
    Sys2Proof.Laws.WordClass.Statement (.commitComplete t) :=
  ⟨.inr (.inr ⟨rfl, rfl⟩), ⟨Nat.le_of_ble_eq_true rfl, Nat.le_of_ble_eq_true rfl⟩, fun h => nomatch h⟩
theorem Sys2Proof.Laws.WordClass.autoCommitInterval (t : Nat) :
    Sys2Proof.Laws.WordClass.Statement (.autoCommitInterval t) :=
  ⟨.inr (.inr ⟨rfl, rfl⟩), ⟨Nat.le_of_ble_eq_true rfl, Nat.le_of_ble_eq_true rfl⟩, fun h => nomatch h⟩
theorem Sys2Proof.Laws.WordClass.persistRequest (t : Nat) :
    Sys2Proof.Laws.WordClass.Statement (.persistRequest t) :=
  ⟨.inr (.inr ⟨rfl, rfl⟩), ⟨Nat.le_of_ble_eq_true rfl, Nat.le_of_ble_eq_true rfl⟩, fun h => nomatch h⟩
theorem Sys2Proof.Laws.WordClass.powerLoss (t : Nat) :
    Sys2Proof.Laws.WordClass.Statement (.powerLoss t) :=
  ⟨.inr (.inr ⟨rfl, rfl⟩), ⟨Nat.le_of_ble_eq_true rfl, Nat.le_of_ble_eq_true rfl⟩, fun h => nomatch h⟩
theorem Sys2Proof.Laws.WordClass.resume (t : Nat) :
    Sys2Proof.Laws.WordClass.Statement (.resume t) :=
  ⟨.inr (.inr ⟨rfl, rfl⟩), ⟨Nat.le_of_ble_eq_true rfl, Nat.le_of_ble_eq_true rfl⟩, fun h => nomatch h⟩
theorem Sys2Proof.Laws.WordClass.gateRequestAccept (t : Nat) :
    Sys2Proof.Laws.WordClass.Statement (.gateRequestAccept t) :=
  ⟨.inr (.inr ⟨rfl, rfl⟩), ⟨Nat.le_of_ble_eq_true rfl, Nat.le_of_ble_eq_true rfl⟩, fun h => nomatch h⟩
theorem Sys2Proof.Laws.WordClass.gateOff (t : Nat) :
    Sys2Proof.Laws.WordClass.Statement (.gateOff t) :=
  ⟨.inr (.inr ⟨rfl, rfl⟩), ⟨Nat.le_of_ble_eq_true rfl, Nat.le_of_ble_eq_true rfl⟩, fun h => nomatch h⟩
theorem Sys2Proof.Laws.WordClass.gateOn (t : Nat) :
    Sys2Proof.Laws.WordClass.Statement (.gateOn t) :=
  ⟨.inr (.inr ⟨rfl, rfl⟩), ⟨Nat.le_of_ble_eq_true rfl, Nat.le_of_ble_eq_true rfl⟩, fun h => nomatch h⟩
theorem Sys2Proof.Laws.WordClass.gateQuiesced (t : Nat) :
    Sys2Proof.Laws.WordClass.Statement (.gateQuiesced t) :=
  ⟨.inr (.inr ⟨rfl, rfl⟩), ⟨Nat.le_of_ble_eq_true rfl, Nat.le_of_ble_eq_true rfl⟩, fun h => nomatch h⟩
theorem Sys2Proof.Laws.WordClass.sleepWake (t : Nat) :
    Sys2Proof.Laws.WordClass.Statement (.sleepWake t) :=
  ⟨.inr (.inr ⟨rfl, rfl⟩), ⟨Nat.le_of_ble_eq_true rfl, Nat.le_of_ble_eq_true rfl⟩, fun h => nomatch h⟩
theorem Sys2Proof.Laws.WordClass.tileHalt (t : Nat) :
    Sys2Proof.Laws.WordClass.Statement (.tileHalt t) :=
  ⟨.inr (.inr ⟨rfl, rfl⟩), ⟨Nat.le_of_ble_eq_true rfl, Nat.le_of_ble_eq_true rfl⟩, fun h => nomatch h⟩
theorem Sys2Proof.Laws.WordClass.eccRollback (t : Nat) :
    Sys2Proof.Laws.WordClass.Statement (.eccRollback t) :=
  ⟨.inr (.inr ⟨rfl, rfl⟩), ⟨Nat.le_of_ble_eq_true rfl, Nat.le_of_ble_eq_true rfl⟩, fun h => nomatch h⟩
theorem Sys2Proof.Laws.WordClass.healthMigration (t u : Nat) :
    Sys2Proof.Laws.WordClass.Statement (.healthMigration t u) :=
  ⟨.inr (.inr ⟨rfl, rfl⟩), ⟨Nat.le_of_ble_eq_true rfl, Nat.le_of_ble_eq_true rfl⟩, fun h => nomatch h⟩
theorem Sys2Proof.Laws.WordClass.sumacSession (who : Client) (authentic : Bool) :
    Sys2Proof.Laws.WordClass.Statement (.sumacSession who authentic) :=
  ⟨.inr (.inr ⟨rfl, rfl⟩), ⟨Nat.le_of_ble_eq_true rfl, Nat.le_of_ble_eq_true rfl⟩, fun h => nomatch h⟩
theorem Sys2Proof.Laws.WordClass.sumacSessionTimeout (i : Nat) :
    Sys2Proof.Laws.WordClass.Statement (.sumacSessionTimeout i) :=
  ⟨.inr (.inr ⟨rfl, rfl⟩), ⟨Nat.le_of_ble_eq_true rfl, Nat.le_of_ble_eq_true rfl⟩, fun h => nomatch h⟩
theorem Sys2Proof.Laws.WordClass.list (i : Nat) :
    Sys2Proof.Laws.WordClass.Statement (.list i) :=
  ⟨.inr (.inr ⟨rfl, rfl⟩), ⟨Nat.le_of_ble_eq_true rfl, Nat.le_of_ble_eq_true rfl⟩, fun h => nomatch h⟩
theorem Sys2Proof.Laws.WordClass.setgrp (i : Nat) (ts : Nat × List Nat) (groups : BitVec 8) (dbg : Bool) :
    Sys2Proof.Laws.WordClass.Statement (.setgrp i ts groups dbg) :=
  ⟨.inr (.inr ⟨rfl, rfl⟩), ⟨Nat.le_of_ble_eq_true rfl, Nat.le_of_ble_eq_true rfl⟩, fun h => nomatch h⟩
theorem Sys2Proof.Laws.WordClass.stop (i n : Nat) (groups : BitVec 8) :
    Sys2Proof.Laws.WordClass.Statement (.stop i n groups) :=
  ⟨.inr (.inr ⟨rfl, rfl⟩), ⟨Nat.le_of_ble_eq_true rfl, Nat.le_of_ble_eq_true rfl⟩, fun h => nomatch h⟩
theorem Sys2Proof.Laws.WordClass.sumacResume (i n : Nat) (groups : BitVec 8) (own : Option Nat) :
    Sys2Proof.Laws.WordClass.Statement (.sumacResume i n groups own) :=
  ⟨.inr (.inr ⟨rfl, rfl⟩), ⟨Nat.le_of_ble_eq_true rfl, Nat.le_of_ble_eq_true rfl⟩, fun h => nomatch h⟩
theorem Sys2Proof.Laws.WordClass.readctx (i t c : Nat) :
    Sys2Proof.Laws.WordClass.Statement (.readctx i t c) :=
  ⟨.inr (.inr ⟨rfl, rfl⟩), ⟨Nat.le_of_ble_eq_true rfl, Nat.le_of_ble_eq_true rfl⟩, fun h => nomatch h⟩
theorem Sys2Proof.Laws.WordClass.readmem (i t : Nat) (sp : DebugSpace) (addr len : Nat) :
    Sys2Proof.Laws.WordClass.Statement (.readmem i t sp addr len) :=
  ⟨.inr (.inr ⟨rfl, rfl⟩), ⟨Nat.le_of_ble_eq_true rfl, Nat.le_of_ble_eq_true rfl⟩, fun h => nomatch h⟩
theorem Sys2Proof.Laws.WordClass.writemem (i t : Nat) (sp : DebugSpace) (addr : Nat) (bytes : List (BitVec 8)) :
    Sys2Proof.Laws.WordClass.Statement (.writemem i t sp addr bytes) :=
  ⟨.inr (.inr ⟨rfl, rfl⟩), ⟨Nat.le_of_ble_eq_true rfl, Nat.le_of_ble_eq_true rfl⟩, fun h => nomatch h⟩
theorem Sys2Proof.Laws.WordClass.readrec (i : Nat) :
    Sys2Proof.Laws.WordClass.Statement (.readrec i) :=
  ⟨.inr (.inr ⟨rfl, rfl⟩), ⟨Nat.le_of_ble_eq_true rfl, Nat.le_of_ble_eq_true rfl⟩, fun h => nomatch h⟩
theorem Sys2Proof.Laws.WordClass.readglobal (i : Nat) (pid : BitVec 16) (addr len : Nat) :
    Sys2Proof.Laws.WordClass.Statement (.readglobal i pid addr len) :=
  ⟨.inr (.inr ⟨rfl, rfl⟩), ⟨Nat.le_of_ble_eq_true rfl, Nat.le_of_ble_eq_true rfl⟩, fun h => nomatch h⟩
theorem Sys2Proof.Laws.WordClass.events (i : Nat) :
    Sys2Proof.Laws.WordClass.Statement (.events i) :=
  ⟨.inr (.inr ⟨rfl, rfl⟩), ⟨Nat.le_of_ble_eq_true rfl, Nat.le_of_ble_eq_true rfl⟩, fun h => nomatch h⟩
theorem Sys2Proof.Laws.WordClass.intervalBoundary (otherWatts : Nat) (peaks : List (Nat × Nat)) :
    Sys2Proof.Laws.WordClass.Statement (.intervalBoundary otherWatts peaks) :=
  ⟨.inr (.inr ⟨rfl, rfl⟩), ⟨Nat.le_of_ble_eq_true rfl, Nat.le_of_ble_eq_true rfl⟩, fun h => nomatch h⟩
theorem Sys2Proof.Laws.WordClass.throttleWindow (cl e : Nat) :
    Sys2Proof.Laws.WordClass.Statement (.throttleWindow cl e) :=
  ⟨.inr (.inr ⟨rfl, rfl⟩), ⟨Nat.le_of_ble_eq_true rfl, Nat.le_of_ble_eq_true rfl⟩, fun h => nomatch h⟩
theorem Sys2Proof.Laws.WordClass.frameBoundary (t : Nat) :
    Sys2Proof.Laws.WordClass.Statement (.frameBoundary t) :=
  ⟨.inr (.inr ⟨rfl, rfl⟩), ⟨Nat.le_of_ble_eq_true rfl, Nat.le_of_ble_eq_true rfl⟩, fun h => nomatch h⟩
theorem Sys2Proof.Laws.WordClass.powerToken (token : Nat × List (BitVec 8)) :
    Sys2Proof.Laws.WordClass.Statement (.powerToken token) :=
  ⟨.inr (.inr ⟨rfl, rfl⟩), ⟨Nat.le_of_ble_eq_true rfl, Nat.le_of_ble_eq_true rfl⟩, fun h => nomatch h⟩
theorem Sys2Proof.Laws.WordClass.tokenExpiry :
    Sys2Proof.Laws.WordClass.Statement (.tokenExpiry) :=
  ⟨.inr (.inr ⟨rfl, rfl⟩), ⟨Nat.le_of_ble_eq_true rfl, Nat.le_of_ble_eq_true rfl⟩, fun h => nomatch h⟩
theorem Sys2Proof.Laws.WordClass.moduleReset (fails : List BootFail) :
    Sys2Proof.Laws.WordClass.Statement (.moduleReset fails) :=
  ⟨.inr (.inr ⟨rfl, rfl⟩), ⟨Nat.le_of_ble_eq_true rfl, Nat.le_of_ble_eq_true rfl⟩, fun h => nomatch h⟩
theorem Sys2Proof.Laws.WordClass.getMeasurements :
    Sys2Proof.Laws.WordClass.Statement (.getMeasurements) :=
  ⟨.inr (.inr ⟨rfl, rfl⟩), ⟨Nat.le_of_ble_eq_true rfl, Nat.le_of_ble_eq_true rfl⟩, fun h => nomatch h⟩
theorem Sys2Proof.Laws.WordClass.pidBindWrite (n q : Nat) (pid : BitVec 16) :
    Sys2Proof.Laws.WordClass.Statement (.pidBindWrite n q pid) :=
  ⟨.inr (.inr ⟨rfl, rfl⟩), ⟨Nat.le_of_ble_eq_true rfl, Nat.le_of_ble_eq_true rfl⟩, fun h => nomatch h⟩
theorem Sys2Proof.Laws.WordClass.tenantCreate (n : Nat) (cfg : TenantCfg) :
    Sys2Proof.Laws.WordClass.Statement (.tenantCreate n cfg) :=
  ⟨.inr (.inr ⟨rfl, rfl⟩), ⟨Nat.le_of_ble_eq_true rfl, Nat.le_of_ble_eq_true rfl⟩, fun h => nomatch h⟩
theorem Sys2Proof.Laws.WordClass.tenantChange (n : Nat) (cfg : TenantCfg) :
    Sys2Proof.Laws.WordClass.Statement (.tenantChange n cfg) :=
  ⟨.inr (.inr ⟨rfl, rfl⟩), ⟨Nat.le_of_ble_eq_true rfl, Nat.le_of_ble_eq_true rfl⟩, fun h => nomatch h⟩
theorem Sys2Proof.Laws.WordClass.tenantDelete (n : Nat) :
    Sys2Proof.Laws.WordClass.Statement (.tenantDelete n) :=
  ⟨.inr (.inr ⟨rfl, rfl⟩), ⟨Nat.le_of_ble_eq_true rfl, Nat.le_of_ble_eq_true rfl⟩, fun h => nomatch h⟩
theorem Sys2Proof.Laws.WordClass.hostRegisterWrite (n off : Nat) (val : BitVec 64) :
    Sys2Proof.Laws.WordClass.Statement (.hostRegisterWrite n off val) :=
  ⟨.inr (.inr ⟨rfl, rfl⟩), ⟨Nat.le_of_ble_eq_true rfl, Nat.le_of_ble_eq_true rfl⟩, fun h => nomatch h⟩
theorem Sys2Proof.Laws.WordClass.pageTableWrite (pa : Nat) (val : BitVec 64) :
    Sys2Proof.Laws.WordClass.Statement (.pageTableWrite pa val) :=
  ⟨.inr (.inr ⟨rfl, rfl⟩), ⟨Nat.le_of_ble_eq_true rfl, Nat.le_of_ble_eq_true rfl⟩, fun h => nomatch h⟩
theorem Sys2Proof.Laws.WordClass.kernelUnregister (h : BitVec 32) :
    Sys2Proof.Laws.WordClass.Statement (.kernelUnregister h) :=
  ⟨.inr (.inr ⟨rfl, rfl⟩), ⟨Nat.le_of_ble_eq_true rfl, Nat.le_of_ble_eq_true rfl⟩, fun h => nomatch h⟩
theorem Sys2Proof.Laws.WordClass.powerReturnTimeout (t : Nat) :
    Sys2Proof.Laws.WordClass.Statement (.powerReturnTimeout t) :=
  ⟨.inr (.inr ⟨rfl, rfl⟩), ⟨Nat.le_of_ble_eq_true rfl, Nat.le_of_ble_eq_true rfl⟩, fun h => nomatch h⟩
theorem Sys2Proof.Laws.WordClass.secondTierPortLost (p : Nat) :
    Sys2Proof.Laws.WordClass.Statement (.secondTierPortLost p) :=
  ⟨.inr (.inr ⟨rfl, rfl⟩), ⟨Nat.le_of_ble_eq_true rfl, Nat.le_of_ble_eq_true rfl⟩, fun h => nomatch h⟩
theorem Sys2Proof.Laws.WordClass.secondTierAccessComplete (k : Nat) :
    Sys2Proof.Laws.WordClass.Statement (.secondTierAccessComplete k) :=
  ⟨.inr (.inr ⟨rfl, rfl⟩), ⟨Nat.le_of_ble_eq_true rfl, Nat.le_of_ble_eq_true rfl⟩, fun h => nomatch h⟩
theorem Sys2Proof.Laws.WordClass.spanEngineDebugStop :
    Sys2Proof.Laws.WordClass.Statement (.spanEngineDebugStop) :=
  ⟨.inr (.inr ⟨rfl, rfl⟩), ⟨Nat.le_of_ble_eq_true rfl, Nat.le_of_ble_eq_true rfl⟩, fun h => nomatch h⟩
theorem Sys2Proof.Laws.WordClass.spanEngineDebugResume :
    Sys2Proof.Laws.WordClass.Statement (.spanEngineDebugResume) :=
  ⟨.inr (.inr ⟨rfl, rfl⟩), ⟨Nat.le_of_ble_eq_true rfl, Nat.le_of_ble_eq_true rfl⟩, fun h => nomatch h⟩
theorem Sys2Proof.Laws.WordClass.journalClear :
    Sys2Proof.Laws.WordClass.Statement (.journalClear) :=
  ⟨.inr (.inr ⟨rfl, rfl⟩), ⟨Nat.le_of_ble_eq_true rfl, Nat.le_of_ble_eq_true rfl⟩, fun h => nomatch h⟩
theorem Sys2Proof.Laws.WordClass.imageInstall (kind slot ver : Nat) (good : Bool) :
    Sys2Proof.Laws.WordClass.Statement (.imageInstall kind slot ver good) :=
  ⟨.inr (.inr ⟨rfl, rfl⟩), ⟨Nat.le_of_ble_eq_true rfl, Nat.le_of_ble_eq_true rfl⟩, fun h => nomatch h⟩
end

