-- ==== Sys2Proof/Machine/Assembler.lean ====
section
/-! DEFINITION. zilas, the assembler: tokens, lines and expressions (R360), symbols (R361), operands and branches (R362), the compact
forms (R53), what it refuses (R363). No step uses it: the machine takes the kernel file that a registration brings (R168). -/

namespace Sys2Proof.Machine

/-! Tokens (R360). -/

abbrev Name := List Char

inductive Lexeme where
  | name (n : Name)
  | dir (n : Name)
  | num (x : Word)
  | op (c : Char)
  | shl
  | shr
  deriving DecidableEq, Repr

def nameStart (c : Char) : Bool := c.isAlpha || c == '_'
def nameChar (c : Char) : Bool := c.isAlphanum || c == '_' || c == '.'

def digitVal (c : Char) : Nat :=
  if c.isDigit then c.toNat - 48 else if c.isLower then c.toNat - 87 else if c.isUpper then c.toNat - 55 else 99

/-- A number in a base: underscores may stand between digits. -/
def inBase (b : Nat) (l : List Char) : Option Word :=
  let ds := l.filter (· != '_')
  if ds.isEmpty || l.head? == some '_' || l.getLast? == some '_' || ds.any (fun c => decide (b ≤ digitVal c)) then none
  else some (BitVec.ofNat 64 (ds.foldl (fun n c => b * n + digitVal c) 0))

def number (l : List Char) : Option Word :=
  match l with
  | '0' :: 'x' :: r => inBase 16 r
  | '0' :: 'b' :: r => inBase 2 r
  | l => inBase 10 l

def operatorChars : List Char := "+-*/&^|~()[],:=.".toList

/-- The tokens of a line; n bounds the steps. A semicolon starts a comment. -/
def lexN : Nat → List Char → Option (List Lexeme)
  | 0, _ => none
  | _ + 1, [] => some []
  | n + 1, c :: r =>
    if c = ';' then some []
    else if c = ' ' ∨ c = '\t' then lexN n r
    else if c.isDigit then
      let w := (c :: r).takeWhile nameChar
      match number w, lexN n ((c :: r).dropWhile nameChar) with
      | some x, some ts => some (.num x :: ts)
      | _, _ => none
    else if nameStart c then (lexN n ((c :: r).dropWhile nameChar)).map (.name ((c :: r).takeWhile nameChar) :: ·)
    else if c = '.' ∧ (r.head?.map nameStart).getD false = true then
      (lexN n (r.dropWhile nameChar)).map (.dir (r.takeWhile nameChar) :: ·)
    else if c = '<' ∧ r.head? = some '<' then (lexN n (r.drop 1)).map (.shl :: ·)
    else if c = '>' ∧ r.head? = some '>' then (lexN n (r.drop 1)).map (.shr :: ·)
    else if operatorChars.contains c then (lexN n r).map (.op c :: ·)
    else none

def lex (l : List Char) : Option (List Lexeme) := lexN (l.length + 1) l

/-! Registers and other fixed names (R362); they are written in either case. -/

def lower (n : Name) : Name := n.map Char.toLower
/-- A name is written as a word. -/
def spells (n : Name) (w : String) : Bool := String.ofList n == w

/-- A decimal number below n without leading zeros. -/
def indexBelow (n : Nat) (l : List Char) : Option Nat :=
  if l.isEmpty || l.any (fun c => !c.isDigit) || (l.head? == some '0' && l != ['0']) then none
  else
    let x := l.foldl (fun m c => 10 * m + digitVal c) 0
    if x < n then some x else none

def ports : List String := ["north", "east", "south", "west"]
def scopes : List String := ["context", "tile", "group", "mast", "device", "system"]

/-- The system registers of R147 and their numbers. -/
def sysNames : List (String × Nat) :=
  [("sy.status", 0), ("sy.tile", 1), ("sy.kernel", 2), ("sy.flags", 3), ("sy.mxovf", 4), ("sy.maint", 5), ("sy.vfree", 6), ("sy.wdog", 7),
   ("sy.haltg", 8), ("sy.pgate", 9), ("sy.tcause", 10), ("sy.cycle", 11), ("sy.lc0", 16), ("sy.lc1", 17), ("sy.li0", 18), ("sy.li1", 19)]

/-- Register kinds of R51. -/
inductive RegKind where
  | s | v | p | k | b | a | q | sem | sy
  deriving DecidableEq, Repr

/-- Registers by name, with the aliases. -/
def regOf (n : Name) : Option (RegKind × Nat) :=
  match lower n with
  | ['z', 'e', 'r', 'o'] => some (.s, 0)
  | ['s', 'p'] => some (.s, 30)
  | ['l', 'r'] => some (.s, 31)
  | 's' :: 'e' :: 'm' :: r => (indexBelow 16 r).map (RegKind.sem, ·)
  | 's' :: 'y' :: r => (sysNames.find? fun e => spells ('s' :: 'y' :: r) e.1).map fun e => (RegKind.sy, e.2)
  | 's' :: r => (indexBelow 32 r).map (RegKind.s, ·)
  | 'v' :: r => (indexBelow 32 r).map (RegKind.v, ·)
  | 'p' :: r => (indexBelow 8 r).map (RegKind.p, ·)
  | 'k' :: r => (indexBelow 4 r).map (RegKind.k, ·)
  | 'b' :: r => (indexBelow 4 r).map (RegKind.b, ·)
  | 'a' :: r => (indexBelow 8 r).map (RegKind.a, ·)
  | 'q' :: r => (indexBelow 8 r).map (RegKind.q, ·)
  | _ => none

/-! Expressions (R360): 64-bit values that wrap. -/

inductive Expr where
  | num (x : Word)
  | sym (n : Name)
  | here
  | neg (a : Expr)
  | not (a : Expr)
  | mul (a b : Expr)
  | div (a b : Expr)
  | add (a b : Expr)
  | sub (a b : Expr)
  | shl (a b : Expr)
  | shr (a b : Expr)
  | and (a b : Expr)
  | xor (a b : Expr)
  | or (a b : Expr)
  deriving DecidableEq, Repr

/-- Shifts by 64 or more give 0. -/
def shiftBy (f : Word → Nat → Word) (x y : Word) : Word := if y.toNat < 64 then f x y.toNat else 0

/-- The value of an expression at location `pos`; none for an unknown symbol and for a division by zero. -/
def Expr.eval (env : Name → Option Word) (pos : Word) : Expr → Option Word
  | .num x => some x
  | .sym n => env n
  | .here => some pos
  | .neg a => (a.eval env pos).map fun x => -x
  | .not a => (a.eval env pos).map fun x => ~~~x
  | .mul a b => (a.eval env pos).bind fun x => (b.eval env pos).map fun y => x * y
  | .div a b => (a.eval env pos).bind fun x => (b.eval env pos).bind fun y => if y = 0 then none else some (x.sdiv y)
  | .add a b => (a.eval env pos).bind fun x => (b.eval env pos).map fun y => x + y
  | .sub a b => (a.eval env pos).bind fun x => (b.eval env pos).map fun y => x - y
  | .shl a b => (a.eval env pos).bind fun x => (b.eval env pos).map fun y => shiftBy (· <<< ·) x y
  | .shr a b => (a.eval env pos).bind fun x => (b.eval env pos).map fun y => shiftBy (· >>> ·) x y
  | .and a b => (a.eval env pos).bind fun x => (b.eval env pos).map fun y => x &&& y
  | .xor a b => (a.eval env pos).bind fun x => (b.eval env pos).map fun y => x ^^^ y
  | .or a b => (a.eval env pos).bind fun x => (b.eval env pos).map fun y => x ||| y

/-- The operator that a token is at a level, the weakest first. -/
def binaryOp (level : Nat) (t : Lexeme) : Option (Expr → Expr → Expr) :=
  match level, t with
  | 0, .op '|' => some .or
  | 1, .op '^' => some .xor
  | 2, .op '&' => some .and
  | 3, .shl => some .shl
  | 3, .shr => some .shr
  | 4, .op '+' => some .add
  | 4, .op '-' => some .sub
  | 5, .op '*' => some .mul
  | 5, .op '/' => some .div
  | _, _ => none

/-- Reads an expression of a level, after a left operand if one is given; n bounds the steps. -/
def readExpr : Nat → Nat → Option Expr → List Lexeme → Option (Expr × List Lexeme)
  | 0, _, _, _ => none
  | n + 1, level, none, ts =>
    if level < 6 then
      match readExpr n (level + 1) none ts with
      | some (e, r) => readExpr n level (some e) r
      | none => none
    else match ts with
      | .op '-' :: r => (readExpr n 6 none r).map fun x => (.neg x.1, x.2)
      | .op '~' :: r => (readExpr n 6 none r).map fun x => (.not x.1, x.2)
      | .op '.' :: r => some (.here, r)
      | .num x :: r => some (.num x, r)
      | .name m :: r => some (.sym m, r)
      | .op '(' :: r => match readExpr n 0 none r with
        | some (e, .op ')' :: r) => some (e, r)
        | _ => none
      | _ => none
  | n + 1, level, some e, ts =>
    match ts with
    | [] => some (e, [])
    | t :: r => match binaryOp level t with
      | none => some (e, ts)
      | some f => match readExpr n (level + 1) none r with
        | some (e', r') => readExpr n level (some (f e e')) r'
        | none => none

/-- An expression at the front of a list of tokens. -/
def expression (ts : List Lexeme) : Option (Expr × List Lexeme) := readExpr (20 * (ts.length + 1)) 0 none ts

/-! Lines (R360): an optional label, then a directive or an instruction. -/

structure Line where
  label : Option Name
  rest  : List Lexeme
  deriving DecidableEq, Repr

def line (l : List Char) : Option Line :=
  (lex l).map fun ts => match ts with
    | .name n :: .op ':' :: r => { label := some n, rest := r }
    | r => { label := none, rest := r }

/-! Operands (R362). -/

/-- An operand whose expressions are of type α: as written, or their values. -/
inductive Opnd (α : Type) where
  | reg (kind : RegKind) (n : Nat)
  | port (p : Nat)
  | scope (d : Nat)
  | mem (base : Nat) (off : α)
  | bump (base : Nat) (off : α)
  | val (e : α)
  deriving DecidableEq, Repr

def wordIndex (l : List String) (n : Name) : Option Nat := (List.range l.length).find? fun i => spells (lower n) (l.getD i "")

/-- `[s]`, `[s+e]`, `[s-e]`, `[s+-e]`, `[s+=e]`, without the opening bracket. -/
def memOperand (ts : List Lexeme) : Option (Opnd Expr × List Lexeme) :=
  match ts with
  | .name n :: r => match regOf n with
    | some (.s, b) =>
      let close := fun (f : Nat → Expr → Opnd Expr) (x : Option (Expr × List Lexeme)) => match x with
        | some (e, .op ']' :: r) => some (f b e, r)
        | _ => none
      match r with
      | .op ']' :: r => some (.mem b (.num 0), r)
      | .op '+' :: .op '=' :: r => close .bump (expression r)
      | .op '+' :: r => close .mem (expression r)
      | .op '-' :: _ => close .mem (expression r)
      | _ => none
    | _ => none
  | _ => none

/-- An operand at the front of a list of tokens. -/
def operand (ts : List Lexeme) : Option (Opnd Expr × List Lexeme) :=
  match ts with
  | .op '[' :: r => memOperand r
  | .name n :: r => match regOf n, wordIndex ports n, wordIndex scopes n with
    | some (c, i), _, _ => some (.reg c i, r)
    | none, some i, _ => some (.port i, r)
    | none, none, some i => some (.scope i, r)
    | none, none, none => (expression ts).map fun x => (.val x.1, x.2)
  | ts => (expression ts).map fun x => (.val x.1, x.2)

/-- Operands with commas between them, up to the end of the line; n bounds the steps. -/
def operandsN : Nat → List Lexeme → Option (List (Opnd Expr))
  | 0, _ => none
  | n + 1, ts =>
    match operand ts with
    | some (o, []) => some [o]
    | some (o, .op ',' :: r) => (operandsN n r).map (o :: ·)
    | _ => none

def operands (ts : List Lexeme) : Option (List (Opnd Expr)) := if ts.isEmpty then some [] else operandsN (ts.length + 1) ts

/-- `(pN)` or `(~pN)` before an instruction, N from 1 to 7. -/
def condition (ts : List Lexeme) : Option ((Fin 8 × Fin 2) × List Lexeme) :=
  let mk := fun (n : Name) (sense : Fin 2) (r : List Lexeme) => match regOf n with
    | some (.p, i) => if i = 0 then none else some ((⟨i % 8, by omega⟩, sense), r)
    | _ => none
  match ts with
  | .op '(' :: .name n :: .op ')' :: r => mk n 0 r
  | .op '(' :: .op '~' :: .name n :: .op ')' :: r => mk n 1 r
  | _ => none

/-- A value as an n-bit signed field (R50, R81); none where it does not fit. -/
def signedField (n : Nat) (x : Word) : Option (BitVec n) :=
  if -(2 ^ (n - 1) : Int) ≤ x.toInt ∧ x.toInt < 2 ^ (n - 1) then some (x.setWidth n) else none

/-- A value as an n-bit unsigned field. -/
def unsignedField (n : Nat) (x : Word) : Option (BitVec n) := if x.toNat < 2 ^ n then some (x.setWidth n) else none

/-- Half the distance from an instruction to its target; an odd distance is an error. -/
def halfwords (target pos : Word) : Option Word := if (target - pos).toNat % 2 = 0 then some ((target - pos).sshiftRight 1) else none

/-- The imm13 of a conditional branch, and the imm23 of J and JAL. -/
def branch13 (target pos : Word) : Option (BitVec 13) := (halfwords target pos).bind (signedField 13)
def jump23 (target pos : Word) : Option (BitVec 23) := (halfwords target pos).bind (signedField 23)

/-! Compact forms (R53): zilas emits one whenever it expresses the written instruction. -/

/-- A register among s8 to s15. -/
def upper8 (r : Fin 32) : Option (Fin 8) := if h : 8 ≤ r.val ∧ r.val < 16 then some ⟨r.val - 8, by omega⟩ else none

/-- C.LD of op o, for an offset that is a multiple of n below 32 n. -/
def compactMem (i : Instr) (d a : Fin 32) (off : BitVec 13) (n : Nat) (o : Fin 4) : Instr :=
  match upper8 d, upper8 a with
  | some d, some a => if off.toNat % n = 0 ∧ off.toNat / n < 32 then .cLd d a o (BitVec.ofNat 5 (off.toNat / n)) else i
  | _, _ => i

/-- C.ALU of op o. -/
def compactAlu (i : Instr) (d a b : Fin 32) (o : Fin 8) : Instr := if d = a ∧ d ≠ 0 then .cAlu d b o else i

/-- The compact form of a written instruction, if it has one. -/
def compactForm (i : Instr) : Instr :=
  match i with
  | .add d a b => compactAlu i d a b 0
  | .sub d a b => compactAlu i d a b 1
  | .and d a b => compactAlu i d a b 2
  | .or d a b => compactAlu i d a b 3
  | .xor d a b => compactAlu i d a b 4
  | .mov d a => if d ≠ 0 then .cAlu d a 5 else i
  | .shl d a b => compactAlu i d a b 6
  | .shr d a b => compactAlu i d a b 7
  | .addi d a x => if d = a ∧ d ≠ 0 ∧ ((x.setWidth 8 : BitVec 8).signExtend 13) = x then .cAddi d (x.setWidth 8) else i
  | .li d x => if d ≠ 0 ∧ ((x.setWidth 8 : BitVec 8).signExtend 13) = x then .cLi d (x.setWidth 8) else i
  | .ldN32 d a x => compactMem i d a x 4 0
  | .ldI64 d a x => compactMem i d a x 8 1
  | .st32 d a x => compactMem i d a x 4 2
  | .st64 d a x => compactMem i d a x 8 3
  | .beq a b x => if a = 0 ∧ b = 0 then .cB x else i
  | .retireWord => .retire
  | i => i

/-! What zilas refuses (R363). -/

/-- zilas takes an instruction for version ver: encoded, admitted by its fields (R52), not absent (R72). ILL and ILL.W are written as
such. -/
def zilasTakes (ver : Nat) (i : Instr) : Bool := i == .ill || i == .illW || i.size != 0 && i.wf && decide (i.since ≤ ver)

/-- Under a condition: PFX is not absent, and the instruction is none of those that R55 excludes. -/
def zilasTakesUnder (ver : Nat) (p : Fin 8) (sense : Fin 2) (i : Instr) : Bool :=
  zilasTakes ver (.pfx p sense) && zilasTakes ver i && !noPrefix i

end Sys2Proof.Machine
end

