-- ==== Sys2Proof/Machine/Mnemonics.lean ====
section
/-! DEFINITION. Written instructions: mnemonics with their suffixes, the operands each takes, and the instruction that they stand for
(R362, and the rules that give each instruction its assembly form). No step uses it. -/

namespace Sys2Proof.Machine

/-- What an operand place takes: a register of a kind, a register for a queue entry, a port, a scope, a literal in a range, an
immediate, a signed step, a branch or jump target, `[s]`, `[s+e]`, `[s+=e]`, `[s+=32]`. -/
inductive Place where
  | reg (kind : RegKind)
  | data
  | port
  | scope
  | lit (lo hi : Nat)
  | imm13
  | field13
  | step8
  | to13
  | to23
  | at
  | off
  | inc
  | by32
  deriving DecidableEq, Repr

/-- The numbers that an operand gives for its place, of an instruction at `pos`; none where it does not fit (R363). A vector register
for a queue entry is 32 and more. -/
def Place.take (pos : Word) : Place → Opnd Word → Option (List Nat)
  | .reg kd, .reg kd' n => if kd = kd' then some [n] else none
  | .data, .reg kd n => if kd = .s then some [n] else if kd = .v then some [32 + n] else none
  | .port, .port p => some [p]
  | .scope, .scope d => some [d]
  | .lit lo hi, .val x => if lo ≤ x.toNat ∧ x.toNat ≤ hi then some [x.toNat] else none
  | .imm13, .val x => (signedField 13 x).map fun f => [f.toNat]
  | .field13, .val x => (unsignedField 13 x).map fun f => [f.toNat]
  | .step8, .val x => (signedField 8 x).map fun f => [f.toNat]
  | .to13, .val x => (branch13 x pos).map fun f => [f.toNat]
  | .to23, .val x => (jump23 x pos).map fun f => [f.toNat]
  | .at, .mem b x => if x = 0 then some [b] else none
  | .off, .mem b x => (signedField 13 x).map fun f => [b, f.toNat]
  | .inc, .bump b x => (signedField 8 x).map fun f => [b, f.toNat]
  | .by32, .bump b x => if x = 32 then some [b] else none
  | _, _ => none

/-- The numbers of all operands in their order. -/
def takeAll (pos : Word) : List Place → List (Opnd Word) → Option (List Nat)
  | [], [] => some []
  | p :: ps, o :: os => (p.take pos o).bind fun l => (takeAll pos ps os).map (l ++ ·)
  | _, _ => none

/-- An instruction from its numbers. -/
abbrev Build := List Nat → Option Instr

def n0 (i : Instr) : Build
  | [] => some i
  | _ => none
def n1 (f : Nat → Instr) : Build
  | [a] => some (f a)
  | _ => none
def n2 (f : Nat → Nat → Instr) : Build
  | [a, b] => some (f a b)
  | _ => none
def n3 (f : Nat → Nat → Nat → Instr) : Build
  | [a, b, c] => some (f a b c)
  | _ => none
def n4 (f : Nat → Nat → Nat → Nat → Instr) : Build
  | [a, b, c, d] => some (f a b c d)
  | _ => none

def f2 (n : Nat) : Fin 2 := ⟨n % 2, by omega⟩
def f4 (n : Nat) : Fin 4 := ⟨n % 4, by omega⟩
def f8 (n : Nat) : Fin 8 := ⟨n % 8, by omega⟩
def f16 (n : Nat) : Fin 16 := ⟨n % 16, by omega⟩
def f32 (n : Nat) : Fin 32 := ⟨n % 32, by omega⟩
def f64 (n : Nat) : Fin 64 := ⟨n % 64, by omega⟩
def i13 (n : Nat) : BitVec 13 := BitVec.ofNat 13 n
def i8 (n : Nat) : BitVec 8 := BitVec.ofNat 8 n

/-! Builders of the common shapes. -/

def rrr (f : Fin 32 → Fin 32 → Fin 32 → Instr) : Build := n3 fun a b c => f (f32 a) (f32 b) (f32 c)
def rr (f : Fin 32 → Fin 32 → Instr) : Build := n2 fun a b => f (f32 a) (f32 b)
def r1 (f : Fin 32 → Instr) : Build := n1 fun a => f (f32 a)
def rri (f : Fin 32 → Fin 32 → BitVec 13 → Instr) : Build := n3 fun a b c => f (f32 a) (f32 b) (i13 c)
/-- Base and offset come before the data register. -/
def mst (f : Fin 32 → Fin 32 → BitVec 13 → Instr) : Build := n3 fun a x d => f (f32 d) (f32 a) (i13 x)
/-- A pair of registers of which the second is written first. -/
def flip2 (f : Fin 32 → Fin 32 → Instr) : Build := n2 fun a b => f (f32 b) (f32 a)

/-- A form of a mnemonic: its spelling in small letters, its operand places, the instruction. -/
abbrev Form := String × List Place × Build

/-! Register kinds by short names. -/

def pS : Place := .reg .s
def pV : Place := .reg .v
def pP : Place := .reg .p

def formsAlu : List Form :=
  [("add", [pS, pS, pS], rrr .add), ("sub", [pS, pS, pS], rrr .sub), ("mul", [pS, pS, pS], rrr .mul),
   ("mulh", [pS, pS, pS], rrr .mulh), ("mulhu", [pS, pS, pS], rrr .mulhu), ("div", [pS, pS, pS], rrr .div),
   ("divu", [pS, pS, pS], rrr .divu), ("rem", [pS, pS, pS], rrr .rem), ("remu", [pS, pS, pS], rrr .remu),
   ("and", [pS, pS, pS], rrr .and), ("or", [pS, pS, pS], rrr .or), ("xor", [pS, pS, pS], rrr .xor),
   ("shl", [pS, pS, pS], rrr .shl), ("shr", [pS, pS, pS], rrr .shr), ("sha", [pS, pS, pS], rrr .sha)] ++
  [("min", [pS, pS, pS], rrr .min), ("max", [pS, pS, pS], rrr .max), ("minu", [pS, pS, pS], rrr .minu),
   ("maxu", [pS, pS, pS], rrr .maxu), ("slt", [pS, pS, pS], rrr .slt), ("sltu", [pS, pS, pS], rrr .sltu),
   ("seq", [pS, pS, pS], rrr .seq), ("gaddr", [pS, pS, pS], rrr .gaddr), ("clz", [pS, pS], rr .clz),
   ("ctz", [pS, pS], rr .ctz), ("popc", [pS, pS], rr .popc), ("mov", [pS, pS], rr .mov), ("tileid", [pS], r1 .tileid),
   ("sel", [pS, pS, pS, pP], n4 fun d a b p => .sel (f32 d) (f32 a) (f32 b) (f8 p)),
   ("wid.f", [pS, pS, .lit 0 7], n3 fun d a f => .widF (f32 d) (f32 a) (f8 f))] ++
  [("addi", [pS, pS, .imm13], rri .addi), ("andi", [pS, pS, .imm13], rri .andi), ("ori", [pS, pS, .imm13], rri .ori),
   ("xori", [pS, pS, .imm13], rri .xori), ("slti", [pS, pS, .imm13], rri .slti), ("lih", [pS, pS, .field13], rri .lih),
   ("li", [pS, .imm13], n2 fun d x => .li (f32 d) (i13 x)),
   ("shli", [pS, pS, .lit 0 63], n3 fun d a n => .shli (f32 d) (f32 a) (f64 n)),
   ("shri", [pS, pS, .lit 0 63], n3 fun d a n => .shri (f32 d) (f32 a) (f64 n)),
   ("shai", [pS, pS, .lit 0 63], n3 fun d a n => .shai (f32 d) (f32 a) (f64 n)),
   ("bext", [pS, pS, .lit 0 63, .lit 1 64], n4 fun d a p l => .bext (f32 d) (f32 a) (f64 p) (f64 (l - 1))),
   ("bins", [pS, pS, .lit 0 63, .lit 1 64], n4 fun d a p l => .bins (f32 d) (f32 a) (f64 p) (f64 (l - 1)))] ++
  [("pset", [pP, pS], rr .pset), ("pand", [pP, pP, pP], rrr .pand), ("por", [pP, pP, pP], rrr .por),
   ("pxor", [pP, pP, pP], rrr .pxor), ("pnot", [pP, pP], rr .pnot)]

def formsControl : List Form :=
  [("beq", [pS, pS, .to13], rri .beq), ("bne", [pS, pS, .to13], rri .bne), ("blt", [pS, pS, .to13], rri .blt),
   ("bge", [pS, pS, .to13], rri .bge), ("bltu", [pS, pS, .to13], rri .bltu), ("bgeu", [pS, pS, .to13], rri .bgeu),
   ("b", [.to13], n1 fun x => .beq 0 0 (i13 x)), ("bp", [pP, .to13], n2 fun p x => .bp (f32 p) (i13 x)),
   ("bnp", [pP, .to13], n2 fun p x => .bnp (f32 p) (i13 x)), ("j", [.to23], n1 fun x => .j (BitVec.ofNat 23 x)),
   ("jal", [.to23], n1 fun x => .jal (BitVec.ofNat 23 x)), ("jalr", [pS, pS, .imm13], rri .jalr),
   ("loop", [pS, .lit 1 32, .step8], n3 fun a l t => .loop (f32 (l - 1)) (f32 a) (i8 t)),
   ("loopi", [.lit 0 262143, .lit 1 32], n2 fun c l => .loopi (f32 (l - 1)) (f32 (c / 8192)) (i13 c))] ++
  [("ill", [], n0 .ill), ("ill.w", [], n0 .illW), ("nop", [], n0 .nop), ("yield", [], n0 .yield), ("brk", [], n0 .brk),
   ("wfi", [], n0 .wfi), ("retire", [], n0 .retireWord), ("retire.s", [pS], r1 .retireS),
   ("trap", [.lit 0 1023], n1 fun n => .trap (f32 (n / 32)) (f32 n)),
   ("sysr", [pS, .reg .sy], n2 fun d n => .sysr (f32 d) (f32 (n / 32)) (f32 n)),
   ("sysw", [.reg .sy, pS], n2 fun n d => .sysw (f32 d) (f32 (n / 32)) (f32 n)),
   ("karg", [pS, .lit 0 31], rr .karg), ("pfence.t", [], n0 .pfenceT), ("pfence.g", [], n0 .pfenceG),
   ("pstat", [pS], r1 .pstat), ("pgate", [pS, .lit 0 31], rr .pgate), ("tsend", [pS, pS, pS], rrr .tsend),
   ("cntrd", [pS, pS], rr .cntrd), ("cntset", [pS, pS], rr .cntset)]

/-- The offset form of a load and, where it has one, its post-increment form of kind k (R60). -/
def loadForms (n : String) (dest : Place) (f : Fin 32 → Fin 32 → BitVec 13 → Instr) (k : Nat) : List Form :=
  [(n, [dest, .off], rri f), (n, [dest, .inc], n3 fun d a x => .ldPostinc (f32 d) (f32 a) (f8 k) (i8 x))]

def storeForms (n : String) (src : Place) (f : Fin 32 → Fin 32 → BitVec 13 → Instr) (k : Nat) : List Form :=
  [(n, [.off, src], mst f), (n, [.inc, src], n3 fun a x d => .stPostinc (f32 d) (f32 a) (f32 k) (i8 x))]

/-- LVS, LVG and SVX of 8 · 2^w bits (R97). -/
def elementForms (n : String) (w : Fin 4) : List Form :=
  [("lvs." ++ n, [pV, .at, pS], n3 fun d a b => .lvs (f32 d) (f32 a) (f32 b) w),
   ("lvg." ++ n, [pV, .at, pV], n3 fun d a b => .lvg (f32 d) (f32 a) (f32 b) w),
   ("svx." ++ n, [.at, pV, pV], n3 fun a b d => .svx (f32 d) (f32 a) (f32 b) w)]

def formsMemory : List Form :=
  loadForms "ld.i8" pS .ldI8 0 ++ loadForms "ld.n8" pS .ldN8 1 ++ loadForms "ld.i16" pS .ldI16 2 ++ loadForms "ld.n16" pS .ldN16 3 ++
  loadForms "ld.i32" pS .ldI32 4 ++ loadForms "ld.n32" pS .ldN32 5 ++ loadForms "ld.i64" pS .ldI64 6 ++ loadForms "lv" pV .lv 7 ++
  storeForms "st.8" pS .st8 0 ++ storeForms "st.16" pS .st16 1 ++ storeForms "st.32" pS .st32 2 ++ storeForms "st.64" pS .st64 3 ++
  storeForms "sv" pV .sv 4 ++ elementForms "8" 0 ++ elementForms "16" 1 ++ elementForms "32" 2 ++ elementForms "64" 3 ++
  [("ldf.32", [pS, .off], rri .ldf32), ("ldf.64", [pS, .off], rri .ldf64), ("stf.32", [.off, pS], mst .stf32),
   ("stf.64", [.off, pS], mst .stf64), ("lvf", [pV, .off], rri .lvf), ("svf", [.off, pV], mst .svf)]

/-- An atomic in its spaces and widths (R66). -/
def atomicForms (n : String) (f : Fin 32 → Fin 32 → Fin 32 → Fin 2 → Fin 4 → Instr) : List Form :=
  let one := fun (suffix : String) (w : Fin 2) (s : Fin 4) =>
    ((n ++ suffix, [pS, .at, pS], n3 fun d a b => f (f32 d) (f32 a) (f32 b) w s) : Form)
  [one ".l.32" 0 0, one ".l.64" 1 0, one ".f.32" 0 1, one ".f.64" 1 1, one ".g.32" 0 2, one ".g.64" 1 2]

def formsGroup : List Form :=
  atomicForms "aadd" .aadd ++ atomicForms "aand" .aand ++ atomicForms "aor" .aor ++ atomicForms "axor" .axor ++
  atomicForms "amin" .amin ++ atomicForms "amax" .amax ++ atomicForms "aminu" .aminu ++ atomicForms "amaxu" .amaxu ++
  atomicForms "aswap" .aswap ++ atomicForms "acas" .acas ++
  [("xaddf.f32", [.at, pS], n2 fun a b => .xaddf (f32 a) (f32 b) 0), ("xaddf.bf", [.at, pS], n2 fun a b => .xaddf (f32 a) (f32 b) 1),
   ("xrd.f32", [pS, .at], n2 fun d a => .xrd (f32 d) (f32 a) 0), ("xrd.bf", [pS, .at], n2 fun d a => .xrd (f32 d) (f32 a) 1),
   ("xclr", [.at], r1 .xclr), ("cpypop", [pS], r1 .cpypop), ("fold", [pS, pS, pS], rrr .fold), ("foldrd", [pS, .lit 0 31], rr .foldrd),
   ("cpy.vc0", [pS, pS, pS], n3 fun d a b => .cpy (f32 d) (f32 a) (f32 b) 0),
   ("cpy.vc1", [pS, pS, pS], n3 fun d a b => .cpy (f32 d) (f32 a) (f32 b) 1),
   ("cpy.vc2", [pS, pS, pS], n3 fun d a b => .cpy (f32 d) (f32 a) (f32 b) 2),
   ("cpy.vc3", [pS, pS, pS], n3 fun d a b => .cpy (f32 d) (f32 a) (f32 b) 3)]

def formsSync : List Form :=
  [("semset", [.reg .sem, pS], rr .semset), ("semadd", [.reg .sem, .lit 0 31], rr .semadd), ("semwait", [.reg .sem, .lit 0 31], rr .semwait),
   ("phreg", [pS, pS, .lit 0 31], rrr .phreg), ("phdrop", [pS], r1 .phdrop), ("phsig", [pS, pS], rr .phsig),
   ("phwait", [pP, pS, pS], rrr .phwait), ("phnext", [pS, pS], rr .phnext), ("bar", [.reg .b], r1 .bar),
   ("bara", [pS, .reg .b], rr .bara), ("barw", [pP, .reg .b, pS], rrr .barw), ("vst", [pS, .at, pS], rrr .vst),
   ("vld", [pS, .at, pS], rrr .vld), ("vrecl", [.at, pS], rr .vrecl), ("fence", [.scope], r1 .fence)]

/-- A queue operation takes a vector register on q4 to q6, else a scalar one. -/
def queueData (q x : Nat) (i : Instr) : Option Instr := if (4 ≤ q ∧ q ≤ 6) = (32 ≤ x) then some i else none

def formsQueue : List Form :=
  [("send", [pS, pS, pS, .lit 1 32], n4 fun d a b n => .send (f32 d) (f32 a) (f32 b) (f32 (n - 1))),
   ("sendm", [pS, pS, pS, .lit 1 32], n4 fun d a b n => .sendm (f32 d) (f32 a) (f32 b) (f32 (n - 1))),
   ("msgid", [pS], r1 .msgid), ("qcnt", [pS, .reg .q], rr .qcnt),
   ("qpush", [.reg .q, .data, pP], fun l => match l with
     | [q, x, p] => queueData q x (.qpush (f32 x) (f32 p) (f32 q))
     | _ => none),
   ("qpop", [.data, pP, .reg .q], fun l => match l with
     | [x, p, q] => queueData q x (.qpop (f32 x) (f32 p) (f32 q))
     | _ => none),
   ("qpeek", [.data, pP, .reg .q], fun l => match l with
     | [x, p, q] => queueData q x (.qpeek (f32 x) (f32 p) (f32 q))
     | _ => none),
   ("qpushw", [.reg .q, .data], fun l => match l with
     | [q, x] => queueData q x (.qpushw (f32 x) (f32 q))
     | _ => none),
   ("qpopw", [.data, .reg .q], fun l => match l with
     | [x, q] => queueData q x (.qpopw (f32 x) (f32 q))
     | _ => none)] ++
  [("rpush", [pP, .at, pS], n3 fun p b d => .rpush (f32 d) (f32 p) (f32 b)), ("rpop", [pS, pP, .at], rrr .rpop),
   ("chblk", [pS, pS], rr .chblk), ("chunb", [pS, pS], rr .chunb), ("chmask", [pS, .lit 0 31], rr .chmask),
   ("seal", [pS, pS], rr .seal), ("unseal", [pS, pS], rr .unseal), ("lgd", [pS, .at], rr .lgd), ("sgd", [.at, pS], rr .sgd),
   ("lgv", [pV, .at], rr .lgv), ("sgv", [.at, pV], flip2 fun d a => .sgv d a),
   ("pusht", [pS, pS, .lit 1 32], n3 fun d a n => .pusht (f32 d) (f32 a) (f32 (n - 1))), ("tlbi.h", [pS, pS], rr .tlbiH)]

def formsMatrix : List Form :=
  [("mxopen", [.port], n1 fun p => .mxopen (f4 p)), ("mxcfg", [.port, pS], n2 fun p d => .mxcfg (f32 d) (f4 p)),
   ("mxpush", [.port, pV], n2 fun p a => .mxpush (f32 a) (f4 p)),
   ("mxpushm", [.port, .by32, .lit 1 32], n3 fun p a n => .mxpushm (f32 a) (f32 (n - 1)) (f4 p)),
   ("mxscl", [.port, pV], n2 fun p a => .mxscl (f32 a) (f4 p)), ("mxclose", [.port], n1 fun p => .mxclose (f4 p)),
   ("mxstat", [pS, .port], n2 fun d p => .mxstat (f32 d) (f4 p)), ("msetm", [pS], r1 .msetm), ("skld", [.reg .k, pS], rr .skld),
   ("accz", [.reg .a], r1 .accz), ("accrd", [pV, .reg .a, .lit 0 31], rrr .accrd),
   ("accwr", [.reg .a, .lit 0 31, pV], n3 fun k r v => .accwr (f32 k) (f32 v) (f32 r))]

/-- Vector instructions without a suffix. -/
def formsPlainVector : List Form :=
  [("vand", [pV, pV, pV], rrr .vand), ("vor", [pV, pV, pV], rrr .vor), ("vxor", [pV, pV, pV], rrr .vxor),
   ("vsel", [pV, pV, pV, pP], n4 fun d a b p => .vsel (f32 d) (f32 a) (f32 b) (f8 p))]

def plainForms : List Form :=
  formsAlu ++ formsControl ++ formsMemory ++ formsGroup ++ formsSync ++ formsQueue ++ formsMatrix ++ formsPlainVector

/-! Typed instructions (R61 to R64): a type, then for some a rounding mode. -/

def typeNames : List String := ["i8", "i16", "i32", "i64", "n8", "n16", "n32", "n64", "bf", "f32", "dp", "bsi8", "bsdp"]
def modeNames : List String := ["rtz", "rup", "rdn"]

/-- A typed mnemonic: its spelling, whether a mode may follow, its operand places, the instruction of a mode and a type. -/
abbrev TypedForm := String × Bool × List Place × (Fin 4 → Fin 16 → Build)

def vvv (f : Fin 4 → Fin 32 → Fin 32 → Fin 32 → Fin 16 → Instr) : Fin 4 → Fin 16 → Build :=
  fun r t => n3 fun d a b => f r (f32 d) (f32 a) (f32 b) t
def vv (f : Fin 4 → Fin 32 → Fin 32 → Fin 16 → Instr) : Fin 4 → Fin 16 → Build := fun r t => n2 fun d a => f r (f32 d) (f32 a) t
/-- The same without a mode. -/
def vvv0 (f : Fin 32 → Fin 32 → Fin 32 → Fin 16 → Instr) : Fin 4 → Fin 16 → Build := vvv fun _ d a b t => f d a b t
def vv0 (f : Fin 32 → Fin 32 → Fin 16 → Instr) : Fin 4 → Fin 16 → Build := vv fun _ d a t => f d a t

def typedForms : List TypedForm :=
  [("vadd", true, [pV, pV, pV], vvv .vadd), ("vsub", true, [pV, pV, pV], vvv .vsub), ("vmul", true, [pV, pV, pV], vvv .vmul),
   ("vfma", true, [pV, pV, pV], vvv .vfma), ("vmin", true, [pV, pV, pV], vvv .vmin), ("vmax", true, [pV, pV, pV], vvv .vmax),
   ("vcmpeq", true, [pP, pV, pV], vvv .vcmpeq), ("vcmplt", true, [pP, pV, pV], vvv .vcmplt), ("vcmple", true, [pP, pV, pV], vvv .vcmple),
   ("vred.add", true, [pV, pV], vv .vredAdd), ("vred.max", true, [pV, pV], vv .vredMax), ("vred.min", true, [pV, pV], vv .vredMin),
   ("vdot", true, [pV, pV, pV], vvv .vdot), ("vscale", true, [pV, pV, pV], vvv .vscale), ("vpack", true, [pV, pV, pV], vvv .vpack)] ++
  [("vabs", false, [pV, pV], vv0 .vabs), ("vneg", false, [pV, pV], vv0 .vneg), ("vshl", false, [pV, pV, pV], vvv0 .vshl),
   ("vshr", false, [pV, pV, pV], vvv0 .vshr), ("vsha", false, [pV, pV, pV], vvv0 .vsha), ("vbcast", false, [pV, pS], vv0 .vbcast),
   ("vext", false, [pS, pV, .lit 0 31], vvv0 .vext), ("vperm", false, [pV, pV, pV], vvv0 .vperm), ("vshuf", false, [pV, pV, pV], vvv0 .vshuf),
   ("vrcp", false, [pV, pV], vv0 .vrcp), ("vrsq", false, [pV, pV], vv0 .vrsq), ("vexp2", false, [pV, pV], vv0 .vexp2),
   ("vmaxexp", false, [pV, pV], vv0 .vmaxexp), ("vunpk", false, [pV, pV, .lit 0 31], vvv0 .vunpk),
   ("acccvt", false, [pV, .reg .a, .lit 0 31], vvv0 fun v k r t => .acccvt v k r t)]

/-- Parts of a name between its dots. -/
def dotParts : List Char → List Name
  | [] => [[]]
  | c :: r =>
    match dotParts r with
    | [] => [[c]]
    | w :: ws => if c = '.' then [] :: w :: ws else (c :: w) :: ws

def typeOf (n : Name) : Option (Fin 16) := (wordIndex typeNames n).map f16

/-- The rounding mode that suffixes name: none is RNE (R62). -/
def modeOf : List Name → Option (Fin 4)
  | [] => some 0
  | [m] => (wordIndex modeNames m).map fun i => f4 (i + 1)
  | _ => none

/-- Suffixes of a typed mnemonic: a type and, where allowed, a mode. -/
def typeAndMode (modes : Bool) : List Name → Option (Fin 16 × Fin 4)
  | t :: r => if modes || r.isEmpty then (typeOf t).bind fun t => (modeOf r).map fun m => (t, m) else none
  | [] => none

/-- Parts joined by dots. -/
def joinDots : List Name → Name
  | [] => []
  | [w] => w
  | w :: ws => w ++ '.' :: joinDots ws

/-- What is left of the parts of a name after those of a mnemonic. -/
def afterParts (base : String) (parts : List Name) : Option (List Name) :=
  ((List.range (parts.length + 1)).find? fun k => spells (joinDots (parts.take k)) base).map parts.drop

/-- The operand places and builders of a mnemonic with its suffixes, written in either case. -/
def formsOf (mn : Name) : List (List Place × Build) :=
  let n := lower mn
  let parts := dotParts n
  let plain := (plainForms.filter fun f => spells n f.1).map (·.2)
  let typed := typedForms.filterMap fun f =>
    ((afterParts f.1 parts).bind (typeAndMode f.2.1)).map fun x => (f.2.2.1, f.2.2.2 x.2 x.1)
  let cvt := match parts with
    | v :: d :: s :: r =>
      if v = ['v', 'c', 'v', 't'] then
        match typeOf d, typeOf s, modeOf r with
        | some d, some s, some m => [([pV, pV], n2 fun x y => .vcvt m (f32 x) (f32 y) s d)]
        | _, _, _ => []
      else []
    | _ => []
  plain ++ typed ++ cvt

/-- Mnemonics that are no instruction without a suffix, beside the typed ones. -/
def stems : List String :=
  ["wid", "pfence", "ld", "st", "lvs", "lvg", "svx", "ldf", "stf", "aadd", "aand", "aor", "axor", "amin", "amax", "aminu", "amaxu", "aswap",
   "acas", "xaddf", "xrd", "cpy", "tlbi", "vred", "vcvt"]

/-- A name that is a mnemonic: a bare one or one with its suffixes. -/
def isMnemonic (n : Name) : Bool := !(formsOf n).isEmpty || (typedForms.map (·.1) ++ stems).any (spells (lower n))

/-- A name that a program may define: no register, alias, port, scope or mnemonic, whatever the case (R360). -/
def freeName (n : Name) : Bool :=
  (n.head?.map nameStart).getD false && n.all nameChar && (regOf n).isNone && !isMnemonic n &&
    !((ports ++ scopes).any fun w => spells (lower n) w)

/-- The instruction that a mnemonic with operands at address `pos` writes; none where no form takes them. -/
def written (mn : Name) (ops : List (Opnd Word)) (pos : Word) : Option Instr :=
  (formsOf mn).findSome? fun f => (takeAll pos f.1 ops).bind f.2

end Sys2Proof.Machine
end

