-- ==== Sys2Proof/Machine/Linker.lean ====
section
/-! DEFINITION. The directives of a kernel (R364), the layout of the kernel file that zilld writes (R365, R168), relocations (R366) and
the register conventions (R367). No step uses it: the machine takes the kernel file that a registration brings. -/

namespace Sys2Proof.Machine

/-! Relocations (R366). -/

inductive Reloc where
  | b13
  | j23
  | i13
  | m13
  | piece13 (k : Nat)
  | word32
  | dword64
  | entry24
  deriving DecidableEq, Repr

/-- The value that a relocation writes for symbol s, addend a and the instruction's address p; none where it does not fit. -/
def Reloc.value (r : Reloc) (s a p : Word) : Option Nat :=
  match r with
  | .b13 => (branch13 s p).map (·.toNat)
  | .j23 => (jump23 s p).map (·.toNat)
  | .i13 | .m13 => (signedField 13 (s + a)).map (·.toNat)
  | .piece13 k => some (bits (s + a).toNat (13 * k) 13)
  | .word32 => ((unsignedField 32 (s + a)).orElse fun _ => signedField 32 (s + a)).map (·.toNat)
  | .dword64 => some (s + a).toNat
  | .entry24 => (unsignedField 24 s).map (·.toNat)

/-- Where the field of a relocation lies, and its width (R48, R27). -/
def Reloc.place : Reloc → Nat × Nat
  | .b13 | .i13 | .m13 | .piece13 _ => (19, 13)
  | .j23 => (9, 23)
  | .word32 => (0, 32)
  | .dword64 => (0, 64)
  | .entry24 => (0, 24)

/-- A word with the field of a relocation replaced. -/
def Reloc.patch (r : Reloc) (w x : Nat) : Nat :=
  let (lo, n) := r.place
  w - bits w lo n * 2 ^ lo + x * 2 ^ lo

/-- The relocation that the expression of an instruction takes; a piece is the one that the expression selects (R366). -/
def relocOf (i : Instr) (piece : Option Nat) : Option Reloc :=
  match i, piece with
  | .lih _ _ _, some k => some (.piece13 k)
  | .beq .., none | .bne .., none | .blt .., none | .bge .., none | .bltu .., none | .bgeu .., none | .bp .., none | .bnp .., none => some .b13
  | .j _, none | .jal _, none => some .j23
  | .li .., none | .addi .., none => some .i13
  | .ldI8 .., none | .ldN8 .., none | .ldI16 .., none | .ldN16 .., none | .ldI32 .., none | .ldN32 .., none | .ldI64 .., none => some .m13
  | .st8 .., none | .st16 .., none | .st32 .., none | .st64 .., none | .lv .., none | .sv .., none | .lvf .., none | .svf .., none => some .m13
  | .ldf32 .., none | .ldf64 .., none | .stf32 .., none | .stf64 .., none => some .m13
  | _, _ => none

/-! Source (R360, R364). -/

/-- A symbol of another object with an addend, for a field that the link fills. -/
structure Ref where
  kind : Reloc
  sym  : Name
  add  : Word
  deriving DecidableEq, Repr

/-- What stands on a line after its label. -/
inductive Stmt where
  | none
  | dir (n : Name) (ts : List Lexeme)
  | instr (cond : Option (Fin 8 × Fin 2)) (mn : Name) (ops : List (Opnd Expr))
  deriving DecidableEq, Repr

structure SrcLine where
  label : Option Name
  stmt  : Stmt
  deriving DecidableEq, Repr

/-- A line of the source; a directive's name is written in either case. -/
def srcLine (l : List Char) : Option SrcLine :=
  (line l).bind fun x =>
    match x.rest with
    | [] => some { label := x.label, stmt := .none }
    | .dir n :: ts => some { label := x.label, stmt := .dir (lower n) ts }
    | ts =>
      let (cond, ts) := match condition ts with
        | some (c, r) => (some c, r)
        | none => (none, ts)
      match ts with
      | .name mn :: r => (operands r).map fun ops => { label := x.label, stmt := .instr cond mn ops }
      | _ => none

/-- The operands of a directive: what stands between its commas. -/
def dirArgs : List Lexeme → List (List Lexeme)
  | [] => [[]]
  | t :: r =>
    match dirArgs r with
    | [] => [[t]]
    | w :: ws => if t = .op ',' then [] :: w :: ws else (t :: w) :: ws

/-- The operands of `.kernel`. -/
structure KernelDecl where
  name     : Name
  wdog     : Nat := 0
  args     : Nat := 256
  stack    : Nat := 4096
  fallback : Bool := false
  maint    : Bool := false
  deriving DecidableEq, Repr

/-- A kernel of a source file: its name, the other operands of its `.kernel`, and its lines. -/
structure KernelSrc where
  decl  : KernelDecl
  opts  : List (List Lexeme) := []
  lines : List SrcLine
  deriving DecidableEq, Repr

/-- A piece of a section: bytes, or a word of w bytes with a reference. -/
inductive Chunk where
  | raw (bs : List Byte)
  | ref (w : Nat) (x : Nat) (r : Ref)
  deriving DecidableEq, Repr

def Chunk.size : Chunk → Nat
  | .raw bs => bs.length
  | .ref w _ _ => w

def sizeOf' (l : List Chunk) : Nat := (l.map Chunk.size).sum

/-- A channel of `.channel`. -/
structure ChanDecl where
  label   : Name
  prio    : Nat := 0
  vc      : Nat := 0
  serial  : Bool := false
  persist : Bool := false
  deriving DecidableEq, Repr

/-- A name that an object defines: a label or a name of `.equ`, and its value (R361). -/
structure SymDef where
  name  : Name
  value : Word
  label : Bool
  deriving DecidableEq, Repr

/-- An object: what one source file holds of one kernel. `textAt` and `dataAt` are the places of its sections in the link, `known` the
values that the pass before gave its names, `wide` the instructions that keep their form of 32 bits, `seen` the instructions met,
`stuck` those that have no encoding with these values, `bad` that some line of this pass is an error with them. -/
structure Obj where
  decl     : KernelDecl
  textAt   : Nat := 0
  dataAt   : Nat := 0
  ver      : Option Nat := none
  begun    : Bool := false
  shape    : Option (Nat × Nat × Nat × Nat) := none
  widths   : List Nat := []
  chans    : List (Nat × ChanDecl) := []
  power    : List (Nat × Nat × Nat × Nat) := []
  regions  : List (Nat × Nat × Nat) := []
  accept   : Nat := 0
  offer    : Nat := 0
  inData   : Bool := false
  dataBase : Option Nat := none
  text     : List Chunk := []
  data     : List Chunk := []
  syms     : List SymDef := []
  globals  : List Name := []
  locals   : List Name := []
  known    : List SymDef := []
  wide     : List Nat := []
  seen     : Nat := 0
  stuck    : List Nat := []
  bad      : Bool := false
  deriving DecidableEq, Repr

def Obj.version (o : Obj) : Nat := o.ver.getD 3

def findSym (l : List SymDef) (n : Name) : Option SymDef := l.find? fun e => e.name == n

/-- The current location: the offset in the code image, or the scratchpad address (R361). -/
def Obj.pos (o : Obj) : Nat := if o.inData then (o.dataBase.getD 0) + o.dataAt + sizeOf' o.data else o.textAt + sizeOf' o.text

/-- A value that may wait for the link: a symbol of another object plus x, or a piece of that sum. -/
structure Val where
  x     : Word
  ext   : Option Name := none
  piece : Option Nat := none
  deriving DecidableEq, Repr

/-- What a name is worth to an instruction: its own object's value, else a symbol of another object. -/
def Obj.look (o : Obj) (n : Name) : Option Val :=
  match findSym o.known n with
  | some y => some { x := y.value }
  | none => if o.locals.contains n || !freeName n then none else some { x := 0, ext := some n }

/-- The value of an expression; a symbol of another object may only have a value added or subtracted. -/
def Obj.linear (o : Obj) : Expr → Option Val
  | .sym n => o.look n
  | .add a b => (o.linear a).bind fun x => (o.linear b).bind fun y =>
      match x.ext, y.ext with
      | some _, some _ => none
      | some n, none => some { x := x.x + y.x, ext := some n }
      | none, e => some { x := x.x + y.x, ext := e }
  | .sub a b => (o.linear a).bind fun x => (o.linear b).bind fun y =>
      if y.ext.isSome then none else some { x := x.x - y.x, ext := x.ext }
  | e => (e.eval (fun n => (o.look n).bind fun v => if v.ext.isNone then some v.x else none) (BitVec.ofNat 64 o.pos)).map fun x => { x := x }

/-- The value of an operand of an instruction. `(e >> 13k) & 0x1FFF` and `e & 0x1FFF` select a piece of a sum that waits for the
link (DESIGN CHOICE, log 76). -/
def Obj.value (o : Obj) (e : Expr) : Option Val :=
  let num := fun (e : Expr) => e.eval (fun _ => none) 0
  let pieceOf := fun (a : Expr) (k : Nat) => (o.linear a).bind fun v => if v.ext.isSome then some { v with piece := some k } else none
  match e with
  | .and (.shr a c) m =>
    match num c, num m with
    | some c, some m =>
      if m = 0x1FFF ∧ c.toNat % 13 = 0 ∧ c.toNat ≤ 52 then (pieceOf a (c.toNat / 13)).orElse fun _ => o.linear e else o.linear e
    | _, _ => o.linear e
  | .and a m => if num m = some 0x1FFF then (pieceOf a 0).orElse fun _ => o.linear e else o.linear e
  | e => o.linear e

/-- The values of the operands, the stand-in `hole` in the place of what waits, and what waits. -/
def Obj.resolveOps (o : Obj) (hole : Word) : List (Opnd Expr) → Option (List (Opnd Word) × List Val)
  | [] => some ([], [])
  | p :: ps =>
    let one := fun (f : Word → Opnd Word) (e : Expr) =>
      (o.value e).bind fun v => (o.resolveOps hole ps).map fun r =>
        if v.ext.isSome then (f hole :: r.1, v :: r.2) else (f v.x :: r.1, r.2)
    match p with
    | .reg kd n => (o.resolveOps hole ps).map fun r => (.reg kd n :: r.1, r.2)
    | .port q => (o.resolveOps hole ps).map fun r => (.port q :: r.1, r.2)
    | .scope d => (o.resolveOps hole ps).map fun r => (.scope d :: r.1, r.2)
    | .mem b e => one (.mem b) e
    | .bump b e => one (.bump b) e
    | .val e => one .val e

/-- The value of an `.equ` name: every name in its expression is defined already (R361). -/
def Obj.now (o : Obj) (ts : List Lexeme) : Option Word :=
  match expression ts with
  | some (e, []) => e.eval (fun n => (findSym o.syms n).map (·.value)) (BitVec.ofNat 64 o.pos)
  | _ => none

/-- The value of any other directive's operand: names of the object, wherever it defines them (R366). -/
def Obj.worth (o : Obj) (ts : List Lexeme) : Option Word :=
  match expression ts with
  | some (e, []) => (o.linear e).bind fun v => if v.ext.isNone then some v.x else none
  | _ => none

/-- The same as a number below a bound. -/
def Obj.below (o : Obj) (bound : Nat) (ts : List Lexeme) : Option Nat :=
  (o.worth ts).bind fun x => if x.toNat < bound then some x.toNat else none

/-- Chunks into the current section. -/
def Obj.put (o : Obj) (cs : List Chunk) : Obj := if o.inData then { o with data := o.data ++ cs } else { o with text := o.text ++ cs }

/-- A new name; a name stands for one thing. -/
def Obj.define (o : Obj) (n : Name) (x : Word) (label : Bool) : Option Obj :=
  if freeName n && (findSym o.syms n).isNone then some { o with syms := o.syms ++ [{ name := n, value := x, label := label }] } else none

/-- The bytes of an instruction. -/
def instrBytes (i : Instr) : List Byte := leBytes i.size (encode i)

/-- A value that fits w bytes as signed or as unsigned. -/
def fitsBytes (w : Nat) (x : Word) : Bool := (signedField (8 * w) x).isSome || (unsignedField (8 * w) x).isSome

/-! Instructions of an object. -/

/-- The written instruction, and its reference if it has one; none where nothing encodes it. -/
def Obj.encodes (o : Obj) (cond : Option (Fin 8 × Fin 2)) (mn : Name) (ops : List (Opnd Expr)) : Option (Instr × Option Ref) :=
  let pos := BitVec.ofNat 64 (o.pos + if cond.isSome then 2 else 0)
  let ok := fun (i : Instr) => match cond with
    | some (p, sense) => zilasTakesUnder o.version p sense i
    | none => zilasTakes o.version i
  let try' := fun (hole : Word) => (o.resolveOps hole ops).bind fun r => (written mn r.1 pos).map fun i => (i, r.2)
  match (try' 0).orElse fun _ => try' pos with
  | some (i, []) => if ok i then some (i, none) else none
  | some (i, [v]) => (relocOf i v.piece).bind fun k =>
      if ok i && ((k != .b13 && k != .j23) || v.x == 0) then some (i, some { kind := k, sym := v.ext.getD [], add := v.x }) else none
  | _ => none

/-- An instruction of the source. One that has no encoding yet takes the place of a halfword, and of a word if `wide` names it; the
least forms that fit together are the compact ones, and one that needed 32 bits keeps them (DESIGN CHOICE, log 76). -/
def Obj.instr (o : Obj) (cond : Option (Fin 8 × Fin 2)) (mn : Name) (ops : List (Opnd Expr)) : Obj :=
  let front := match cond with
    | some (p, sense) => [Chunk.raw (instrBytes (.pfx p sense))]
    | none => []
  let n := o.seen
  let o := { o with begun := true, seen := n + 1 }
  match o.encodes cond mn ops with
  | none => { o.put (front ++ [.raw (leBytes (if o.wide.contains n then 4 else 2) 0)]) with bad := true, stuck := o.stuck ++ [n] }
  | some (i, some r) => { o.put (front ++ [.ref 4 (encode i) r]) with wide := setAdd o.wide n }
  | some (i, none) =>
    let c := compactForm i
    if c.size = 2 && !o.wide.contains n then o.put (front ++ [.raw (instrBytes c)])
    else { o.put (front ++ [.raw (instrBytes i)]) with wide := setAdd o.wide n }

/-! Directives (R364). -/

/-- A value of `.byte` to `.dword`; what waits for the link is a WORD32 or a DWORD64. -/
def Obj.datum (o : Obj) (w : Nat) (ts : List Lexeme) : Obj :=
  match expression ts with
  | some (e, []) =>
    match o.linear e with
    | some { x := x, ext := none, .. } => if fitsBytes w x then o.put [.raw (leBytes w x.toNat)] else { o.put [.raw (leBytes w 0)] with bad := true }
    | some { x := x, ext := some n, .. } =>
      if w = 4 then o.put [.ref 4 0 { kind := .word32, sym := n, add := x }]
      else if w = 8 then o.put [.ref 8 0 { kind := .dword64, sym := n, add := x }]
      else { o.put [.raw (leBytes w 0)] with bad := true }
    | none => { o.put [.raw (leBytes w 0)] with bad := true }
  | _ => { o with bad := true }

/-- A bare word among a directive's operands, in small letters. -/
def wordOf : List Lexeme → Option Name
  | [.name n] => some (lower n)
  | _ => none

/-- `key=value` among a directive's operands. -/
def keyOf : List Lexeme → Option (Name × List Lexeme)
  | .name n :: .op '=' :: r => some (lower n, r)
  | _ => none

/-- The bit of a class of `.inherit` (R169). -/
def inheritBit (n : Name) : Option Nat :=
  let fixed := [("s8", 0), ("s16", 1), ("s24", 2), ("v0", 3), ("v16", 4), ("sem", 21)]
  match (fixed.find? fun e => spells n e.1).map (·.2) with
  | some b => some b
  | none => match n with
    | 'a' :: r => (indexBelow 8 r).map (5 + ·)
    | 'r' :: 'e' :: 'g' :: 'i' :: 'o' :: 'n' :: r => (indexBelow 8 r).map (13 + ·)
    | 'q' :: r => (indexBelow 8 r).map (22 + ·)
    | _ => none

/-- A later operand of `.channel`. -/
def Obj.chanOpt (o : Obj) (c : ChanDecl) (ts : List Lexeme) : Option ChanDecl :=
  match wordOf ts, keyOf ts with
  | some w, _ => if spells w "serial" then some { c with serial := true } else if spells w "persist" then some { c with persist := true } else none
  | none, some (k, r) =>
    if spells k "prio" then (o.below 4 r).map fun x => { c with prio := x }
    else if spells k "vc" then (o.below 4 r).bind fun x => if x = 1 then none else some { c with vc := x }
    else none
  | none, none => none

/-- One directive inside a kernel; none is an error of the assembly. -/
def Obj.directive (o : Obj) (d : Name) (ts : List Lexeme) : Option Obj :=
  let as := dirArgs ts
  let is := spells d
  let check := fun (b : Bool) (o : Obj) => if b then some o else none
  let chan := fun (n : Nat) => decide (n < 30) || n == 31
  let bare := ts.isEmpty
  if is "ver" then
    (o.worth ts).bind fun x => check (decide (1 ≤ x.toNat) && decide (x.toNat ≤ 3) && o.ver.isNone && !o.begun) { o with ver := some x.toNat }
  else if is "shape" then
    match as.mapM (o.below 65536) with
    | some [r, c] => check o.shape.isNone { o with shape := some (r, c, 0, 0) }
    | some [r, c, k] => check (o.shape.isNone && decide (k < 256)) { o with shape := some (r, c, k, 0) }
    | some [r, c, k, m] => check (o.shape.isNone && decide (k < 256)) { o with shape := some (r, c, k, m) }
    | _ => none
  else if is "wid" then
    (as.mapM (o.below 65)).bind fun ws => check (decide (ws.length ≤ 6) && decide (ws.sum ≤ 64)) { o with widths := ws }
  else if is "channel" then
    match as with
    | n :: [.name l] :: r => (o.below 32 n).bind fun n => (r.foldlM (Obj.chanOpt o) { label := l }).bind fun c =>
        check (chan n && (mapGet? o.chans n).isNone) { o with chans := o.chans ++ [(n, c)] }
    | _ => none
  else if is "energy" then
    let set := fun (n nJ mA w : List Lexeme) =>
      match o.below 32 n, o.below 65536 nJ, o.below 4096 mA, o.below 16 w with
      | some n, some e, some p, some w => check (chan n && w != 0) { o with power := mapPut o.power n (e, p, w) }
      | _, _, _, _ => none
    match as with
    | [n, e, p] => set n e p [.num 8]
    | [n, e, p, w] => set n e p w
    | _ => none
  else if is "region" then
    match as.mapM (o.below (2 ^ 32)) with
    | some [i, b, n] => check (decide (i < 8) && b % 256 == 0 && n % 256 == 0) { o with regions := mapPut o.regions i (b, n) }
    | _ => none
  else if is "inherit" then
    match as.map wordOf with
    | some w :: c :: cs => ((c :: cs).mapM fun (x : Option Name) => x.bind inheritBit).bind fun bs =>
        let m := bs.foldl (fun m b => Nat.lor m (2 ^ b)) 0
        if spells w "offer" then some { o with offer := Nat.lor o.offer m }
        else if spells w "accept" then some { o with accept := Nat.lor o.accept m } else none
    | _ => none
  else if is "text" then check bare { o with inData := false }
  else if is "data" then
    if bare then check o.dataBase.isSome { o with inData := true }
    else (o.below (2 ^ 32) ts).bind fun a => check (a % 16 == 0 && o.dataBase.isNone) { o with inData := true, dataBase := some a }
  else if is "align" then
    (o.worth ts).bind fun a => check ((List.range 13).any fun k => decide (1 ≤ k) && a.toNat == 2 ^ k)
      (o.put [.raw (List.replicate ((a.toNat - o.pos % a.toNat) % a.toNat) 0)])
  else if is "byte" then some (as.foldl (fun o => Obj.datum o 1) o)
  else if is "half" then some (as.foldl (fun o => Obj.datum o 2) o)
  else if is "word" then some (as.foldl (fun o => Obj.datum o 4) o)
  else if is "dword" then some (as.foldl (fun o => Obj.datum o 8) o)
  else if is "fill" then
    match as with
    | [n, b] => (o.below (2 ^ 24 + 1) n).bind fun n => (o.below 256 b).map fun b => o.put [.raw (List.replicate n (BitVec.ofNat 8 b))]
    | _ => none
  else if is "equ" then
    match as with
    | [[.name n], e] => (o.now e).bind fun x => o.define n x false
    | _ => none
  else if is "global" then
    (as.mapM fun (a : List Lexeme) => match a with
      | [.name n] => some n
      | _ => none).map fun ns => { o with globals := o.globals ++ ns }
  else none

/-- What a line made of the object; where it is an error, it does nothing in this pass. -/
def Obj.orBad (o : Obj) (r : Option Obj) : Obj := r.getD { o with bad := true }

/-- One line of a kernel. -/
def Obj.line (o : Obj) (l : SrcLine) : Obj :=
  let o := match l.label with
    | some n => o.orBad (o.define n (BitVec.ofNat 64 o.pos) true)
    | none => o
  match l.stmt with
  | .none => o
  | .dir d ts => o.orBad (o.directive d ts)
  | .instr cond mn ops => o.orBad (if o.inData then none else some (o.instr cond mn ops))

/-- Names that the lines define: labels and names of `.equ`. -/
def localNames (ls : List SrcLine) : List Name :=
  ls.flatMap fun l => l.label.toList ++ (match l.stmt with
    | .dir d (.name n :: _) => if spells d "equ" then [n] else []
    | _ => [])

/-- A later operand of `.kernel`. -/
def Obj.kernelOpt (o : Obj) (k : KernelDecl) (ts : List Lexeme) : Option KernelDecl :=
  match wordOf ts, keyOf ts with
  | some w, _ => if spells w "fallback" then some { k with fallback := true } else if spells w "maint" then some { k with maint := true } else none
  | none, some (key, r) =>
    if spells key "wdog" then (o.below 65536 r).map fun x => { k with wdog := x }
    else if spells key "args" then (o.below 4097 r).bind fun x => if x % 16 = 0 then some { k with args := x } else none
    else if spells key "stack" then (o.below (2 ^ 32) r).bind fun x => if x % 16 = 0 then some { k with stack := x } else none
    else none
  | none, none => none

/-- The operands of `.kernel` after the name. -/
def Obj.declare (o : Obj) (as : List (List Lexeme)) : Obj :=
  match as.foldlM o.kernelOpt o.decl with
  | some k => { o with decl := k }
  | none => { o with bad := true }

/-- Passes over the lines until the names keep their values; n bounds them. An error counts only there, since a name's value before
it is provisional; an instruction that no form expresses with those values is tried in the place of a word first (log 76). -/
def assembleN (start : Obj) (as : List (List Lexeme)) (ls : List SrcLine) : Nat → List SymDef → List Nat → Option Obj
  | 0, _, _ => none
  | n + 1, known, wide =>
    let o := ls.foldl Obj.line ({ start with known := known, wide := wide, locals := localNames ls }.declare as)
    if o.bad then
      let w := o.stuck.foldl setAdd wide
      if o.syms ≠ known then assembleN start as ls n o.syms wide
      else if w = wide then none else assembleN start as ls n known w
    else if o.syms = known ∧ o.wide = wide then some o else assembleN start as ls n o.syms o.wide

/-- zilas: the object of a kernel's source at its place in the link, with the DATABASE if an object before it has set one. -/
def assemble (k : KernelSrc) (textAt dataAt : Nat) (dataBase : Option Nat) : Option Obj :=
  assembleN { decl := k.decl, textAt := textAt, dataAt := dataAt, dataBase := dataBase } k.opts k.lines (3 * k.lines.length + 8) [] []

/-! Source files: kernels between `.kernel` and `.kend`. -/

/-- Lines of a source file; a semicolon's comment and the line end are not part of what they hold. -/
def splitLines : List Char → List (List Char)
  | [] => [[]]
  | c :: r =>
    match splitLines r with
    | [] => [[c]]
    | w :: ws => if c = '\n' then [] :: w :: ws else (c :: w) :: ws

/-- The kernel that `.kernel` opens. -/
def kernelOpen (ts : List Lexeme) : Option KernelSrc :=
  match dirArgs ts with
  | [.name n] :: r => if freeName n then some { decl := { name := n }, opts := r, lines := [] } else none
  | _ => none

/-- The kernels of a source file; `cur` is the one that is open. -/
def kernelsOf : Option KernelSrc → List SrcLine → Option (List KernelSrc)
  | none, [] => some []
  | some _, [] => none
  | cur, l :: r =>
    match cur, l.stmt with
    | none, .none => if l.label.isNone then kernelsOf none r else none
    | none, .dir d ts =>
      if spells d "kernel" && l.label.isNone then (kernelOpen ts).bind fun k => kernelsOf (some k) r else none
    | none, .instr _ _ _ => none
    | some k, .dir d ts =>
      if spells d "kend" then
        if ts.isEmpty then
          let k := if l.label.isSome then { k with lines := k.lines ++ [{ l with stmt := .none }] } else k
          (kernelsOf none r).map (k :: ·)
        else none
      else kernelsOf (some { k with lines := k.lines ++ [l] }) r
    | some k, _ => kernelsOf (some { k with lines := k.lines ++ [l] }) r

/-- zilas on the text of a source file. -/
def source (t : List Char) : Option (List KernelSrc) := ((splitLines t).mapM srcLine).bind (kernelsOf none)

/-! The link (R365). -/

/-- The value of a symbol that another object exports: a label (R364). -/
def exported (all : List Obj) (n : Name) : Option Word :=
  all.findSome? fun o => if o.globals.contains n then (findSym o.syms n).bind fun y => if y.label then some y.value else none else none

/-- The bytes of a chunk at a location. -/
def Chunk.bytes (env : Name → Option Word) (pos : Nat) : Chunk → Option (List Byte)
  | .raw bs => some bs
  | .ref w x r => (env r.sym).bind fun s => (r.kind.value s r.add (BitVec.ofNat 64 pos)).map fun f => leBytes w (r.kind.patch x f)

/-- The bytes of a section that begins at `pos`. -/
def sectionBytes (env : Name → Option Word) : Nat → List Chunk → Option (List Byte)
  | _, [] => some []
  | pos, c :: r => (c.bytes env pos).bind fun b => (sectionBytes env (pos + c.size) r).map (b ++ ·)

/-- The handler-table word of a channel (R27). -/
def chanEntry (c : ChanDecl) (p : Nat × Nat × Nat) (entry : Nat) : Nat :=
  p.2.1 * 2 ^ 52 + p.1 * 2 ^ 36 + p.2.2 * 2 ^ 32 + c.vc * 2 ^ 30 + b2n c.persist * 2 ^ 29 + b2n c.serial * 2 ^ 28 + c.prio * 2 ^ 24 + entry

/-- The first of the objects that says something, or a default. -/
def firstOf {α : Type} (os : List Obj) (f : Obj → Option α) (d : α) : α := (os.findSome? f).getD d

/-- The kernel header (R168). -/
def headerBytes (os : List Obj) (k : KernelDecl) (imgSize chTab dataBase dataSize : Nat) : List Byte :=
  let chans := os.flatMap (·.chans)
  let (r, c, kind, m) := firstOf os (·.shape) (0, 0, 0xFF, 0)
  let ws := firstOf os (fun o => if o.widths.isEmpty then none else some o.widths) []
  let valid := (chans.map fun e => 2 ^ e.1).sum
  let argBase := 0x5C000 - k.args
  let regions := os.flatMap (·.regions)
  leBytes 4 0x314B4C5A ++ leBytes 1 (firstOf os (·.ver) 3) ++ leBytes 1 (b2n k.fallback + 2 * b2n k.maint) ++ leBytes 2 0 ++
    leBytes 4 imgSize ++ leBytes 4 valid ++ leBytes 4 chTab ++ ((List.range 6).map fun i => BitVec.ofNat 8 (ws.getD i 0)) ++
    leBytes 2 k.wdog ++ leBytes 2 r ++ leBytes 2 c ++ leBytes 2 m ++ leBytes 1 kind ++ leBytes 1 0 ++
    leBytes 4 (argBase - 4 * k.stack) ++ leBytes 4 k.stack ++ leBytes 4 argBase ++ leBytes 4 k.args ++ leBytes 4 dataBase ++
    leBytes 4 dataSize ++ leBytes 4 (os.foldl (fun n o => Nat.lor n o.accept) 0) ++ leBytes 4 (os.foldl (fun n o => Nat.lor n o.offer) 0) ++
    leBytes 4 0 ++ ((List.range 8).flatMap fun i => let g := mapGetD regions i (0, 0); leBytes 4 g.1 ++ leBytes 4 g.2) ++ List.replicate 120 0

/-- zilld refuses stacks that reach below address 0, data or a region that overlaps the stacks or the argument area, and what would
fail with LAYOUT. -/
def layoutOk (k : KernelDecl) (f : KernelFile) : Bool :=
  let top := (f.stkBase, 4 * f.stkSize + f.argSize)
  decide (4 * k.stack + k.args ≤ 0x5C000) && disjoint (f.dataBase, f.dataSize) top && (KernelFile.regions f).all (fun r => disjoint r top) &&
    headerStatus f != 5

/-- The objects of a kernel in link order, each at its place: text after text, and data after data from the DATABASE that one of them
sets (DESIGN CHOICE, log 76). -/
def objectsOf (ks : List KernelSrc) : Option (List Obj) :=
  ks.foldlM (fun (os : List Obj) k =>
    (assemble k (os.map fun o => sizeOf' o.text).sum (os.map fun o => sizeOf' o.data).sum (os.findSome? (·.dataBase))).map fun o => os ++ [o]) []

/-- zilld: the kernel file of the objects of a kernel, in link order. -/
def link (ks : List KernelSrc) : Option KernelFile :=
  (objectsOf ks).bind fun os =>
    let k := (os.head?.map (·.decl)).getD { name := [] }
    let dataBase := firstOf os (·.dataBase) 0
    let env := exported os
    let text := os.foldlM (fun (b : List Byte) o => (sectionBytes env o.textAt o.text).map (b ++ ·)) []
    let data := os.foldlM (fun (b : List Byte) o => (sectionBytes env (dataBase + o.dataAt) o.data).map (b ++ ·)) []
    let chans := os.flatMap fun o => o.chans.map fun e => (e.1, o, e.2)
    let power := os.flatMap (·.power)
    let entryOf := fun (i : Nat) => match mapGet? chans i with
      | none => some 0
      | some (o, c) => (((findSym o.syms c.label).map SymDef.value).orElse fun _ => env c.label).bind fun s =>
          (Reloc.entry24.value s 0 0).map (chanEntry c (mapGetD power i (0, 0, 8)))
    match text, data, (List.range 32).mapM entryOf with
    | some text, some data, some es =>
      let chTab := (text.length + 7) / 8 * 8
      let image := text ++ List.replicate (chTab - text.length) 0 ++ es.flatMap (leBytes 8)
      let f : KernelFile := { header := headerBytes os k image.length chTab dataBase data.length, image := image, data := data }
      if (mapGet? chans 0).isSome && (chans.map (·.1)).Nodup && layoutOk k f then some f else none
    | _, _, _ => none

/-- zilas and zilld on source files in link order: each kernel by its name, with its kernel file (DESIGN CHOICE, log 76). -/
def build (files : List (List Char)) : Option (List (Name × KernelFile)) :=
  (files.mapM source).bind fun fs =>
    let ks := fs.flatten
    let names := ks.foldl (fun (l : List Name) k => if l.contains k.decl.name then l else l ++ [k.decl.name]) []
    names.mapM fun n => (link (ks.filter fun k => k.decl.name == n)).map fun f => (n, f)

/-! Conventions of code that calls across objects (R367). -/

/-- A callee leaves the register as it finds it: it does not write it, or saves it. -/
def keptAcrossCall (c : RegKind) (n : Nat) : Bool :=
  match c with
  | .s => decide (1 ≤ n) && decide (n ≤ 4) || decide (20 ≤ n) && decide (n ≤ 30)
  | .v => decide (16 ≤ n)
  | _ => false

/-- The stack of context c: from STKBASE + c·STKSIZE up to its entry value of s30 (R31), downward. -/
def stackOf (f : KernelFile) (c : Nat) : Nat × Nat := (f.stkBase + c * f.stkSize, f.stkBase + (c + 1) * f.stkSize)

end Sys2Proof.Machine
end

