-- ==== Sys2Proof/Tests/Slice0.lean ====
section
/-! SUPPORT. Tests: what WellFormed refuses, words written out from the encoding tables, single steps, and for each statement
with hypotheses a witness that meets them. -/

set_option maxRecDepth 100000

namespace Sys2Proof.Tests

open Sys2Proof Sys2Proof.Machine

/-! Terms that WellFormed refuses, one for each check, each beside a neighbour that it admits. -/

/-- The first of each pair is ill-formed, the second well-formed. -/
abbrev Refuses (l : List (Instr × Instr)) : Prop := ∀ e ∈ l, e.1.wf = false ∧ e.2.wf = true

/-- An instruction whose one effect is a register does not name s0 or p0 (R52). -/
theorem test_refuses_zero_destination :
    Refuses ([.add 0 1 2, .sub 0 1 2, .mul 0 1 2, .mulh 0 1 2, .mulhu 0 1 2, .div 0 1 2, .divu 0 1 2, .rem 0 1 2, .remu 0 1 2, .and 0 1 2,
      .or 0 1 2, .xor 0 1 2, .shl 0 1 2, .shr 0 1 2, .sha 0 1 2, .min 0 1 2, .max 0 1 2, .minu 0 1 2, .maxu 0 1 2, .slt 0 1 2, .sltu 0 1 2,
      .seq 0 1 2, .clz 0 1, .ctz 0 1, .popc 0 1, .mov 0 1, .sel 0 1 2 1, .tileid 0, .gaddr 0 1 2, .widF 0 1 0, .addi 0 1 0, .andi 0 1 0,
      .ori 0 1 0, .xori 0 1 0, .slti 0 1 0, .li 0 0, .lih 0 1 0, .shli 0 1 0, .shri 0 1 0, .shai 0 1 0, .bext 0 1 0 0, .bins 0 1 0 0,
      .ldI8 0 1 0, .ldN8 0 1 0, .ldI16 0 1 0, .ldN16 0 1 0, .ldI32 0 1 0, .ldN32 0 1 0, .ldI64 0 1 0, .ldf32 0 1 0, .ldf64 0 1 0, .xrd 0 1 0,
      .foldrd 0 0, .vext 0 1 0 0, .mxstat 0 0, .phnext 0 1, .vld 0 1 2, .sysr 0 0 0, .karg 0 0, .pstat 0, .cntrd 0 1, .msgid 0, .qcnt 0 0,
      .lgd 0 1, .cAlu 0 1 0, .cAddi 0 0, .cLi 0 0, .pset 0 1, .pand 0 1 2, .por 0 1 2, .pxor 0 1 2, .pnot 0 1, .vcmpeq 0 0 1 2 9,
      .vcmplt 0 0 1 2 9, .vcmple 0 0 1 2 9].map fun i => (i, .jalr 0 1 0)) := by decide

/-- Fields beyond what they name: predicates, registers of other kinds, literals (R51, R57, R58, R65, R68 to R70). -/
theorem test_refuses_fields :
    Refuses [(.sel 1 1 2 0, .sel 1 1 2 7), (.widF 1 1 6, .widF 1 1 5), (.bext 1 2 33 31, .bext 1 2 32 31), (.bins 1 2 57 7, .bins 1 2 56 7),
      (.pset 8 1, .pset 7 1), (.pand 8 1 2, .pand 7 7 7), (.pand 1 8 2, .pand 1 7 2), (.pand 1 2 8, .pand 1 2 7), (.por 8 1 2, .por 7 1 2),
      (.por 1 8 2, .por 1 0 2), (.por 1 2 8, .por 1 2 0), (.pxor 8 1 2, .pxor 7 1 2), (.pxor 1 8 2, .pxor 1 7 2), (.pxor 1 2 8, .pxor 1 2 7),
      (.pnot 8 1, .pnot 7 1), (.pnot 1 8, .pnot 1 7), (.ldPostinc 5 5 6 0, .ldPostinc 5 5 7 0), (.stPostinc 1 2 5 0, .stPostinc 1 2 4 0),
      (.bp 8 0, .bp 7 0), (.bnp 8 0, .bnp 7 0), (.foldrd 1 2, .foldrd 1 1), (.vsel 1 2 3 0, .vsel 1 2 3 1), (.vext 1 2 16 1, .vext 1 2 15 1),
      (.vext 1 2 4 3, .vext 1 2 3 3), (.vunpk 1 2 2 1, .vunpk 1 2 1 1), (.skld 4 1, .skld 3 1), (.accrd 31 0 0, .accrd 30 0 0),
      (.accwr 0 31 0, .accwr 0 30 0), (.semset 16 1, .semset 15 1), (.semadd 16 1, .semadd 15 1), (.semadd 0 0, .semadd 0 31),
      (.semwait 16 1, .semwait 15 1), (.semwait 0 0, .semwait 0 1), (.phreg 1 2 3, .phreg 1 2 2), (.phwait 8 1 2, .phwait 7 1 2),
      (.bar 4, .bar 3), (.bara 1 4, .bara 1 3), (.barw 8 0 1, .barw 7 0 1), (.barw 1 4 1, .barw 1 3 1), (.fence 6, .fence 5),
      (.karg 1 16, .karg 1 15), (.pgate 1 3, .pgate 1 2), (.qpush 1 8 0, .qpush 1 7 0), (.qpush 1 1 4, .qpush 1 1 6), (.qpop 1 8 0, .qpop 1 7 0),
      (.qpop 1 1 8, .qpop 1 1 7), (.qpeek 1 8 0, .qpeek 1 7 0), (.qpeek 1 1 8, .qpeek 1 1 7), (.qcnt 1 8, .qcnt 1 7), (.qpushw 1 5, .qpushw 1 3),
      (.qpopw 1 8, .qpopw 1 7), (.rpush 1 8 2, .rpush 1 7 2), (.rpop 1 8 2, .rpop 1 7 2), (.chmask 1 2, .chmask 1 1), (.pfx 0 0, .pfx 7 1),
      (.vcmpeq 0 8 1 2 9, .vcmpeq 0 7 1 2 9), (.vcmplt 0 8 1 2 9, .vcmplt 0 7 1 2 9), (.vcmple 0 8 1 2 9, .vcmple 0 7 1 2 9)] := by decide

/-- Types and modes that an instruction does not have (R61, R62, R122, R123, R129 to R136, R246), the space code 3 of an atomic
(R66), system register numbers that are not assigned (R147). -/
theorem test_refuses_types :
    Refuses [(.vadd 1 1 2 3 0, .vadd 1 1 2 3 9), (.vsub 0 1 2 3 10, .vsub 0 1 2 3 7), (.vmul 0 1 2 3 11, .vmul 0 1 2 3 0),
      (.vfma 2 1 2 3 2, .vfma 2 1 2 3 8), (.vmin 3 1 2 3 4, .vmin 3 1 2 3 9), (.vmax 0 1 2 3 13, .vmax 0 1 2 3 1), (.vcmpeq 1 1 2 3 0, .vcmpeq 0 1 2 3 0),
      (.vcmplt 0 1 2 3 10, .vcmplt 0 1 2 3 9), (.vcmple 2 1 2 3 5, .vcmple 2 1 2 3 8), (.vredAdd 1 1 2 0, .vredAdd 0 1 2 0),
      (.vredMax 0 1 2 10, .vredMax 0 1 2 9), (.vredMin 3 1 2 7, .vredMin 3 1 2 9), (.vcvt 0 1 2 2 3, .vcvt 0 1 2 2 9), (.vcvt 1 1 2 0 10, .vcvt 0 1 2 0 10),
      (.vdot 0 1 2 3 2, .vdot 0 1 2 3 1), (.vdot 1 1 2 3 0, .vdot 1 1 2 3 8), (.vscale 0 1 2 3 0, .vscale 0 1 2 3 8), (.vpack 0 1 2 3 3, .vpack 0 1 2 3 2),
      (.vpack 1 1 2 3 0, .vpack 1 1 2 3 10), (.vabs 1 2 4, .vabs 1 2 3), (.vneg 1 2 10, .vneg 1 2 9), (.vshl 1 2 3 8, .vshl 1 2 3 7),
      (.vshr 1 2 3 9, .vshr 1 2 3 0), (.vsha 1 2 3 10, .vsha 1 2 3 3), (.vbcast 1 2 11, .vbcast 1 2 10), (.vext 1 2 0 11, .vext 1 2 0 10),
      (.vperm 1 2 3 12, .vperm 1 2 3 10), (.vshuf 1 2 3 13, .vshuf 1 2 3 10), (.vrcp 1 2 0, .vrcp 1 2 8), (.vrsq 1 2 10, .vrsq 1 2 9),
      (.vexp2 1 2 7, .vexp2 1 2 9), (.vmaxexp 1 2 10, .vmaxexp 1 2 8), (.vunpk 1 2 0 0, .vunpk 1 2 0 8), (.acccvt 1 0 0 2, .acccvt 1 0 0 1),
      (.aadd 1 2 3 0 3, .aadd 1 2 3 0 2), (.aand 1 2 3 0 3, .aand 1 2 3 1 0), (.aor 1 2 3 0 3, .aor 1 2 3 0 1), (.axor 1 2 3 0 3, .axor 1 2 3 0 2),
      (.amin 1 2 3 0 3, .amin 1 2 3 0 2), (.amax 1 2 3 0 3, .amax 1 2 3 0 2), (.aminu 1 2 3 0 3, .aminu 1 2 3 0 2), (.amaxu 1 2 3 0 3, .amaxu 1 2 3 0 2),
      (.aswap 1 2 3 0 3, .aswap 1 2 3 0 2), (.acas 1 2 3 0 3, .acas 1 2 3 0 2), (.sysr 1 0 12, .sysr 1 0 11), (.sysr 1 0 20, .sysr 1 0 19),
      (.sysw 1 0 15, .sysw 1 0 16), (.sysw 1 1 0, .sysw 1 0 3)] := by decide

/-- A prefix before what it may not govern, and version limits, stop an admitted word where it runs (R55, R72). -/
theorem test_versions :
    (State.reset.modSite 0 fun x => { x with krn := { x.krn with ver := 1 } }).legal (.retireS 1) = false ∧
    (State.reset.modSite 0 fun x => { x with krn := { x.krn with ver := 2 } }).legal (.retireS 1) = true ∧
    (State.reset.modSite 0 fun x => { x with krn := { x.krn with ver := 2 } }).legal (.vmaxexp 1 2 8) = false ∧
    State.reset.legal (.vmaxexp 1 2 8) = true ∧ State.reset.legal (.lgd 1 2) = false ∧
    ({ State.reset with cur := (8192, 0) } : State).legal (.lgd 1 2) = true := by decide

/-! The five word forms and the compact ones, fields from the highest bits down (R48, R49, R53). -/

def wA (f8 b a d major : Nat) : Nat := f8 * 2 ^ 24 + b * 2 ^ 19 + a * 2 ^ 14 + d * 2 ^ 9 + major * 2 ^ 3 + 7
def wI (imm13 a d major : Nat) : Nat := imm13 * 2 ^ 19 + a * 2 ^ 14 + d * 2 ^ 9 + major * 2 ^ 3 + 7
def wB (imm13 b a major : Nat) : Nat := imm13 * 2 ^ 19 + b * 2 ^ 14 + a * 2 ^ 9 + major * 2 ^ 3 + 7
def wJ (imm23 major : Nat) : Nat := imm23 * 2 ^ 9 + major * 2 ^ 3 + 7
def wV (vop vtype vb va vd major : Nat) : Nat := wA (vop * 16 + vtype) vb va vd major

/-- Every word of a list decodes to the instruction beside it. -/
abbrev Decodes (n : Nat) (l : List (Nat × Instr)) : Prop := ∀ e ∈ l, decodeTableWord n e.1 = some e.2

/-- Words and bytes that the manual prints: the fragment after R73, the persistence and versioned-word rows. -/
theorem test_printed_words :
    Decodes 32 [(0x42104BCF, .qpop 5 1 2), (0x0028032F, .bp 1 5), (0xFFFFF737, .j (-5)), (0x00398A07, .add 5 6 7),
      (0x002092AF, .ldN32 9 2 4), (0x12000BC7, .pstat 5), (0x130981C7, .pgate 6 1), (0x18398BBF, .vst 5 6 7),
      (0x192993BF, .vld 9 6 5), (0xFFFFFFFF, .illW)] ∧
    Decodes 16 [(0x0010, .yield), (0x0531, .cAlu 6 5 0), (0x0018, .retire), (0x0000, .ill)] := by decide

/-- Majors 0x00 and 0x0E (R58, R59). -/
theorem test_decode_alu :
    Decodes 32 [(wA 0x00 3 2 1 0x00, .add 1 2 3), (wA 0x01 3 2 1 0x00, .sub 1 2 3), (wA 0x02 3 2 1 0x00, .mul 1 2 3),
      (wA 0x03 3 2 1 0x00, .mulh 1 2 3), (wA 0x04 3 2 1 0x00, .mulhu 1 2 3), (wA 0x05 3 2 1 0x00, .div 1 2 3),
      (wA 0x06 3 2 1 0x00, .divu 1 2 3), (wA 0x07 3 2 1 0x00, .rem 1 2 3), (wA 0x08 3 2 1 0x00, .remu 1 2 3),
      (wA 0x10 3 2 1 0x00, .and 1 2 3), (wA 0x11 3 2 1 0x00, .or 1 2 3), (wA 0x12 3 2 1 0x00, .xor 1 2 3),
      (wA 0x18 3 2 1 0x00, .shl 1 2 3), (wA 0x19 3 2 1 0x00, .shr 1 2 3), (wA 0x1A 3 2 1 0x00, .sha 1 2 3),
      (wA 0x20 3 2 1 0x00, .min 1 2 3), (wA 0x21 3 2 1 0x00, .max 1 2 3), (wA 0x22 3 2 1 0x00, .minu 1 2 3),
      (wA 0x23 3 2 1 0x00, .maxu 1 2 3), (wA 0x28 3 2 1 0x00, .slt 1 2 3), (wA 0x29 3 2 1 0x00, .sltu 1 2 3),
      (wA 0x2A 3 2 1 0x00, .seq 1 2 3), (wA 0x30 0 2 1 0x00, .clz 1 2), (wA 0x31 0 2 1 0x00, .ctz 1 2),
      (wA 0x32 0 2 1 0x00, .popc 1 2), (wA 0x33 0 2 1 0x00, .mov 1 2), (wA 0x3D 3 2 1 0x00, .sel 1 2 3 5),
      (wA 0x40 0 0 31 0x00, .tileid 31), (wA 0x41 31 30 29 0x00, .gaddr 29 30 31), (wA 0x4D 0 2 1 0x00, .widF 1 2 5)] ∧
    Decodes 32 [(wA 0x00 0 2 7 0x0E, .pset 7 2), (wA 0x01 3 2 1 0x0E, .pand 1 2 3), (wA 0x02 3 2 1 0x0E, .por 1 2 3),
      (wA 0x03 3 2 1 0x0E, .pxor 1 2 3), (wA 0x04 0 2 1 0x0E, .pnot 1 2)] := by decide

/-- The I forms (R56, R57). -/
theorem test_decode_immediates :
    Decodes 32 [(wI 0x1FFF 2 1 0x01, .addi 1 2 (-1)), (wI 0x1000 2 1 0x02, .andi 1 2 (-4096)), (wI 5 2 1 0x03, .ori 1 2 5),
      (wI 5 2 1 0x04, .xori 1 2 5), (wI 5 2 1 0x05, .slti 1 2 5), (wI 0x0FFF 0 1 0x06, .li 1 4095), (wI 5 2 1 0x07, .lih 1 2 5),
      (wI (0 * 64 + 63) 2 1 0x08, .shli 1 2 63), (wI (1 * 64 + 9) 2 1 0x08, .shri 1 2 9), (wI (2 * 64 + 9) 2 1 0x08, .shai 1 2 9),
      (wI (31 * 64 + 32) 2 1 0x09, .bext 1 2 32 31), (wI (7 * 64 + 8) 2 1 0x0A, .bins 1 2 8 7), (wI 6 2 1 0x0B, .jalr 1 2 6),
      (wI 0xFF 2 31 0x0C, .loop 31 2 (-1)), (wI 0x1FFF 31 3 0x0D, .loopi 3 31 8191)] := by decide

/-- Local memory (R56, R60). -/
theorem test_decode_memory :
    Decodes 32 [(wA 0x80 7 2 1 0x0F, .ldPostinc 1 2 7 (-128)), (wI 5 2 1 0x10, .ldI8 1 2 5), (wI 5 2 1 0x11, .ldN8 1 2 5),
      (wI 5 2 1 0x12, .ldI16 1 2 5), (wI 5 2 1 0x13, .ldN16 1 2 5), (wI 5 2 1 0x14, .ldI32 1 2 5), (wI 5 2 1 0x15, .ldN32 1 2 5),
      (wI 5 2 1 0x16, .ldI64 1 2 5), (wI 5 2 1 0x17, .st8 1 2 5), (wI 5 2 1 0x18, .st16 1 2 5), (wI 5 2 1 0x19, .st32 1 2 5),
      (wI 5 2 1 0x1A, .st64 1 2 5), (wI 5 2 1 0x1B, .lv 1 2 5), (wI 5 2 1 0x1C, .sv 1 2 5), (wA 0x7F 4 2 1 0x1D, .stPostinc 1 2 4 127),
      (wA 0x03 3 2 1 0x1E, .lvs 1 2 3 3), (wA 0x12 3 2 1 0x1E, .lvg 1 2 3 2), (wA 0x21 3 2 1 0x1E, .svx 1 2 3 1)] := by decide

/-- Control transfer (R56). -/
theorem test_decode_branches :
    Decodes 32 [(wB 0x1FFE 2 1 0x1F, .beq 1 2 (-2)), (wB 2 2 1 0x20, .bne 1 2 2), (wB 2 2 1 0x21, .blt 1 2 2),
      (wB 2 2 1 0x22, .bge 1 2 2), (wB 2 2 1 0x23, .bltu 1 2 2), (wB 2 2 1 0x24, .bgeu 1 2 2), (wB 2 0 7 0x25, .bp 7 2),
      (wB 2 1 7 0x25, .bnp 7 2), (wJ 0x400000 0x26, .j (-4194304)), (wJ 0x3FFFFF 0x27, .jal 4194303)] := by decide

/-- Far loads and stores, atomics, exact sums, copies and folds (R56, R66, R67). -/
theorem test_decode_group :
    Decodes 32 [(wI 5 2 1 0x28, .ldf32 1 2 5), (wI 5 2 1 0x29, .ldf64 1 2 5), (wI 5 2 1 0x2A, .stf32 1 2 5), (wI 5 2 1 0x2B, .stf64 1 2 5),
      (wI 5 2 1 0x2C, .lvf 1 2 5), (wI 5 2 1 0x2D, .svf 1 2 5), (wA 0x00 3 2 1 0x2E, .aadd 1 2 3 0 0), (wA 0x51 3 2 1 0x2E, .aand 1 2 3 1 1),
      (wA 0x92 3 2 1 0x2E, .aor 1 2 3 1 2), (wA 0x03 3 2 1 0x2E, .axor 1 2 3 0 0), (wA 0x14 3 2 1 0x2E, .amin 1 2 3 1 0),
      (wA 0x45 3 2 1 0x2E, .amax 1 2 3 0 1), (wA 0x86 3 2 1 0x2E, .aminu 1 2 3 0 2), (wA 0x07 3 2 1 0x2E, .amaxu 1 2 3 0 0),
      (wA 0x18 3 2 1 0x2E, .aswap 1 2 3 1 0), (wA 0x99 3 2 1 0x2E, .acas 1 2 3 1 2)] ∧
    Decodes 32 [(wA 0x11 3 2 0 0x2F, .xaddf 2 3 1), (wA 0x12 0 2 1 0x2F, .xrd 1 2 0), (wA 0x14 0 2 0 0x2F, .xclr 2),
      (wA 0x23 3 2 1 0x2F, .cpy 1 2 3 3), (wA 0x24 0 0 1 0x2F, .cpypop 1), (wA 0x28 3 2 1 0x2F, .fold 1 2 3),
      (wA 0x29 0 1 5 0x2F, .foldrd 5 1)] := by decide

/-- Vector instructions (R61 to R64). -/
theorem test_decode_vector :
    Decodes 32 [(wV 0 0x9 3 2 1 0x30, .vadd 0 1 2 3 9), (wV 1 0x8 3 2 1 0x31, .vsub 1 1 2 3 8), (wV 2 0x9 3 2 1 0x32, .vmul 2 1 2 3 9),
      (wV 3 0x9 3 2 1 0x33, .vfma 3 1 2 3 9), (wV 4 0x0 3 2 1 0x30, .vmin 0 1 2 3 0), (wV 5 0x7 3 2 1 0x30, .vmax 0 1 2 3 7),
      (wV 6 0x4 3 2 1 0x30, .vcmpeq 0 1 2 3 4), (wV 7 0x9 3 2 7 0x30, .vcmplt 0 7 2 3 9), (wV 8 0x5 3 2 1 0x30, .vcmple 0 1 2 3 5),
      (wV 9 0x9 0 2 1 0x30, .vredAdd 0 1 2 9), (wV 0xA 0x1 0 2 1 0x30, .vredMax 0 1 2 1), (wV 0xB 0x6 0 2 1 0x30, .vredMin 0 1 2 6),
      (wV 0xC 0x2 0x9 2 1 0x31, .vcvt 1 1 2 9 2), (wV 0xD 0x0 3 2 1 0x30, .vdot 0 1 2 3 0), (wV 0xE 0x8 3 2 1 0x30, .vscale 0 1 2 3 8),
      (wV 0xF 0xA 3 2 1 0x32, .vpack 2 1 2 3 10)] ∧
    Decodes 32 [(wV 0 0x0 0 2 1 0x34, .vabs 1 2 0), (wV 1 0x9 0 2 1 0x34, .vneg 1 2 9), (wV 2 0 3 2 1 0x34, .vand 1 2 3),
      (wV 3 0 3 2 1 0x34, .vor 1 2 3), (wV 4 0 3 2 1 0x34, .vxor 1 2 3), (wV 5 0x1 3 2 1 0x34, .vshl 1 2 3 1), (wV 6 0x2 3 2 1 0x34, .vshr 1 2 3 2),
      (wV 7 0x3 3 2 1 0x34, .vsha 1 2 3 3), (wV 8 7 3 2 1 0x34, .vsel 1 2 3 7), (wV 9 0xA 0 2 1 0x34, .vbcast 1 2 10),
      (wV 0xA 0x0 31 2 1 0x34, .vext 1 2 31 0), (wV 0xB 0x3 3 2 1 0x34, .vperm 1 2 3 3), (wV 0xC 0x9 3 2 1 0x34, .vshuf 1 2 3 9),
      (wV 0 0x9 0 2 1 0x35, .vrcp 1 2 9), (wV 1 0x8 0 2 1 0x35, .vrsq 1 2 8), (wV 2 0x9 0 2 1 0x35, .vexp2 1 2 9),
      (wV 3 0x8 0 2 1 0x35, .vmaxexp 1 2 8), (wV 4 0x2 1 2 31 0x35, .vunpk 31 2 1 2)] := by decide

/-- Matrix instructions (R65): the port in the low two bits of xsub. -/
theorem test_decode_matrix :
    Decodes 32 [(wV 0 3 0 0 0 0x36, .mxopen 3), (wV 1 2 0 0 5 0x36, .mxcfg 5 2), (wV 2 1 0 31 0 0x36, .mxpush 31 1),
      (wV 3 0 31 2 0 0x36, .mxpushm 2 31 0), (wV 4 3 0 2 0 0x36, .mxscl 2 3), (wV 5 2 0 0 0 0x36, .mxclose 2), (wV 6 1 0 0 5 0x36, .mxstat 5 1),
      (wV 7 0 0 2 0 0x36, .msetm 2), (wV 8 0 0 2 3 0x36, .skld 3 2), (wV 9 0 0 0 7 0x36, .accz 7), (wV 0xA 0 15 7 1 0x36, .accrd 1 7 15),
      (wV 0xB 0 15 1 7 0x36, .accwr 7 1 15), (wV 0xC 0xA 15 7 1 0x36, .acccvt 1 7 15 10)] := by decide

/-- The S forms (R68 to R71). -/
theorem test_decode_system :
    Decodes 32 [(wA 0x00 0 2 15 0x37, .semset 15 2), (wA 0x01 0 31 15 0x37, .semadd 15 31), (wA 0x02 0 1 0 0x37, .semwait 0 1),
      (wA 0x08 2 2 1 0x37, .phreg 1 2 2), (wA 0x09 0 2 0 0x37, .phdrop 2), (wA 0x0A 0 2 1 0x37, .phsig 1 2), (wA 0x0B 3 2 7 0x37, .phwait 7 2 3),
      (wA 0x0C 0 2 1 0x37, .phnext 1 2), (wA 0x10 0 0 3 0x37, .bar 3), (wA 0x11 0 3 1 0x37, .bara 1 3), (wA 0x12 3 2 1 0x37, .barw 1 2 3),
      (wA 0x18 3 2 1 0x37, .vst 1 2 3), (wA 0x19 3 2 1 0x37, .vld 1 2 3), (wA 0x1A 3 2 0 0x37, .vrecl 2 3), (wA 0x20 0 0 5 0x37, .fence 5)] ∧
    Decodes 32 [(wA 0x00 0x13 0x00 1 0x38, .sysr 1 0 0x13), (wA 0x01 0x03 0x00 2 0x38, .sysw 2 0 3), (wA 0x02 30 31 0 0x38, .trap 31 30),
      (wA 0x03 0 0 0 0x38, .brk), (wA 0x04 0 0 0 0x38, .wfi), (wA 0x08 0 0 0 0x38, .retireWord), (wA 0x09 0 2 0 0x38, .retireS 2),
      (wA 0x0A 0 15 1 0x38, .karg 1 15), (wA 0x10 0 0 0 0x38, .pfenceT), (wA 0x11 0 0 0 0x38, .pfenceG), (wA 0x12 0 0 1 0x38, .pstat 1),
      (wA 0x13 2 1 0 0x38, .pgate 1 2), (wA 0x18 3 2 1 0x38, .tsend 1 2 3), (wA 0x19 0 2 1 0x38, .cntrd 1 2), (wA 0x1A 3 2 0 0x38, .cntset 2 3)] ∧
    Decodes 32 [(wA 0x1F 3 2 1 0x39, .send 1 2 3 31), (wA 0x20 3 2 1 0x39, .sendm 1 2 3 0), (wA 0x40 0 0 1 0x39, .msgid 1),
      (wA 0x41 6 2 1 0x39, .qpush 1 2 6), (wA 0x42 7 2 1 0x39, .qpop 1 2 7), (wA 0x43 4 2 1 0x39, .qpeek 1 2 4), (wA 0x44 3 0 1 0x39, .qcnt 1 3),
      (wA 0x45 0 0 1 0x39, .qpushw 1 0), (wA 0x46 5 0 1 0x39, .qpopw 1 5), (wA 0x47 3 2 1 0x39, .rpush 1 2 3), (wA 0x48 3 2 1 0x39, .rpop 1 2 3),
      (wA 0x49 0 2 1 0x39, .chblk 1 2), (wA 0x4A 0 2 1 0x39, .chunb 1 2), (wA 0x4B 1 2 0 0x39, .chmask 2 1)] ∧
    Decodes 32 [(wA 0x00 3 2 0 0x3A, .seal 2 3), (wA 0x01 3 2 0 0x3A, .unseal 2 3), (wA 0x08 0 2 1 0x3A, .lgd 1 2), (wA 0x09 3 2 0 0x3A, .sgd 2 3),
      (wA 0x0A 0 2 1 0x3A, .lgv 1 2), (wA 0x0B 0 2 1 0x3A, .sgv 1 2), (wA 0x0C 31 2 1 0x3A, .pusht 1 2 31), (wA 0x10 3 2 0 0x3A, .tlbiH 2 3)] := by decide

/-- The compact classes (R53, R55). -/
theorem test_decode_compact :
    Decodes 16 [(1 * 2 ^ 3 + 0, .nop), (7 * 2 ^ 13 + 31 * 2 ^ 8 + 1 * 2 ^ 3 + 1, .cAlu 1 31 7), (0x80 * 2 ^ 8 + 31 * 2 ^ 3 + 2, .cAddi 31 (-128)),
      (0x7F * 2 ^ 8 + 1 * 2 ^ 3 + 3, .cLi 1 127), (31 * 2 ^ 11 + 3 * 2 ^ 9 + 7 * 2 ^ 6 + 1 * 2 ^ 3 + 4, .cLd 1 7 3 31),
      (0x1000 * 2 ^ 3 + 5, .cB (-4096)), (1 * 2 ^ 6 + 7 * 2 ^ 3 + 6, .pfx 7 1)] := by decide

/-- Reserved codes and bits that must be zero have no instruction (R52, R53, R56, R58, R61, R66). -/
theorem test_reserved_encodings :
    (∀ w ∈ [wA 0x09 3 2 1 0x00, wA 0x30 1 2 1 0x00, wA 0x50 0 2 1 0x00, wA 0x05 3 2 1 0x0E, wI (3 * 64) 2 1 0x08, wI 5 1 1 0x06, wA 0x04 3 2 1 0x1E,
        wA 0x30 3 2 1 0x1E, wA 0x20 3 2 1 0x2E, wA 0x0A 3 2 1 0x2E, wA 0x15 0 2 1 0x2F, wV 0xD 0 3 2 1 0x34, wV 2 1 3 2 1 0x34, wV 5 9 0 2 1 0x35,
        wV 0 4 0 0 0 0x36, wV 0xD 0 0 0 0 0x36, wA 0x21 0 0 0 0x37, wA 0x05 0 0 0 0x38, wA 0x4C 0 0 0 0x39, wA 0x02 3 2 0 0x3A, wJ 0 0x3B],
      decodeTableWord 32 w = none) ∧
    ∀ w ∈ [4 * 2 ^ 3, 1 * 2 ^ 7 + 1 * 2 ^ 3 + 6], decodeTableWord 16 w = none := by decide

/-! Small states and what an instruction answers in them. -/

/-- Context 0 of tile 0 after reset, changed by f. -/
def ctx0 (f : Ctx → Ctx) : State := State.reset.modCtx f
/-- Tile 0 after reset, changed by f. -/
def site0 (f : Site → Site) : State := State.reset.modSite 0 f
/-- Tile 0 after reset, its committed part changed by f. -/
def core0 (f : Core → Core) : State := State.reset.modCore 0 f
/-- Context 0 of tile 0 about to run the n bytes of w. -/
def code0 (n w : Nat) : State := { (site0 fun x => x.withBytes 0 (leBytes n w)) with agenda := [.issue 0 0] }
/-- The state after i, where exec answers one. -/
def after (i : Instr) (s : State) : State := match exec i s with | .next t => t | _ => State.reset
/-- exec answers a next state. -/
def nexts (i : Instr) (s : State) : Bool := match exec i s with | .next _ => true | _ => false
/-- The cause of the trap that i takes in s. -/
def causeOf (i : Instr) (s : State) : Option Nat := (after i s).ctx.trap.map fun r => (r.headD 0).toNat % 256

/-! Single steps, values by hand from the rules. -/

/-- The first instruction after reset runs: ADDI s5, s0, 7. -/
theorem test_first_step :
    (match step (State.reset.withFetchWord 32 (wI 7 0 5 0x01)) with | .next t => (t.ctx.sreg 5, t.ctx.pc) | _ => (0, 0)) = (7, 4) := by decide
/-- A prefixed pair runs in one step: (p1) ADDI with p1 = 0 only advances, by 6 bytes. -/
theorem test_pair_step :
    (match step (code0 6 (wI 7 0 5 0x01 * 2 ^ 16 + (1 * 2 ^ 3 + 6))) with | .next t => (t.ctx.sreg 5, t.ctx.pc) | _ => (1, 0)) = (0, 6) := by decide
/-- MULH of −1 and −1 is 0, MULHU is 2^64 − 2 (R79). -/
theorem test_mulh :
    let s := ctx0 fun c => (c.setS 1 (-1)).setS 2 (-1)
    (after (.mulh 3 1 2) s).ctx.sreg 3 = 0 ∧ (after (.mulhu 3 1 2) s).ctx.sreg 3 = 0xFFFFFFFFFFFFFFFE := by decide
/-- −7 / 2 = −3, remainder −1; x / 0 is all ones; the most negative by −1 (R80). -/
theorem test_div :
    let s := ctx0 fun c => ((c.setS 1 (-7)).setS 2 2).setS 4 0x8000000000000000
    let t := ctx0 fun c => (c.setS 1 0x8000000000000000).setS 2 (-1)
    (after (.div 3 1 2) s).ctx.sreg 3 = -3 ∧ (after (.rem 3 1 2) s).ctx.sreg 3 = -1 ∧ (after (.div 3 1 0) s).ctx.sreg 3 = -1 ∧
      (after (.rem 3 1 0) s).ctx.sreg 3 = -7 ∧ (after (.div 3 1 2) t).ctx.sreg 3 = 0x8000000000000000 ∧ (after (.rem 3 1 2) t).ctx.sreg 3 = 0 := by decide
/-- A source that is also the destination; the amount of a shift is taken modulo 64. -/
theorem test_shift_self :
    (after (.shl 1 1 1) (ctx0 fun c => c.setS 1 65)).ctx.sreg 1 = 130 ∧ (after (.sha 1 1 2) (ctx0 fun c => (c.setS 1 (-8)).setS 2 1)).ctx.sreg 1 = -4 := by decide
/-- LIH shifts 13 bits in; BINS puts a field in the middle; BEXT takes it out. -/
theorem test_fields :
    (after (.lih 1 2 0x1FFF) (ctx0 fun c => c.setS 2 1)).ctx.sreg 1 = 0x3FFF ∧
      (after (.bins 1 2 4 7) (ctx0 fun c => (c.setS 1 (-1)).setS 2 0x5A)).ctx.sreg 1 = 0xFFFFFFFFFFFFF5AF ∧
      (after (.bext 1 2 60 3) (ctx0 fun c => c.setS 2 0xA000000000000000)).ctx.sreg 1 = 0xA := by decide
/-- A signed byte load, a store and a load with post-increment, little-endian (R95, R96). -/
theorem test_memory :
    let s := after (.st64 1 2 0) (ctx0 fun c => (c.setS 1 0x8182838485868788).setS 2 0x100)
    (after (.ldI8 3 2 7) s).ctx.sreg 3 = 0xFFFFFFFFFFFFFF81 ∧ (after (.ldN16 3 2 0) s).ctx.sreg 3 = 0x8788 ∧
      (after (.ldPostinc 3 2 5 (-4)) s).ctx.sreg 3 = 0x85868788 ∧ (after (.ldPostinc 3 2 5 (-4)) s).ctx.sreg 2 = 0xFC ∧
      s.me.ballast.dirty = [1] := by decide
/-- The last byte of the scratchpad is there, the next is not; a word over the edge straddles (R75). -/
theorem test_edges :
    let s := ctx0 fun c => c.setS 2 0x5FFFF
    causeOf (.ldN8 3 2 0) s = none ∧ causeOf (.ldN8 3 2 1) s = some 4 ∧ causeOf (.ldN16 3 2 0) s = some 5 := by decide
/-- LOOPI with a body of one word runs it twice (R92, R93): after the first pass the pc is back at the body. -/
theorem test_loop :
    let w := wI 1 1 1 0x01 * 2 ^ 32 + wI 2 0 0 0x0D
    let s := after (.loopi 0 0 2) (code0 8 w)
    let t := after (.addi 1 1 1) s
    let u := after (.addi 1 1 1) t
    s.ctx.pc = 4 ∧ t.ctx.pc = 4 ∧ u.ctx.pc = 8 ∧ u.ctx.sreg 1 = 2 ∧ u.ctx.lp[0].active = false := by decide
/-- 1.0 + 2^-24 is 1.0 with NX to nearest and the next number upward (R102). -/
theorem test_float_rounding :
    fadd 24 .rne 0x3F800000 0x33800000 = (0x3F800000, 1) ∧ fadd 24 .rup 0x3F800000 0x33800000 = (0x3F800001, 1) ∧
      fadd 24 .rne 0x3F800000 0x40000000 = (0x40400000, 0) ∧ fmul 24 .rne 0x7F000000 0x40000000 = (0x7F800000, 5) ∧
      fadd 24 .rne 0x7F800000 0xFF800000 = (0x7FC00000, 16) := by decide
/-- Packing saturates and says so; the sum of 32 bytes of −1 is −32 in 64 bits (R128, R130). -/
theorem test_pack_and_sum :
    let s := ctx0 fun c => (c.setV 1 (BitVec.allOnes 256)).setV 2 0x7FFF
    (after (.vredAdd 0 3 1 0) s).ctx.vreg 3 = 0xFFFFFFFFFFFFFFE0 ∧ (after (.vpack 0 3 2 2 0) s).ctx.vreg 3 = 0x7F0000000000000000000000000000007F ∧
      (after (.vpack 0 3 2 2 0) s).ctx.flags = 16 := by decide
/-- QPUSH fills q0 to eight entries and then fails; QPOP takes the first (R155, R163). -/
theorem test_queue :
    let f := fun (n : Nat) => core0 fun k => { k with qs := k.qs.set 0 { items := List.replicate n 5 } }
    (after (.qpush 1 2 0) (f 7)).ctx.preg 2 = 0xFFFFFFFF ∧ (after (.qpush 1 2 0) (f 8)).ctx.preg 2 = 0 ∧
      (after (.qpop 3 2 0) (f 1)).ctx.sreg 3 = 5 ∧ (after (.qpop 3 2 0) (f 0)).ctx.preg 2 = 0 := by decide
/-- TRAP 31 at address 8 records cause 0x14, the code and the pc (R142, R150). -/
theorem test_trap_record :
    ((after (.trap 0 31) (ctx0 fun c => { c with pc := 8, chan := 3 })).ctx.trap.map fun r => (r.take 2)) = some [0x1F01030014, 8] := by decide
/-- SYSW of the flags, SYSR of them; a read-only register raises PRIV (R147 to R149). -/
theorem test_sysregs :
    let s := after (.sysw 1 0 3) (ctx0 fun c => c.setS 1 0x3F)
    s.ctx.flags = 31 ∧ (after (.sysr 2 0 3) s).ctx.sreg 2 = 31 ∧ causeOf (.sysw 1 0 11) s = some 2 := by decide
/-- SEMADD saturates; SEMWAIT takes or waits (R197 to R199). -/
theorem test_semaphores :
    let s := core0 fun k => { k with sem := k.sem.set 2 0xFFFFFFFE }
    (after (.semadd 2 31) s).me.core.sem[2] = 0xFFFFFFFF ∧ (after (.semwait 2 1) s).me.core.sem[2] = 0xFFFFFFFD ∧
      (after (.semwait 3 1) s).ctx.st = .stalled := by decide

/-! Witnesses: for each statement with hypotheses, states and operands that meet them, each clause at a boundary of its range. -/

/-- step answers a next state. -/
def steps (s : State) : Bool := match step s with | .next _ => true | _ => false
/-- p1 false in every lane governs what runs. -/
def skipping : State := ctx0 fun c => { c with pfx := some (1, false) }

theorem witness_StepKeepsMemoryCanonical :
    (code0 4 (wI 0 2 1 0x17)).MemOk ∧ steps (code0 4 (wI 0 2 1 0x17)) = true := ⟨by unfold State.MemOk; decide, by decide⟩
theorem witness_DecodeEncode :
    ∀ i ∈ ([.add 1 31 0, .addi 31 0 (-4096), .bext 1 0 63 0, .loopi 31 31 8191, .cAlu 31 31 7, .cLd 7 7 3 31, .pfx 7 1, .j (-4194304),
      .vcvt 3 31 31 9 2, .acas 31 31 31 1 2, .sysr 31 0 19, .pusht 31 31 31, .illW, .retire] : List Instr),
      i.encoded = true ∧ i.wf = true := by decide
theorem witness_StepRunsDecoded :
    let s := code0 4 (wI 7 0 5 0x01)
    let u : State := { s.tick with agenda := [] }
    let v := (u.settleLate 0 0).issuing 0 0
    s.agenda = .issue 0 0 :: [] ∧ isSite 0 = true ∧ (u.site 0).up = true ∧ (u.site 0).halted = false ∧ (u.site 0).slotOpen u.cycle = true ∧ u.ready 0 0 = true ∧
      v.me.instrAt v.ctx.pc.toNat = some (.addi 5 0 7) ∧ v.readsBad (.addi 5 0 7) = false := by decide
theorem witness_StepRunsDecoded_bad :
    let s := (code0 4 (wI 7 1 5 0x01)).modCtx fun c => { c with badS := [1] }
    let u : State := { s.tick with agenda := [] }
    let v := (u.settleLate 0 0).issuing 0 0
    s.agenda = .issue 0 0 :: [] ∧ isSite 0 = true ∧ (u.site 0).up = true ∧ (u.site 0).halted = false ∧ (u.site 0).slotOpen u.cycle = true ∧ u.ready 0 0 = true ∧
      v.me.instrAt v.ctx.pc.toNat = some (.addi 5 1 7) ∧ v.readsBad (.addi 5 1 7) = true ∧ v.readsBad (.addi 1 5 7) = false ∧
      (v.eccRead (.addi 5 1 7)).ctx.st = .trapped ∧ State.reset.ctx.badS = [] ∧ State.reset.ctx.badV = [] ∧ State.reset.me.core.badAcc = [] := by decide
theorem witness_StepRunsDecoded_errors :
    let s : State := { State.reset with agenda := [.error (.sreg 0 0 1), .helm (.ageLimit 0 8)] }
    s.agenda = .error (.sreg 0 0 1) :: [.helm (.ageLimit 0 8)] ∧
      (match step s with
       | .next t => t.agenda == .helm (.ageLimit 0 8) :: [] && (t.ctxAt 0 0).badS == [1]
       | _ => false) = true := by decide
/-- A load that is served later keeps its destination as it was until an instruction that names it issues (R268); nothing waits after
reset. -/
theorem witness_StepRunsDecoded_late :
    let s := (code0 8 (wI 1 1 5 0x01 * 2 ^ 32 + wI 0 2 1 0x16)).modSite 0 fun x => { x with mem := memWrite [] 0x100 8 9 }
    let s := { (s.modCtx fun c => { (c.setS 2 0x100) with st := .running }) with agenda := [.late 0 0, .issue 0 0] }
    (∀ e ∈ (State.reset).sites, e.2.late = []) ∧ (s.site 0).late = [] ∧
      (match step s with
       | .next t => (t.site 0).late.length == 1 && (t.ctxAt 0 0).sreg 1 == 0 && (t.ctxAt 0 0).pc == 4 &&
         ((t.drainAll.ctxAt 0 0).sreg 1 == 9) && (match step t with
         | .next u => (u.ctxAt 0 0).sreg 1 == 9 && (u.ctxAt 0 0).sreg 5 == 10 && (u.site 0).late.isEmpty
         | _ => false)
       | _ => false) = true := by decide
theorem witness_StepRunsDecoded_undecodable :
    let s := code0 4 (wA 0x09 1 1 1 0x00)
    let u : State := { s.tick with agenda := [] }
    let v := (u.settleLate 0 0).issuing 0 0
    s.agenda = .issue 0 0 :: [] ∧ isSite 0 = true ∧ (u.site 0).up = true ∧ (u.site 0).halted = false ∧ (u.site 0).slotOpen u.cycle = true ∧ u.ready 0 0 = true ∧
      v.me.instrAt v.ctx.pc.toNat = none := by decide
theorem witness_StepRunsDecoded_pair :
    (({ State.reset with agenda := [.event .journalClear] } : State).agenda = [.event .journalClear] ∧ Instr.journalClear.encoded = false) ∧
    let w := (code0 6 (wI 7 0 5 0x01 * 2 ^ 16 + (1 * 2 ^ 3 + 6))).modCtx fun c => { c with pfx := some (1, false) }
    w.ctx.pfx.isSome = true ∧ w.ctx.st = .running ∧ w.me.instrAt (w.ctx.pc.toNat + 2) = some (.addi 5 0 7) ∧ State.reset.ctx.pfx = none := by decide
theorem witness_IllegalComesFirst :
    ((Instr.ldPostinc 5 5 6 0).encoded = true ∧ State.reset.legal (.ldPostinc 5 5 6 0) = false) ∧
    ((Instr.add 0 1 2).encoded = true ∧ (Instr.add 0 1 2).writesS 0 = true) ∧
    ((Instr.pset 0 1).encoded = true ∧ (Instr.pset 0 1).writesP 0 = true) := by decide
theorem witness_FailedConditionSkips :
    (∀ i ∈ ([.add 1 2 3, .sysw 1 0 3, .sysw 1 0 7] : List Instr), i.encoded = true ∧ i.laneMasked = false ∧ i.special = false ∧
      skipping.legal i = true) ∧ skipping.ctx.cond = false ∧ (Instr.add 1 2 3).guarded = false ∧ (Instr.sysw 1 0 7).guarded = true ∧
    (after (.sysw 1 0 3) skipping).ctx.pc = 6 ∧ causeOf (.sysw 1 0 7) skipping = some 2 := by decide
theorem witness_EncodedNeverStop :
    (Instr.illW).encoded = true ∧ (match exec (.pageTableWrite 0xC000000000 0) State.reset with | .fault f => f == .physHole | _ => false) = true ∧
      (match exec (.wfiWake 9000 0) State.reset with | .next t => t.agenda == [] && t.cycle == 0 && (t.ctxAt 0 0).st == State.reset.ctx.st | _ => false) = true := by decide
theorem witness_TrapTaking :
    let r : Rec := [0x14, 8, 0, 0, 0, 0, 0, 0]
    let f := fun (ch : Nat) (mask : Bool) => site0 fun x => { x with core := { x.core with
      htab := if mask then x.core.htab else x.core.htab.set 31 0,
      ctxs := x.core.ctxs.set 3 { st := .trapped, trap := some r, chan := ch } } }
    (∀ s ∈ [f 30 false, f 31 false, f 30 true], Live s 0 ∧ (s.ctxAt 0 3).st = .trapped ∧ (s.ctxAt 0 3).trap = some r) ∧ r.length = 8 ∧
      State.reset.ctx.chan < 32 ∧ ((f 30 false).ctxAt 0 3).chan ≠ 31 ∧ ((f 30 false).site 0).traps = true ∧ ((f 31 false).ctxAt 0 3).chan = 31 ∧
      ((f 30 true).site 0).traps = false ∧
      ((after (.trapSequenceComplete 0 3) (f 30 false)).site 0).core.chq[31].length = 1 ∧
      ((after (.trapSequenceComplete 0 3) (f 31 false)).site 0).ownHalt = true := by decide
theorem witness_AluResults :
    ∀ i ∈ ([.add 31 31 31, .sub 1 0 31, .mul 1 1 1, .mulh 1 2 3, .mulhu 1 2 3, .and 1 2 3, .or 1 2 3, .xor 1 2 3, .shl 1 2 3, .shr 1 2 3,
      .sha 1 2 3, .min 1 2 3, .max 1 2 3, .minu 1 2 3, .maxu 1 2 3, .slt 1 2 3, .sltu 1 2 3, .seq 1 2 3, .mov 1 2, .sel 1 2 3 7, .popc 1 2,
      .clz 1 2, .ctz 1 2] : List Instr), Ready i State.reset := by decide
theorem witness_DivisionEdges :
    (∀ i ∈ ([.div 1 2 3, .rem 1 2 3, .divu 1 2 3, .remu 1 2 3] : List Instr), Ready i State.reset) ∧
    let s := ctx0 fun c => ((c.setS 2 0x8000000000000000).setS 3 0xFFFFFFFFFFFFFFFF).setS 4 0x8000000000000001
    s.ctx.sreg 2 = 0x8000000000000000 ∧ s.ctx.sreg 3 = 0xFFFFFFFFFFFFFFFF ∧ s.ctx.sreg 5 = 0 ∧
      s.ctx.sreg 3 ≠ 0 ∧ ¬(s.ctx.sreg 4 = 0x8000000000000000 ∧ s.ctx.sreg 3 = 0xFFFFFFFFFFFFFFFF) := by decide
theorem witness_ImmediateForms :
    (∀ i ∈ ([.addi 1 2 (-4096), .andi 1 2 4095, .ori 1 2 0, .xori 1 2 0, .slti 1 2 0, .li 1 0, .lih 1 2 0, .shli 1 2 63, .shri 1 2 63,
      .shai 1 2 63, .bext 1 2 63 0, .bext 1 2 0 63, .bins 1 2 0 63, .bins 1 2 63 0, .pset 7 1, .pand 7 7 7, .por 1 2 3, .pxor 1 2 3, .pnot 1 2] : List Instr),
      Ready i State.reset) ∧ (0 : Fin 32).val < (7 : Fin 32).val ∧ (7 : Fin 32).val < 8 := by decide
theorem witness_WindowAddress : Ready (.gaddr 31 0 31) State.reset ∧ (31 : Fin 32) ≠ 0 := by decide
theorem witness_CompactAndPrefix :
    (∀ i ∈ ([.cAlu 1 2 0, .cAlu 1 2 1, .cAlu 1 2 2, .cAlu 1 2 3, .cAlu 1 2 4, .cAlu 1 2 5, .cAlu 1 2 6, .cAlu 1 2 7, .cAddi 1 (-128),
      .cLi 1 127, .cB (-4096), .nop, .yield] : List Instr), Ready i State.reset) ∧
    (let s := code0 6 (wI 7 0 5 0x01 * 2 ^ 16 + (7 * 2 ^ 3 + 6))
     s.ctx.pfx = none ∧ Legal (.pfx 7 0) s ∧ s.me.instrAt 2 = some (.addi 5 0 7) ∧ noPrefix (.addi 5 0 7) = false) ∧
    (let s := code0 4 (1 * 2 ^ 19 + (7 * 2 ^ 3 + 6))
     s.me.instrAt 2 = some .nop ∧ noPrefix .nop = true) ∧ State.reset.me.imgSize < State.reset.ctx.pc.toNat + 4 := by decide
theorem witness_IllegalWords : ([Instr.ill, Instr.illW].map fun i => causeOf i State.reset) = [some 1, some 1] := by decide
theorem witness_BranchesAndJumps :
    ∀ i ∈ ([.beq 0 0 (-4096), .bne 1 2 0, .blt 1 2 0, .bge 1 2 0, .bltu 1 2 0, .bgeu 1 2 0, .bp 7 4095, .bnp 0 0, .j (-4194304), .jal 4194303,
      .jalr 0 1 0, .jalr 31 31 1] : List Instr), Ready i State.reset := by decide

/-- Two words ADDI at 4 and 8 after a loop at 0. -/
def looping (f : Ctx → Ctx) : State := (code0 12 (wI 1 1 1 0x01 * 2 ^ 64 + wI 1 1 1 0x01 * 2 ^ 32 + wI 0 0 1 0x0D)).modCtx f
def level (first last : Word) : LoopLevel := { active := true, lc := 2, step := 1, start := first, last := last }

theorem witness_LoopStart :
    let s := looping id
    Ready (.loopi 1 0 2) s ∧ Ready (.loop 1 1 255) s ∧ s.me.body 4 2 = some (8, 12) ∧ s.me.body 4 3 = none ∧ s.ctx.lp[0].active = false ∧
    Ready (.loopi 1 0 0) s ∧ (after (.loopi 1 0 0) s).ctx.pc = 12 ∧ (after (.loopi 1 0 0) s).ctx.lp[0].active = false ∧
    Ready (.loop 1 0 255) s ∧ (after (.loop 1 0 255) s).ctx.pc = 12 ∧ causeOf (.loopi 2 0 0) s = some 1 := by decide
theorem witness_LoopStart_nested :
    let both := looping fun c => { c with lp := (c.lp.set 0 (level 0 8)).set 1 (level 0 4) }
    let inside := looping fun c => { c with lp := c.lp.set 0 (level 0 8) }
    let short := looping fun c => { c with lp := c.lp.set 0 (level 0 4) }
    let outside := looping fun c => { c with lp := c.lp.set 0 (level 4 8) }
    (∀ s ∈ [both, inside, short, outside], Ready (.loopi 1 0 2) s ∧ s.me.body 4 2 = some (8, 12) ∧ s.ctx.lp[0].active = true) ∧
      both.ctx.lp[1].active = true ∧ inside.ctx.lp[1].active = false ∧ inside.ctx.lp[0].start.toNat ≤ inside.ctx.pc.toNat ∧
      inside.ctx.pc.toNat ≤ inside.ctx.lp[0].last.toNat ∧ 8 ≤ inside.ctx.lp[0].last.toNat ∧ short.ctx.lp[0].last.toNat < 8 ∧
      ¬(outside.ctx.lp[0].start.toNat ≤ outside.ctx.pc.toNat ∧ outside.ctx.pc.toNat ≤ outside.ctx.lp[0].last.toNat) ∧
      (after (.loopi 1 0 2) inside).ctx.lp[1].active = true ∧ causeOf (.loopi 1 0 2) short = some 1 ∧
      (after (.loopi 1 0 0) inside).ctx.pc = 0 ∧ (after (.loopi 1 0 0) inside).ctx.lp[0].lc = 1 ∧
      (after (.loopi 0 0 0) inside).ctx.pc = 8 ∧ (after (.loopi 0 0 0) inside).ctx.lp[0].lc = 2 := by decide
theorem witness_LoopRuns :
    (looping id).me.body 4 2 = some (8, 12) ∧ (level 4 8).active = true ∧ (level 4 8).lc = BitVec.ofNat 32 2 ∧ (level 4 8).li = 0 ∧
    let f := fun (pc last0 last1 : Word) (l0 l1 : BitVec 32) => 
      let v := fun (c : Ctx) => (c.lp.set 0 { level 0 last0 with lc := l0 }).set 1 { level 4 last1 with lc := l1 }
      (looping fun c => { c with pc := pc, lp := v c }).ctx
    ((f 8 8 8 2 1).lp[1].active && (f 8 8 8 2 1).lp[1].last == (f 8 8 8 2 1).pc) = true ∧
    ((f 8 8 8 2 2).advance 4).pc = 4 ∧ ((f 8 8 8 2 1).advance 4).pc = 0 ∧ ((f 8 8 8 1 1).advance 4).pc = 12 ∧
    ((f 8 8 4 2 1).advance 4).pc = 0 ∧ ((f 8 8 4 1 1).advance 4).pc = 12 ∧ ((f 4 8 8 1 1).advance 4).pc = 8 := by decide
theorem witness_TrapsWaitsHalts :
    Ready (.trap 31 31) State.reset ∧ Ready .brk State.reset ∧ State.reset.me.dbg = false ∧
    (let s := site0 fun x => { x with dbg := true }
     Ready .brk s ∧ s.me.dbg = true ∧ s.me.halted = false ∧ ∀ c, c ≠ s.cur.2 → (s.ctxAt s.cur.1 c).st ≠ .trapped) ∧
    Ready .wfi State.reset ∧
    (let s := ctx0 fun c => { c with st := .dormant, latch := true }
     Live s 0 ∧ (s.ctxAt 0 0).st = .dormant ∧ (s.ctxAt 0 0).latch = true) ∧
    (let y := site0 fun x => { x with krn := { x.krn with limit := 1 }, core := { x.core with ctxs := x.core.ctxs.set 0 { st := .running } } }
     let s := { y with cycle := 1024 }
     Live s 0 ∧ (s.ctxAt 0 0).st = .running ∧ (s.site 0).krn.limit ≠ 0 ∧ (s.site 0).krn.limit.toNat * 1024 ≤ s.cycle - 0 - 0) ∧
    State.reset.me.krn.limit = 0 ∧
    (let s := site0 fun x => { x with haltReq := true }
     (s.site 0).haltReq = true ∧ (s.site 0).halted = false ∧ ∀ d, (s.ctxAt 0 d).st ≠ .trapped) ∧
    (let s := ctx0 fun c => { c with st := .trapped }
     ∃ d, (s.ctxAt 0 d).st = .trapped) := by decide
theorem witness_SystemRegisters :
    (∀ k ∈ [0, 1, 2, 3, 4, 5, 6, 7, 8, 9, 10, 11, 16, 17, 18, 19], Ready (.sysr 1 0 (Fin.ofNat 32 k)) State.reset ∧ sysNumber 0 (Fin.ofNat 32 k) = k) ∧
    State.reset.ctx.chan < 32 ∧ State.reset.me.pcol < 32 ∧ State.reset.me.prow < 64 ∧ State.reset.me.krn.ver < 4 ∧ State.reset.me.krn.tenant < 16 ∧
    (let s := ctx0 fun c => { c with chan := 31, record := some [0x14, 8, 0, 0, 0, 0, 0, 0] }
     s.ctx.chan = 31 ∧ s.ctx.record = some [0x14, 8, 0, 0, 0, 0, 0, 0] ∧ Ready (.sysr 1 0 10) s ∧ Ready (.sysw 1 0 10) s) ∧
    (let s := site0 fun x => { x with krn := { x.krn with maint := true } }
     Ready (.sysw 1 0 7) s ∧ s.me.krn.maint = true) ∧
    Ready (.sysw 1 0 3) State.reset ∧ Ready (.sysw 1 0 4) State.reset ∧ Legal (.sysw 1 0 7) State.reset ∧ Legal (.sysw 1 0 10) State.reset ∧
    Legal (.sysw 1 0 19) State.reset ∧ sysNumber 0 19 ≠ 3 := by decide
/-- Tile 0 after reset with s2 = a. -/
def base (a : Word) : State := ctx0 fun c => c.setS 2 a
theorem witness_ScalarLoads :
    (∀ i ∈ ([.ldI8 1 2 0, .ldN8 1 2 0, .ldI16 1 2 0, .ldN16 1 2 0, .ldI32 1 2 0, .ldN32 1 2 0, .ldI64 1 2 0, .ldPostinc 1 2 0 127, .ldPostinc 1 2 1 0,
      .ldPostinc 1 2 2 0, .ldPostinc 1 2 3 0, .ldPostinc 1 2 4 0, .ldPostinc 1 2 5 0, .ldPostinc 1 2 6 (-128), .cLd 0 7 0 31, .cLd 7 0 1 31] : List Instr),
      Ready i (base 0x5FFF8)) ∧ ((base 0x5FFF8).ctx.sreg 2 + 0).toNat + 8 ≤ 0x60000 ∧ (base 0x5FFF8).me.bad = [] ∧
    (let s := (base 9).modSite 0 fun x => { x with bad := [16] }
     s.me.bad = [16] ∧ (s.ctx.sreg 2).toNat + 8 ≤ 0x60000 ∧ 16 < (s.ctx.sreg 2).toNat + 8 ∧ (s.ctx.sreg 2).toNat < 16 + 8 ∧ Ready (.ldI64 1 2 0) s ∧
       causeOf (.ldI64 1 2 0) s = some 9) := by decide
theorem witness_ScalarLoads_edges :
    (∀ i ∈ ([.ldI8 1 2 0, .ldN8 1 2 0, .ldI16 1 2 0, .ldN16 1 2 0, .ldI32 1 2 0, .ldN32 1 2 0, .ldI64 1 2 0, .st8 1 2 0, .st16 1 2 0, .st32 1 2 0,
      .st64 1 2 0, .lv 1 2 0, .sv 1 2 0] : List Instr), Ready i (base 0x60000) ∧ causeOf i (base 0x60000) = some 4) ∧
    (∀ i ∈ ([.ldI16 1 2 0, .ldN16 1 2 0, .ldI32 1 2 0, .ldN32 1 2 0, .ldI64 1 2 0, .st16 1 2 0, .st32 1 2 0, .st64 1 2 0, .lv 1 2 0, .sv 1 2 0] :
      List Instr), Ready i (base 0x5FFFF) ∧ causeOf i (base 0x5FFFF) = some 5) := by decide
theorem witness_ScalarStores :
    (∀ i ∈ ([.st8 1 2 0, .st16 1 2 0, .st32 1 2 0, .st64 1 2 0, .stPostinc 1 2 0 127, .stPostinc 1 2 1 0, .stPostinc 2 2 2 0, .stPostinc 1 2 3 (-128),
      .cLd 0 7 2 31, .cLd 7 0 3 31] : List Instr), Ready i (base 0x5FFF8)) ∧ ((base 0x5FFF8).ctx.sreg 2).toNat + 8 ≤ 0x60000 := by decide
theorem witness_VectorLoads :
    (∀ i ∈ ([.lv 1 2 0, .ldPostinc 1 2 7 127, .lvs 1 2 3 0, .lvs 1 2 3 3, .lvg 1 2 3 0, .lvg 1 2 3 3] : List Instr), Legal i (base 0x5FFE0)) ∧
    ((base 0x5FFE0).ctx.sreg 2).toNat + 32 ≤ 0x60000 ∧ (base 0x5FFE0).me.bad = [] ∧
    (∀ e, e < 32 / 2 ^ 3 → ((base 0x5FFE0).ctx.sreg 2 + BitVec.ofNat 64 e * (base 0x5FFE0).ctx.sreg 3).toNat + 8 ≤ 0x60000) ∧
    skipping.ctx.pfx = some (1, false) ∧ State.reset.ctx.pfx = none ∧ (31 : Nat) < 32 ∧ (1 : Fin 32) ≠ 2 := by decide
theorem witness_VectorStores :
    (∀ i ∈ ([.sv 1 2 0, .stPostinc 1 2 4 127, .svx 1 2 3 0, .svx 1 2 3 3] : List Instr), Legal i (base 0x5FFE0)) ∧ (base 0x5FFE0).me.bad = [] ∧
    (∀ q, q < 32 → (base 0x5FFE0).ctx.enabled q = true ∧ (((base 0x5FFE0).ctx.sreg 2) + BitVec.ofNat 64 q).toNat < 0x60000) ∧
    ((after (.sv 1 2 0) (base 0x5FFE0)).ctx.pc = 4) := by decide
theorem witness_VectorIntegerLanes :
    ∀ t ∈ ([0, 1, 2, 3, 4, 5, 6, 7] : List (Fin 16)), isInt t = true ∧ (∀ i ∈ ([.vadd 0 1 2 3 t, .vsub 0 1 2 3 t, .vmul 0 1 2 3 t, .vfma 0 1 2 3 t,
      .vmin 0 1 2 3 t, .vmax 0 1 2 3 t, .vshl 1 2 3 t, .vshr 1 2 3 t, .vsha 1 2 3 t] : List Instr), Legal i State.reset) ∧
      (isSigned t = true → Legal (.vabs 1 2 t) State.reset ∧ Legal (.vneg 1 2 t) State.reset) := by decide
theorem witness_VectorFloatLanes :
    ∀ t ∈ ([8, 9] : List (Fin 16)), isFloat t = true ∧ ∀ i ∈ ([.vadd 0 1 2 3 t, .vsub 1 1 2 3 t, .vmul 2 1 2 3 t, .vfma 3 1 2 3 t, .vmin 0 1 2 3 t,
      .vmax 3 1 2 3 t, .vabs 1 2 t, .vneg 1 2 t] : List Instr), Legal i State.reset := by decide
theorem witness_FloatRules :
    (bits 0x7F800001 23 8 = 255 ∧ bits 0x7F800001 0 23 ≠ 0 ∧ bit 0x7F800001 22 = false) ∧ bits 0xFF800000 0 31 = 255 * 2 ^ 23 ∧
    bits 0x80000000 0 31 = 0 ∧ bit 0x7F800000 31 ≠ bit 0xFF800000 31 ∧ (∀ x ∈ [0, 1, 0x7F7FFFFF, 0xFF800000], x < 2 ^ 32 ∧ isNan (unpack 24 x) = false) ∧
    (∀ x ∈ [0, 0x7F7F, 0xFF80], x < 2 ^ 16 ∧ isNan (unpack 8 x) = false) := by decide
theorem witness_VectorLogicAndMovement :
    (∀ t ∈ ([0, 3, 8, 10] : List (Fin 16)), hasLanes t = true ∧ ∀ i ∈ ([.vbcast 1 2 t, .vperm 1 2 3 t, .vshuf 1 2 3 t, .vext 1 2 3 t] : List Instr),
      Ready i State.reset) ∧ ∀ i ∈ ([.vand 1 2 3, .vor 1 2 3, .vxor 1 2 3, .vsel 1 2 3 7] : List Instr), Ready i State.reset := by decide
theorem witness_VectorCompares :
    (∀ t ∈ ([0, 7] : List (Fin 16)), isInt t = true ∧ ∀ i ∈ ([.vcmpeq 0 7 2 3 t, .vcmplt 0 1 2 3 t, .vcmple 0 1 2 3 t] : List Instr), Ready i State.reset) ∧
    ∀ t ∈ ([8, 9] : List (Fin 16)), isFloat t = true ∧ ∀ i ∈ ([.vcmpeq 3 7 2 3 t, .vcmplt 0 1 2 3 t, .vcmple 1 1 2 3 t] : List Instr),
      Ready i State.reset := by decide
theorem witness_VectorReduceAndPack :
    (∀ t ∈ ([0, 7] : List (Fin 16)), isInt t = true ∧ ∀ i ∈ ([.vredAdd 0 1 2 t, .vredMax 0 1 2 t, .vredMin 0 1 2 t] : List Instr), Legal i State.reset) ∧
    (∀ t ∈ ([8, 9] : List (Fin 16)), isFloat t = true ∧ ∀ i ∈ ([.vredAdd 3 1 2 t, .vredMax 1 1 2 t, .vredMin 2 1 2 t, .vmaxexp 1 2 t] : List Instr),
      Legal i State.reset) ∧
    (∀ t ∈ ([0, 6] : List (Fin 16)), isInt t = true ∧ laneBits t < 64 ∧ Legal (.vpack 0 1 2 3 t) State.reset) ∧
    (∀ t ∈ ([1, 7] : List (Fin 16)), isInt t = true ∧ 8 < laneBits t ∧ Legal (.vunpk 1 2 1 t) State.reset) ∧
    ∀ t ∈ ([0, 4, 1] : List (Fin 16)), Legal (.vdot 0 1 2 3 t) State.reset := by decide
theorem witness_VectorConversions :
    (∀ i ∈ ([.vcvt 3 1 2 9 2, .vcvt 0 1 2 10 0, .vdot 3 1 2 3 8, .vpack 3 1 2 3 10, .vpack 3 1 2 3 8, .vunpk 1 2 1 9, .vunpk 1 2 0 8, .vscale 3 1 2 3 8,
      .vscale 0 1 2 3 9, .vrcp 1 2 8, .vrsq 1 2 9, .vexp2 1 2 8] : List Instr), Legal i State.reset) ∧ (1 : Nat) ≤ 253 ∧ (255 : Nat) < 256 := by decide
theorem witness_RegisterFrame :
    ∀ i ∈ ([.add 1 2 3, .lv 1 2 0, .jal 0, .loopi 0 0 0, .vcmpeq 0 1 2 3 9, .qpeek 1 2 7, .sysr 1 0 0, .accrd 1 0 0] : List Instr),
      i.registerOnly = true ∧ nexts i State.reset = true := by decide
theorem witness_MemoryFrame :
    ∀ i ∈ ([.add 1 2 3, .stf32 1 2 0, .retire, .brk, .cpy 1 2 3 0] : List Instr), i.encoded = true ∧ i.storesLocal = false ∧ nexts i State.reset = true := by decide
theorem witness_ContextsAndLaunchStateKept :
    ∀ i ∈ ([.add 1 2 3, .semadd 0 1, .sysw 1 0 7, .retire] : List Instr), i.encoded = true ∧ nexts i State.reset = true := by decide

/-! A group of two tiles, a tenant, and messages to them. -/

def desc0 : LaunchDesc := { handle := 1, event := 0, deps := [], place := some 0, idbase := 0, argva := 0, largs := [7] }
def launch0 : Launch := { tenant := 0, queue := 0, pos := 0, desc := desc0, st := .running, members := [0, 1], rows := 1, cols := 2, handle := 1 }
def cfg0 : TenantCfg := { parts := [{ die := 0, row := 0, col := 0, rows := 1, cols := 4 }], counters := [63], power := 65536, quota := 0, rollback := false }
def tenant0 : Tenant := { cfg := cfg0, pids := List.replicate 16 0 }
/-- Tiles 0 and 1 of one running launch of tenant 0, changed by f and g. -/
def group (f : Site → Site) (g : Site → Site) : State :=
  let s : State := { State.reset with launches := [(5, launch0)], tenants := [(0, tenant0)] }
  (s.modSite 0 fun x => f { x with krn := { x.krn with launch := some 5 } }).modSite 1 fun x =>
    g { x with krn := { x.krn with launch := some 5, member := 1 } }
/-- The group with the registers of context 0 of tile 0 changed by f. -/
def groupCtx (f : Ctx → Ctx) : State := (group id id).modCtx f
def off (x : Site) : Site := { x with gate := { x.gate with st := .off } }

theorem witness_IdentityReads :
    let s := group (fun x => { x with krn := { x.krn with widths := [10, 0, 54, 0, 0, 0] } }) id
    s.me.krn.member < 8192 ∧ s.cur.1 < 8192 ∧ s.me.krn.widths.length = 6 ∧ s.me.krn.launch = some 5 ∧ mapGet? s.launches 5 = some launch0 ∧
      (∀ i ∈ ([.tileid 1, .widF 1 2 0, .widF 1 2 5, .msgid 1, .foldrd 1 0, .foldrd 1 1, .mxstat 1 3, .qcnt 1 7, .karg 1 0, .karg 1 7, .karg 1 8, .karg 1 15] :
        List Instr), Ready i s) ∧ s.ctx.status[3].dropped < 256 ∧ s.ctx.status[3].kdone < 2 ^ 16 ∧
      (after (.karg 1 0) s).ctx.sreg 1 = 7 ∧ (after (.karg 1 8) s).ctx.sreg 1 = 2 := by decide
theorem witness_QueueInstructions :
    let f := fun (n : Nat) => core0 fun k => { k with qs := k.qs.set 3 { items := List.replicate n 5 }, q45 := k.q45.set 1 { items := [6] },
                                                      q6 := { items := [7] }, q7 := { items := [8] } }
    let m := fun (n : Nat) => (f n).modSite 0 fun x => { x with krn := { x.krn with maint := true } }
    (∀ n ∈ [0, 1, 7, 8], Ready (.qpush 1 2 3) (f n) ∧ Ready (.qpop 1 2 3) (f n) ∧ Ready (.qpeek 1 2 3) (f n) ∧ (f n).me.core.qs[3].items.length = n) ∧
    Ready (.qpush 1 2 6) (f 0) ∧ (f 0).me.frozen = false ∧ (f 0).me.core.free ≠ 0 ∧ (f 0).me.core.q45[1].items = [6] ∧
    (∀ q ∈ ([5, 6, 7] : List (Fin 32)), Legal (.qpop 1 2 q) (f 0) ∧ Legal (.qpeek 1 2 q) (f 0)) ∧
    (f 0).me.krn.maint = false ∧ Legal (.qpushw 1 3) (f 0) ∧ Legal (.qpopw 1 3) (f 0) ∧ causeOf (.qpopw 1 3) (f 0) = some 2 ∧
    (m 0).me.krn.maint = true ∧ Ready (.qpushw 1 3) (m 7) ∧ Ready (.qpushw 1 3) (m 8) ∧ Ready (.qpopw 1 3) (m 0) ∧ Ready (.qpopw 1 3) (m 1) ∧
    Legal (.qpopw 1 5) (m 0) ∧ (after (.qpopw 1 5) (m 0)).ctx.vreg 1 = 6 ∧ Legal (.qpopw 1 6) (m 0) ∧ (after (.qpopw 1 6) (m 0)).ctx.vreg 1 = 7 ∧
    (after (.qpushw 1 3) ((m 0).modCtx fun c => { c with posted := 1 })).ctx.pc = 4 ∧ (after (.qpushw 1 3) (m 8)).ctx.st = .stalled ∧
    isTile (m 0).cur.1 = true ∧ Ready (.qpushw 1 6) (m 0) ∧ Ready (.qpopw 1 7) (m 0) ∧ (after (.qpopw 1 7) (m 0)).ctx.sreg 1 = 8 := by decide
theorem witness_QueueInstructions_expiry :
    let y := (code0 4 (wA 0x46 3 0 1 0x39)).modCtx fun c => { c with st := .stalled, wait := .retry 0 }
    let s : State := { y with cycle := 65536 }
    Live s 0 ∧ (s.ctxAt 0 0).st = .stalled ∧ (s.ctxAt 0 0).wait = .retry 0 ∧ s.pending 0 0 = some (.qpopw 1 3) ∧
      ((after (.qwaitExpiry 0 0) s).ctxAt 0 0).st = .trapped ∧ ((after (.qwaitExpiry 0 0) y).ctxAt 0 0).st = .stalled := by decide
theorem witness_QueueInstructions_pushExpiry :
    let f := fun (q n cyc : Nat) => ({ (((code0 4 (wA 0x45 q 0 1 0x39)).modCtx fun c => { c with st := .stalled, wait := .retry 0 }).modCore 0 fun k =>
      { k with qs := k.qs.set 3 { items := List.replicate n 5 }, free := 0 }) with cycle := cyc } : State)
    (f 3 8 65536).pending 0 0 = some (.qpushw 1 3) ∧ (f 6 0 65536).pending 0 0 = some (.qpushw 1 6) ∧ Live (f 3 8 65536) 0 ∧
      ((after (.qwaitExpiry 0 0) (f 3 8 65536)).ctxAt 0 0).st = .trapped ∧ ((after (.qwaitExpiry 0 0) (f 6 0 65536)).ctxAt 0 0).st = .trapped ∧
      ((after (.qwaitExpiry 0 0) (f 3 7 65536)).ctxAt 0 0).st = .stalled ∧ ((after (.qwaitExpiry 0 0) (f 3 8 65535)).ctxAt 0 0).st = .stalled := by decide
theorem witness_Sends :
    let msg : OutMsg := { targets := [0], chan := 0, id := 0, beats := [0, 0] }
    let f := fun (m ch a : Word) (n : Nat) => groupCtx fun c => { ((c.setS 1 m).setS 2 ch).setS 3 a with outbox := List.replicate n msg }
    let fit := f 1 29 0x5FC00 0
    (fit.ctx.sreg 1).toNat < (fit.membersOf fit.cur.1).length ∧ (fit.ctx.sreg 2).toNat < 30 ∧ (fit.ctx.sreg 3).toNat + 1024 ≤ 0x60000 ∧ fit.me.bad = [] ∧
    (∀ s ∈ [fit, f 2 0 0 0, f 0 30 0 0, f 0 0 0 15, f 0 0 0 16], Ready (.send 1 2 3 31) s) ∧
    ((f 2 0 0 0).membersOf 0).length ≤ ((f 2 0 0 0).ctx.sreg 1).toNat ∧ (f 0 0 0 16).ctx.outbox.length = 16 ∧
    (after (.send 1 2 3 31) fit).ctx.outbox.length = 1 ∧ causeOf (.send 1 2 3 31) (f 2 0 0 0) = some 8 ∧ causeOf (.send 1 2 3 31) (f 0 30 0 0) = some 8 ∧
    causeOf (.send 1 2 3 31) (f 0 0 0 16) = some 0x15 ∧
    (let s := f 0x30000 29 0x5FC00 0
     Ready (.sendm 1 2 3 31) s ∧ (after (.sendm 1 2 3 31) s).ctx.outbox.map (·.targets) = [[0, 1]]) ∧
    (∀ e ∈ ([(f 0x12000 0 0 0, 8), (f 0x1000000000000 0 0 0, 8), (f 0x70000 0 0 0, 8), (f 0x30000 30 0 0, 8), (f 0x30000 29 0 16, 0x15)] : List (State × Nat)),
      Ready (.sendm 1 2 3 31) e.1 ∧ causeOf (.sendm 1 2 3 31) e.1 = some e.2) := by decide
theorem witness_Sends_injection :
    let msg : OutMsg := { targets := [1], chan := 31, id := 7, beats := [0] }
    let f := fun (p : PendMsg) (g : Site → Site) => group (fun x => { x with core := { x.core with pend := [p] } }) g
    let s := f { msg := msg, vc := 3, persist := false } id
    let t := f { msg := msg, vc := 3, persist := false } off
    let u := f { msg := { msg with targets := [] }, vc := 0, persist := false, gate := some 0 } id
    (∀ v ∈ [s, t, u], Live v 0 ∧ (v.site 0).halted = false ∧ (v.site 0).core.pend.length = 1 ∧ (v.site 0).core.caq = []) ∧ s.memberTile 0 1 = some 1 ∧
      s.isOff 1 = false ∧ t.isOff 1 = true ∧ 0 ≤ (u.site 0).ballast.last ∧ ((after (.outboxInject 0) s).site 0).released = 1 ∧
      ((after (.outboxInject 0) t).site 0).released = 0 ∧ ((after (.outboxInject 0) u).site 0).core.pend = [] := by decide
theorem witness_ChannelControl :
    let f := fun (m ch : Word) => groupCtx fun c => (c.setS 1 m).setS 2 ch
    (∀ s ∈ [f 0 31, f 1 31, f 2 0, f 0 32], Ready (.chblk 1 2) s ∧ Ready (.chunb 1 2) s ∧ Ready (.chmask 2 1) s) ∧
    (f 0 31).memberTile 0 0 = some 0 ∧ (f 1 31).memberTile 0 1 = some 1 ∧ (f 2 0).memberTile 0 2 = none ∧
    causeOf (.chblk 1 2) (f 2 0) = some 8 ∧ causeOf (.chblk 1 2) (f 0 32) = some 8 ∧
    (((after (.chblk 1 2) (f 0 29)).site 0).entry 29).getLsbD 26 = true ∧ ((after (.chblk 1 2) (f 0 30)).site 0).core.htab = (f 0 30).me.core.htab ∧
    (let p : Pkt := { src := 1, dst := 0, vc := 0, body := 0, load := .chctl 29 true }
     let s := site0 fun x => { x with rxCtl := [p] }
     Live s 0 ∧ (s.site 0).rxCtl = p :: [] ∧ ((after (.channelControlArrival 0) s).site 0).rxCtl = []) := by decide
theorem witness_ChannelControl_bond :
    let r : Rec := [0, 0, 0, 0, 0, 0, 0, 0]
    let s := site0 fun x => { x with rxRec := [(r, 3)], core := { x.core with slots := [4] }, vland := [5], vcred := 1 }
    let t := site0 fun x => { x with rxRec := [(r, 3)], core := { x.core with slots := [4, 5, 6, 7, 8, 9, 10, 11, 12, 13, 14, 15] }, frozen := true }
    Live s 0 ∧ (4 ≤ 5 ∧ 5 < 16 ∧ 5 ∉ (s.site 0).core.slots ∧ ∀ j, 4 ≤ j → j < 5 → j ∈ (s.site 0).core.slots) ∧
      (∀ j, 4 ≤ j → j < 16 → j ∈ (t.site 0).core.slots) ∧ (s.site 0).vland = 5 :: [] ∧ (s.site 0).frozen = false ∧ (s.site 0).vcred ≠ 0 ∧
      (t.site 0).frozen = true ∧ ((after (.remoteRecordArrival 0) t).site 0).tdrop = 1 ∧ ((after (.vfifoLanding 0) s).site 0).core.q6.items = [5] ∧
      5 ∈ ((after (.remoteRecordArrival 0) s).site 0).core.slots := by
  refine ⟨by decide, ⟨by decide, by decide, by decide, ?_⟩, ?_, by decide, by decide, by decide, by decide, by decide, by decide, by decide⟩
  · intro j h1 h2; interval_cases j; decide
  · intro j h1 h2; interval_cases j <;> decide
theorem witness_MessagesAndActivations :
    let p : Pkt := { src := 1, dst := 0, vc := 0, body := 2, load := .msg (mkHdr 9 0 0 2 29) [1, 2] }
    let s := site0 fun x => { x with rxMsg := [p] }
    Live s 0 ∧ (s.site 0).rxMsg = p :: [] ∧ (s.site 0).core.findRun 2 = some 0x5C000 ∧ State.reset.me.rxMsg = [] ∧
      ((after (.messageArrival 0) s).site 0).core.chq[29].length = 1 ∧ (after (.messageArrival 0) s).byteAt 0 0x5C020 = 2 := by decide
theorem witness_MessagesAndActivations_start :
    let d : Desc := { hdr := mkHdr 9 0 0 2 31, addr := 0x5C000, beats := 2, entry := 0, head := some 0 }
    let s := site0 fun x => { x with core := { x.core with htab := x.core.htab.set 31 0x100000100, chq := x.core.chq.set 31 [d] } }
    let v := (s.selectBefore 0).modCore 0 fun k => k.age s.cycle
    (s.site 0).selects = true ∧ ((v.site 0).order.map (·.1)) = [31] ∧ (v.site 0).core.freeCtx 31 = some 0 ∧
      ((after (.activationStart 0) s).ctxAt 0 0).pc = 256 ∧ ((after (.activationStart 0) s).ctxAt 0 0).sreg 2 = 0x5C000 ∧
      ((site0 fun x => { x with haltReq := true }).site 0).selects = false ∧ d.head = some 0 ∧ d.runBy = none := by decide
theorem witness_Retirement :
    let s := groupCtx fun c => c.setS 1 0
    Ready .retire s ∧ Ready .retireWord s ∧ Ready (.retireS 1) s ∧ s.ctx.persisted = none ∧ entPersist (s.me.entry s.ctx.chan) = false ∧
    (let t := s.modCore 0 fun k => { k with htab := k.htab.set 0 (BitVec.ofNat 64 (2 ^ 29)) }
     entPersist (t.me.entry t.ctx.chan) = true ∧ Ready .retire t ∧ (after .retire t).ctx.st = .stalled ∧ (after .retire t).me.core.mxovf = 0) ∧
    (let t := (s.modSite 0 fun x => { x with ballast := { x.ballast with last := 1 } }).modCtx fun c => { c with persisted := some 1, heldOvf := 7 }
     (t.ctx.persisted = some 1 ∧ 1 ≤ t.me.ballast.last ∧ Ready .retire t) ∧ (after .retire t).ctx.st = .empty ∧ (after .retire t).me.core.mxovf = 7) ∧
    (let t := s.modCtx fun c => { c with persisted := some 1 }
     t.ctx.persisted = some 1 ∧ t.me.ballast.last < 1 ∧ Ready .retire t) ∧
    (let t := s.modCtx fun c => c.setS 1 9
     t.refuses 9 = true ∧ Ready (.retireS 1) t ∧ causeOf (.retireS 1) t = some 0x11) := by decide
theorem witness_FarAccesses :
    let f := fun (a : Word) => groupCtx fun c => c.setS 2 a
    let onTile := fun (s : State) => (s.ctx.sreg 2).toNat < 2 ^ 32 ∧ (s.ctx.sreg 2).toNat / 2 ^ 19 % 2 ^ 13 < (s.membersOf 0).length
    let g := (group id off).modCtx fun c => c.setS 2 0x80000
    (∀ i ∈ ([.ldf32 1 2 0, .ldf64 1 2 0, .lvf 1 2 0, .stf32 1 2 0, .stf64 1 2 0, .svf 1 2 0] : List Instr), Ready i (f 0x80000)) ∧
    (0x80000 % 2 ^ 19 + 32 ≤ 0x60000 ∧ onTile (f 0x80000) ∧ ((f 0x80000).memberTile 0 1).map (f 0x80000).isOff = some false) ∧
    ¬onTile (f 0x100000) ∧ causeOf (.ldf32 1 2 0) (f 0x100000) = some 8 ∧ onTile (f 0xE0000) ∧ causeOf (.stf64 1 2 0) (f 0xE0000) = some 4 ∧
    onTile (f 0xDFFFF) ∧ causeOf (.lvf 1 2 0) (f 0xDFFFF) = some 5 ∧ (g.memberTile 0 1).map g.isOff = some true ∧ causeOf (.svf 1 2 0) g = some 0xF ∧
    Legal (.svf 1 2 0) skipping ∧ (after (.ldf32 1 2 0) (f 0x80000)).ctx.st = .stalled ∧
    (after (.stf32 1 2 0) (f 0x80000)).ctx.unacked = [(1, 0)] := by decide
theorem witness_FarAccesses_masked :
    (List.range 32).filter skipping.ctx.enabled = [] ∧
    let s := groupCtx fun c => { ((c.setS 2 0x7FFFF).setP 1 0x80000002) with pfx := some (1, false) }
    Legal (.svf 1 2 0) s ∧ ((List.range 32).filter s.ctx.enabled).head? = some 1 ∧ ((List.range 32).filter s.ctx.enabled).getLast? = some 31 ∧
      (after (.svf 1 2 0) s).ctx.unacked = [(1, 0)] := by decide
theorem witness_AtomicRequests :
    let ops := fun (w : Fin 2) (p : Fin 4) => ([.aadd 1 2 3 w p, .aand 1 2 3 w p, .aor 1 2 3 w p, .axor 1 2 3 w p, .amin 1 2 3 w p, .amax 1 2 3 w p,
      .aminu 1 2 3 w p, .amaxu 1 2 3 w p, .aswap 1 2 3 w p, .acas 1 2 3 w p] : List Instr)
    let f := fun (a : Word) => groupCtx fun c => c.setS 2 a
    let held := (f 0).modSite 0 fun x => { x with ballast := { x.ballast with st := .requested 0 } }
    (∀ i ∈ ops 0 0 ++ ops 1 1 ++ ops 1 2, Ready i (f 0)) ∧ (f 0).commitHolds = false ∧ (f 0x80000).wcheck 0 0x80000 8 = none ∧
    held.commitHolds = true ∧ (∀ i ∈ ops 0 0, Ready i held ∧ (after i held).ctx.st = .stalled) ∧ (∀ i ∈ ops 1 0, causeOf i (f 4) = some 3) ∧
    (∀ i ∈ ops 0 0, causeOf i (f 0x60000) = some 4 ∧ (after i (f 0x5FFFC)).me.core.caq.length = 1) := by decide
theorem witness_OwnerRequests :
    let f := fun (a : Word) => groupCtx fun c => c.setS 2 a
    let here : Word := 0x1000000000000000
    let there : Word := 0x7000000000080000
    (∀ i ∈ ([.xaddf 2 3 1, .xrd 1 2 0, .xclr 2] : List Instr), Ready i (f 0x5FFC0) ∧ causeOf i (f 0x5FFC1) = some 3) ∧ (f 0x80000).wcheck 0 0x80000 64 = none ∧
    Ready (.rpush 1 7 3) (f 0) ∧ Ready (.rpop 1 7 3) (f 0) ∧ (f 0).commitHolds = false ∧ verAddr here = some (false, 0, 2) ∧
    verAddr there = some (true, 0x80000, 8) ∧ (f there).wcheck 0 0x80000 64 = none ∧ verAddr 0 = none ∧
    (∀ i ∈ ([.vst 1 2 3, .vld 1 2 3, .vrecl 2 3] : List Instr), Ready i (f here) ∧ Ready i (f there) ∧ causeOf i (f 0) = some 8) ∧
    (after (.vrecl 2 3) (f here)).ctx.posted = 1 := by decide

/-! Requests at their owners. -/

/-- A request of context 0 of tile 0. -/
def req0 (op : FarOp) (a : Nat) : FarReq := { op := op, addr := a, site := 0, ctx := 0, id := 4 }
/-- Tile 0 with one request in front of ca and context 0 waiting for its answer. -/
def asking (r : FarReq) (d : Dest) (f : Site → Site) : State :=
  (site0 fun x => f { x with core := { x.core with caq := [r] } }).modCtx fun c => { c with st := .stalled, wait := .resp 4 d 4 none }
def slot0 (x : Nat) (s : Site) : Site := { s with mem := memWrite [] 8 8 x }

theorem witness_OwnerService :
    (∀ op ∈ [0, 9], let s := asking (req0 (.atomic op 64 3 0) 8) (.s 1) (slot0 5)
      Live s 0 ∧ (s.site 0).core.caq = req0 (.atomic op 64 3 0) 8 :: [] ∧ (s.site 0).bad = [] ∧ (s.ctxAt 0 0).st = .stalled ∧
        (s.ctxAt 0 0).wait = .resp 4 (.s 1) 4 none ∧ ((after (.caOperation 0) s).ctxAt 0 0).sreg 1 = 5 ∧
        memRead ((after (.caOperation 0) s).site 0).mem 8 8 = if op = 0 then 8 else 5) ∧
    ((2 : Nat) ^ 32 - 1 < 2 ^ 32 ∧ atomicNew 0 32 (2 ^ 32 - 1) 1 0 = 0 ∧ atomicNew 4 32 (2 ^ 32 - 1) 1 0 = 2 ^ 32 - 1 ∧
      atomicNew 6 32 (2 ^ 32 - 1) 1 0 = 1 ∧ atomicNew 9 32 7 9 7 = 9) := by decide
theorem witness_OwnerService_versions :
    let w := 2 ^ 56 + 3 * 2 ^ 32 + 77
    let load := fun (n : BitVec 16) (x : Nat) => asking (req0 (.vld n 2) 0) (.s 1) (slot0 x)
    let store := fun (n : BitVec 16) (x : Nat) => asking (req0 (.vst n 77 2) 0) .none (slot0 x)
    (∀ s ∈ [load 3 w, load 1 w, load 3 0, store 3 0, store 1 w], Live s 0 ∧ (s.site 0).core.caq.length = 1 ∧ (s.site 0).bad = [] ∧
      (s.ctxAt 0 0).st = .stalled ∧ (s.site 0).core.parked = []) ∧
    slotOf w = (false, true, 3, 77) ∧ newer 3 1 = true ∧ newer (0x8000 + 1) 1 = true ∧ newer (0x8000 + 2) 1 = false ∧
    ((after (.caOperation 0) (load 3 w)).ctxAt 0 0).sreg 1 = 77 ∧ ((after (.caOperation 0) (load 1 w)).ctxAt 0 0).st = .trapped ∧
    ((after (.caOperation 0) (load 3 0)).site 0).core.parked.length = 1 ∧
    memRead ((after (.caOperation 0) (store 3 0)).site 0).mem 8 8 = w ∧ ((after (.caOperation 0) (store 1 w)).ctxAt 0 0).st = .trapped := by decide
/-- A packet for tile 0. -/
def toTile (l : Load) : Pkt := { src := 1, dst := 0, vc := 0, body := 0, load := l }
def far1 (op : FarOp) : FarReq := { ni := true, op := op, addr := 0x5FFE0, site := 1, ctx := 2, id := 9 }
theorem witness_OwnerService_network :
    let s := site0 fun x => { x with svc := [toTile (.far (far1 (.load 32)))] }
    let t := site0 fun x => { x with svc := [toTile (.far (far1 (.store (offsets (leBytes 32 0x0102)))))] }
    (∀ v ∈ [s, t], Live v 0 ∧ (v.site 0).bad = [] ∧ (v.site 0).svc.length = 1) ∧ (far1 (.load 32)).ni = true ∧
      ((after (.farRequestService 0) s).site 0).svc.length = 0 ∧ (after (.farRequestService 0) t).byteAt 0 0x5FFE1 = 1 := by decide
theorem witness_OwnerService_answers :
    let u := (site0 fun x => { x with rxResp := [toTile (.resp 0 4 { val := 6 })] }).modCtx fun c => { c with st := .stalled, wait := .resp 4 (.s 1) 4 none }
    let v := fun (tr : Option Trap) (b : Nat) =>
      (site0 fun x => { x with rxResp := [toTile (.ack 0 1 5 tr)] }).modCtx fun c => { c with st := .running, unacked := [(3, 4), (1, 5)], reqBase := b }
    (∀ s ∈ [u, v none 0, v (some { cause := 7 }) 5, v (some { cause := 7 }) 6], Live s 0 ∧ (s.site 0).halted = false ∧ (s.site 0).rxResp.length = 1) ∧
      ((after (.farResponseArrival 0) u).ctxAt 0 0).sreg 1 = 6 ∧ ((after (.farResponseArrival 0) (v none 0)).ctxAt 0 0).unacked = [(3, 4)] ∧
      ((v (some { cause := 7 }) 5).ctxAt 0 0).st = .running ∧
      ((after (.farResponseArrival 0) (v (some { cause := 7 }) 5)).ctxAt 0 0).st = .trapped ∧
      ((after (.farResponseArrival 0) (v (some { cause := 7 }) 6)).ctxAt 0 0).st = .running := by decide
theorem witness_OwnerService_resend :
    let y := (code0 4 (wA 0x19 3 2 1 0x37)).modCtx fun c => { c with st := .stalled, wait := .retry 0 }
    let z : State := { y with cycle := 64 }
    (z.ctxAt 0 0).st = .stalled ∧ (z.ctxAt 0 0).wait = .retry 0 ∧ z.pending 0 0 = some (.vld 1 2 3) ∧
      ((after (.vldResend 0 0) z).ctxAt 0 0).st = .running ∧ ((after (.vldResend 0 0) y).ctxAt 0 0).st = .stalled := by decide
theorem witness_CopiesAndFolds :
    let f := fun (n : Word) (k : Nat) => (groupCtx fun c => (c.setS 1 n).setS 2 0x8000000000000000).modCore 0 fun x =>
      { x with copyq := List.replicate k { len := 1, src := 0, dst := 0, vc := 0, ctx := 0, tag := 0 } }
    (∀ s ∈ [f 0 0, f 0x1000000 0, f 0x1000001 0, f 1 8, f 1 7], Ready (.cpy 1 2 0 3) s ∧ s.ctx.posted = 0) ∧ causeOf (.cpy 1 2 0 3) (f 0 0) = some 4 ∧
    (after (.cpy 1 2 0 3) ((f 1 7).modCtx fun c => { c with posted := 1 })).ctx.st = .stalled ∧
    causeOf (.cpy 1 2 0 3) (f 0x1000001 0) = some 4 ∧ copySpace 0x8000000000000000 = .global 0 ∧ copySpace 0 = .scratch 0 ∧
    copySpace 0x4000000000080000 = .window 0x80000 ∧ copySpace 0xC000000000000000 = .bad ∧ (f 1 0).wcheck 0 0x80000 1 = none ∧
    (after (.cpy 1 2 0 3) (f 1 7)).me.core.copyq.length = 8 ∧ (after (.cpy 1 2 0 3) (f 1 8)).ctx.st = .stalled ∧
    ((cutPieces 0x40000000000800FF 0x1FE 3 3).map fun p => (p.len, p.writes)) = [(1, [(0, 1)]), (2, [(0, 1), (1, 1)])] ∧
    causeOf (.cpy 1 2 0 3) (groupCtx fun c => (c.setS 1 1).setS 2 0xC000000000000000) = some 8 := by decide
theorem witness_CopiesAndFolds_engines :
    let p : Piece := { src := 0, dst := 0, len := 1, st := .acked, good := 1 }
    let c : CpCmd := { len := 1, src := 0, dst := 0, vc := 0, ctx := 3, tag := 5 }
    let s := core0 fun k => { k with copyq := [c] }
    let t := core0 fun k => { k with copies := [{ c with pieces := [p] }], q7 := { items := List.replicate 15 0 } }
    let e : Word := 0x1400000000000000
    let u := core0 fun k => { k with q7 := { items := [e, 0x1000000000000000], pops := 3 } }
    (Live s 0 ∧ (s.site 0).core.copies = [] ∧ (s.site 0).core.copyq = c :: []) ∧ (({ c with pieces := [p] } : CpCmd).finished = true ∧ c.ctx < 4 ∧
      (t.site 0).core.q7.items.length < 16) ∧ ((after (.copyCommandStart 0) s).site 0).core.copies.length = 1 ∧
    ((after (.copyCompletion 0) t).site 0).core.q7.items.getD 15 0 = 0x1C00000500000001 ∧ Ready (.cpypop 1) u ∧
    ((e.extractLsb' 58 2).toNat == 0) = false ∧ (((0x1000000000000000 : Word).extractLsb' 58 2).toNat == 0) = true ∧
    (after (.cpypop 1) u).ctx.sreg 1 = 0x1000000000000000 ∧ (after (.cpypop 1) State.reset).ctx.sreg 1 = 0 ∧
    (let v := u.modCore 0 fun k => { k with badQ := [(7, 4)] }
     (7, v.me.core.q7.pops + 1) ∈ v.me.core.badQ ∧ Ready (.cpypop 1) v ∧ causeOf (.cpypop 1) v = some 9) := by decide
theorem witness_CopiesAndFolds_folds :
    let f := fun (x : Word) (n : Nat) => (ctx0 fun c => c.setS 1 x).modCore 0 fun k =>
      { k with foldSeen := k.foldSeen.set 1 (some 2), foldq := List.replicate n { desc := 0, m := 0, e := 0, ctx := 0 } }
    let slot : FoldSlot := { mode := 0, exp := 0, acc := 5, sat := false, had := true }
    let g := fun (d : Word) => core0 fun k => { k with foldq := [{ desc := d, m := 0, e := 0, ctx := 2 }], folds := k.folds.set 1 (some slot) }
    (∀ s ∈ [f 0x190000 7, f 0x090000 7, f 0x190000 8, f 0x0D0000 0, f 0x040000 0], Ready (.fold 1 2 3) s) ∧
    (after (.fold 1 2 3) (f 0x190000 7)).me.core.foldq.length = 8 ∧ (after (.fold 1 2 3) (f 0x090000 7)).me.core.foldq.length = 8 ∧
    (after (.fold 1 2 3) (f 0x190000 8)).ctx.st = .stalled ∧ causeOf (.fold 1 2 3) (f 0x0D0000 0) = some 1 ∧ causeOf (.fold 1 2 3) (f 0x040000 0) = some 1 ∧
    (∀ n ∈ [0x010000, 0x210000], let d : Word := BitVec.ofNat 64 n
     Live (g d) 0 ∧ bit d.toNat 20 = false ∧ bit d.toNat 22 = false ∧ foldSlotOf d = 1 ∧
      (g d).me.core.q7.items.length < 16 ∧ ((after (.foldPerform 0) (g d)).site 0).core.foldq.length = 0) ∧
    ((after (.foldPerform 0) (g 0x210000)).ctxAt 0 2).fr = 5 := by decide

/-! Global memory: one page of 64 KiB at 0x300000, of process 0. -/

def pages : List Host.Cell :=
  memWrite (memWrite (memWrite (memWrite [] 0 8 0x10001) 0x10000 8 0x20001) 0x20000 8 0x30001) 0x30180 8 0x300019
def globe (f : Ctx → Ctx) : State := ({ State.reset with cur := (8192, 0), phys := pages } : State).modCtx f
def read0 : GReq := { op := .read 8, va := 0x300000, pid := 0, site := 0, ctx := 1, id := 2 }

theorem witness_GlobalRequests :
    let f := fun (a : Word) => globe fun c => (c.setS 2 a).setS 3 0x10000
    let edge := f 0x3007F8
    (∀ i ∈ ([.lgd 1 2, .sgd 2 3] : List Instr), Ready i edge ∧ Ready i (f 0x3007F9) ∧ causeOf i (f 0x3007F9) = some 5) ∧
    ((edge.ctx.sreg 2).toNat < 2 ^ 54 ∧ (edge.ctx.sreg 2).toNat % 2048 + 8 ≤ 2048) ∧ Legal (.lgv 1 2) (f 0x300000) ∧ Ready (.sgv 1 2) (f 0x300000) ∧
    (after (.lgd 1 2) edge).ctx.st = .stalled := by decide
theorem witness_GlobalRequests_stores :
    let f := fun (a : Word) => globe fun c => (c.setS 2 a).setS 3 0x10000
    (after (.sgd 2 3) (f 0x310000)).ctx.st = .stalled ∧ (after (.sgd 2 3) (f 0x310000)).ctx.unacked.length = 1 := by decide
theorem witness_GlobalRequests_faults :
    let f := fun (a : Word) => globe fun c => (c.setS 2 a).setS 3 0x10000
    ∀ i ∈ ([.lgd 1 2, .lgv 1 2, .sgd 2 3, .sgv 1 2] : List Instr), Ready i (f 0x40000000000000) ∧ causeOf i (f 0x40000000000000) = some 7 := by decide
theorem witness_GlobalRequests_seal :
    let f := fun (a n : Word) => globe fun c => (c.setS 2 a).setS 3 n
    Ready (.seal 2 3) (f 0x300000 0x10000) ∧ Ready (.unseal 2 3) (f 0x300000 0x10000) ∧
    (match (f 0x300000 0x10000).pagesOf 0 0x300000 0x310000 1 0x300000 [] with | .inr ps => ps.length == 1 | _ => false) = true ∧
    (after (.seal 2 3) (f 0x300000 0x10000)).seals.length = 1 ∧ (after (.seal 2 3) (f 0x300000 0x10000)).ctx.st = .stalled ∧
    causeOf (.seal 2 3) (f 0x308000 0x10000) = some 3 ∧ causeOf (.unseal 2 3) (f 0x300000 0x8000) = some 3 ∧
    (let s := ({ State.reset with cur := (8384, 0), stations := [(0, { cache := [{ pid := 5, base := 0, bits := 16, leaf := 0 }] })] } : State).modSite
        8384 fun x => { x with super := true }
     let s := s.modCtx fun c => c.setS 3 0x10005
     let busy : State := { s with stations := [(7, { svc := [({ read0 with pid := 5 }, .place 0x300000 16)] })] }
     isHelm s.cur.1 = true ∧ s.me.super = true ∧ Ready (.tlbiH 2 3) s ∧ (s.ctx.sreg 3).toNat < 2 ^ 17 ∧
       ((after (.tlbiH 2 3) s).station 0).cache = [] ∧ (after (.tlbiH 2 3) s).ctx.pc = 4 ∧ Ready (.tlbiH 2 3) busy ∧
       (after (.tlbiH 2 3) busy).ctx.st = .stalled ∧ causeOf (.tlbiH 2 2) (s.modCtx fun c => c.setS 2 0x20000) = some 1) ∧
    (isHelm State.reset.cur.1 = false ∧ Legal (.tlbiH 2 3) State.reset ∧ causeOf (.tlbiH 2 3) State.reset = some 2) := by decide
theorem witness_GlobalRequests_push :
    let f := fun (q : Nat) (ps : List Push) => (({ (group id id) with cur := (8192, 0), phys := pages, pushes := ps } : State).modCtx fun c =>
      (c.setS 1 (BitVec.ofNat 64 (0x5BFE0 * 0x100000000 + q * 0x10000 + 1))).setS 2 0x300000)
    let mine : Push := { site := 8192, ctx := 0, id := 0, beats := [some { val := 7 }] }
    let beyond := (f 1 []).modCtx fun c => c.setS 2 0x40000000000000
    (Ready (.pusht 1 2 31) beyond ∧ causeOf (.pusht 1 2 0) beyond = some 7) ∧
    (∀ q ∈ [0, 1, 2], ∀ ps ∈ ([[], [mine]] : List (List Push)), let s := f q ps
      (s.ctx.sreg 1).toNat < 2 ^ 56 ∧ bits (s.ctx.sreg 1).toNat 51 3 = 0 ∧ bits (s.ctx.sreg 1).toNat 18 14 = 0 ∧ bits (s.ctx.sreg 1).toNat 13 3 = 0 ∧
        s.activeOf 1 0 = true ∧ s.isOff 1 = false ∧ Ready (.pusht 1 2 0) s ∧ s.pushes.find? (fun p => p.site == 8192 && p.ctx == 0) = ps.head? ∧
        1 ≤ (s.site 1).pushRoom 1 ∧ (after (.pusht 1 2 0) s).ctx.st = .stalled ∧
        (after (.pusht 1 2 0) s).pushes.map (·.beats) = if ps = [] then [[none]] else []) ∧
      bit ((f 1 []).ctx.sreg 1).toNat 16 = true ∧ bits ((f 1 []).ctx.sreg 1).toNat 32 19 + 32 ≤ 0x5C000 ∧ (0x300000 : Nat) + 32 * 0 < 2 ^ 54 := by decide
theorem witness_GlobalService :
    let leaf : Word := 0x300019
    let f := fun (st : Station) => ({ State.reset with phys := pages, stations := [(0, st)] } : State)
    let miss := f { rxq := [read0] }
    let hit := f { rxq := [read0], cache := [{ pid := 0, base := 0x300000, bits := 16, leaf := leaf }] }
    let walking := f { walk := some read0 }
    let lost := f { walk := some { read0 with va := 0x310000 } }
    let faulty := f { svc := [(read0, .fault { cause := 7 })] }
    let write0 : GReq := { read0 with op := .write (leBytes 8 1), id := 0 }
    let sealed := f { rxq := [write0], cache := [{ pid := 0, base := 0x300000, bits := 16, leaf := leaf }], seals := [(0, 0x300000, 0x10000)] }
    let free := (f { rxq := [write0], cache := [{ pid := 0, base := 0x300000, bits := 16, leaf := leaf }] }).modSite 0 fun x =>
      { x with core := { x.core with ctxs := x.core.ctxs.set 1 { st := .stalled, wait := .resp 0 .none 4 none } } }
    let full := f { rxq := [read0], walk := some read0, svc := List.replicate 64 (read0, .place 0x300000 16) }
    (∀ s ∈ [sealed, free, full], Live s 8192) ∧ (sealed.gcheck 0 write0 leaf.toNat).isSome = true ∧
      ((after (.stationRequest 0) sealed).station 0).svc.length = 1 ∧ free.gcheck 0 write0 leaf.toNat = none ∧
      free.partBad write0 0x300000 = none ∧ ((after (.stationRequest 0) free).ctxAt 0 1).pc = 4 ∧ ((after (.stationRequest 0) free).ctxAt 0 1).st = .running ∧
      (full.station 0).svc.length = 64 ∧ ((after (.tableWalkComplete 0) full).station 0).svc.length = 64 ∧
    (∀ s ∈ [miss, hit, walking, lost, faulty], Live s 8192) ∧ isHalyard 8192 = true ∧ isSealOp read0.op = false ∧ (miss.station 0).held = [] ∧
      read0.piece = none ∧ read0.beat = none ∧ ((after (.hbmAccessComplete 0) faulty).station 0).svc = [] ∧
      (miss.station 0).walk = none ∧ (hit.station 0).svc.length < 64 ∧ eMig leaf.toNat = false ∧ hit.gcheck 0 read0 leaf.toNat = none ∧
      ((walking.walk 0 0x300000).map (·.leaf)) = some 0x300019 ∧ lost.walk 0 0x310000 = none ∧
      ((after (.stationRequest 0) miss).station 0).walk = some read0 ∧ ((after (.stationRequest 0) hit).station 0).svc = [(read0, .place 0x300000 16)] ∧
      ((after (.tableWalkComplete 0) walking).station 0).svc = [(read0, .place 0x300000 16)] ∧ ((after (.tableWalkComplete 0) lost).station 0).walk = none := by
  decide
theorem witness_GlobalService_beat :
    let p : Pkt := { src := 8192, dst := 8193, vc := 1, body := 0, load := .beat 0 4 1 { val := 9 } }
    let e : Push := { site := 8193, ctx := 0, id := 4, beats := [some { val := 7 }, none] }
    let s : State := { (State.reset.modSite 8193 fun x => { x with rxResp := [p] }) with pushes := [e] }
    Live s 8193 ∧ (s.site 8193).halted = false ∧ (s.site 8193).rxResp = p :: [] ∧ s.pushes = [e] ∧ e.beats.length = 1 + 1 ∧
      (e.beats.take 1).all (fun x => x.any fun y => y.trap.isNone) = true ∧
      (after (.farResponseArrival 8193) s).pushes.map (fun e => e.beats.map fun b => b.map (·.val)) = [[some 7, some 9]] := by decide
theorem witness_GlobalService_access :
    let f := fun (op : GOp) (pa : Nat) => ({ State.reset with stations := [(0, { svc := [({ read0 with op := op }, .place pa 16)] })] } : State)
    let w := GOp.write (leBytes 8 0x0102)
    (∀ s ∈ [f (.read 8) 0xBFFFFFFFF8, f w 0xBFFFFFFFF8, f (.atomic 0 64 5 0) 0xBFFFFFFFF8], s.badPhys = [] ∧ nexts (.hbmAccessComplete 0) s = true) ∧
    (∀ s ∈ [f (.read 8) 0x10000000000, f w 0x8FFFFFFFF8], nexts (.secondTierAccessComplete 0) s = true) ∧ read0.piece = none ∧
    0xBFFFFFFFF8 + w.size ≤ 0xC000000000 ∧ 0x8FFFFFFFF8 + w.size ≤ 0x90000000000 ∧
    (after (.hbmAccessComplete 0) (f w 0xBFFFFFFFF8)).physAt 0xBFFFFFFFF9 = 1 ∧
    memRead (after (.hbmAccessComplete 0) (f (.atomic 0 64 5 0) 0xBFFFFFFFF8)).phys 0xBFFFFFFFF8 8 = 5 ∧
    nexts (.pageTableWrite 0xBFFFFFFFF8 1) State.reset = true := by decide
theorem witness_GlobalService_seal :
    let o : SealOp := { num := 0, lifts := false, pid := 0, base := 0x300000, len := 0x10000, site := 8192, ctx := 0, id := 0, left := [0, 1] }
    let s : State := { State.reset with phys := pages, seals := [o], stations := [(0, { rxq := [{ read0 with op := .seal 0 }] })] }
    Live s 8192 ∧ (s.station 0).walk = none ∧ (s.station 0).svc = [] ∧ (s.station 0).held = [] ∧ o.lifts = false ∧ 1 ∈ o.left ∧ (1 : Nat) ≠ 0 ∧
      (match s.pagesOf 0 0x300000 0x310000 1 0x300000 [] with | .inr ps => ps.all fun p => !eMig p.leaf | _ => false) = true ∧
      ((after (.sealRequestArrival 0) s).seals.map (·.left)) = [[1]] ∧
    (let p := fun (q : Bool) => ({ src := 8192, dst := 0, vc := 0, body := 1, load := .push q 1 0x5BFE0 [9] 8192 0 0 } : Pkt)
     let t := fun (q : Bool) => site0 fun x => { x with rxPush := [p q], core := { x.core with q45 := x.core.q45.set 1 { items := List.replicate 15 0 } } }
     Live (t true) 0 ∧ ((t true).site 0).core.q45[1].items.length < 16 ∧ ((after (.pushBeatArrival 0) (t true)).site 0).core.q45[1].items.length = 16 ∧
       (after (.pushBeatArrival 0) (t false)).byteAt 0 0x5BFE0 = 9) := by decide
theorem witness_SemaphoresAndBarriers :
    let f := fun (n : BitVec 32) (w : List (Nat × Nat × Nat)) => (core0 fun k =>
      { k with sem := k.sem.set 15 n, waiters := w, ctxs := k.ctxs.set 1 { st := .stalled } })
    (∀ i ∈ ([.semset 15 1, .semadd 15 31, .semwait 15 31] : List Instr), Ready i (f 31 []) ∧ Ready i (f 30 []) ∧ Ready i (f 0 [(15, 1, 31)])) ∧
    (f 31 []).ctx.posted = 0 ∧ (after (.semadd 15 31) ((f 31 []).modCtx fun c => { c with posted := 1 })).ctx.st = .stalled ∧
    (f 31 []).me.core.waiters = [] ∧ ((f 0 [(15, 1, 31)]).ctxAt 0 1).st = .stalled ∧ (0 : Fin 4) ≠ 1 ∧ (31 : Nat) ≤ 0 + 31 ∧
    ((after (.semadd 15 31) (f 0 [(15, 1, 31)])).ctxAt 0 1).st = .running ∧ (after (.semwait 15 31) (f 31 [])).me.core.sem[15] = 0 ∧
    (after (.semwait 15 31) (f 30 [])).ctx.st = .stalled ∧ (after (.semwait 15 1) (f 31 [(15, 1, 31)])).ctx.st = .stalled := by decide
theorem witness_SemaphoresAndBarriers_bars :
    let f := fun (a c : BitVec 16) (b : BReg) => ((groupCtx fun x => { x with b := x.b.set 3 b }).modCtx fun x => x.setS 2 1).modCore 0 fun k =>
      { k with barA := k.barA.set 3 a, barC := k.barC.set 3 c }
    (∀ s ∈ [f 7 7 {}, f 8 8 { pend := true, token := 7 }, f 9 7 {}, f 1 1 {}, f 2 2 {}, f 0xFFFF 0xFFFF {}], Ready (.bar 3) s ∧ Ready (.bara 1 3) s ∧ Ready (.barw 1 3 2) s) ∧
    (after (.bar 3) (f 7 7 {})).ctx.b[3] = { pend := true, token := 7 } ∧ token 7 8 = .stale ∧ (after (.bar 3) (f 8 8 { pend := true, token := 7 })).ctx.b[3].pend = false ∧
    ((9 : BitVec 16) - 7).toNat = 2 ∧ (after (.bara 1 3) (f 9 7 {})).ctx.st = .stalled ∧ (after (.bara 1 3) (f 7 7 {})).ctx.sreg 1 = 7 ∧
    token 1 1 = .wait ∧ token 1 0 = .wait ∧ token 1 2 = .stale ∧ token 1 0xFFFF = .future ∧ (after (.barw 1 3 2) (f 2 2 {})).ctx.st = .running ∧
    causeOf (.barw 1 3 2) (f 0xFFFF 0xFFFF {}) = some 0x10 := by decide
theorem witness_SemaphoresAndBarriers_release :
    let late := group (fun x => { x with core := { x.core with barC := x.core.barC.set 3 0xFFFF } }) id
    let arrived := fun (x : Site) => { x with core := { x.core with barA := x.core.barA.set 3 1 } }
    let all := group arrived arrived
    mapGet? late.launches 5 = some launch0 ∧ launch0.members[1]? = some 1 ∧ launch0.members[0]? = some 0 ∧ (late.site 0).core.barC[3] ≠ launch0.barOpen[3] ∧
      (all.site 1).core.barC[3] = launch0.barOpen[3] ∧ (∀ q ∈ launch0.members, all.lineUp launch0 q 3 launch0.barOpen[3] = true) ∧
      late.lineUp launch0 1 3 launch0.barOpen[3] = false ∧ late.lineUp { launch0 with raised := [1] } 1 3 launch0.barOpen[3] = true ∧ ((after (.ratlineRelease 5 3 0) late).site 0).core.barC[3] = 0 ∧
      ((mapGet? (after (.ratlineRelease 5 3 1) all).launches 5).map (·.barOpen[3])) = some 1 := by decide
theorem witness_Phasers :
    let f := fun (x : Word) => groupCtx fun c => c.setS 2 x
    let q := fun (op : PhOp) => ({ op := op, launch := 5, phaser := 7, member := 1, site := 1, ctx := 0, id := 0 } : PhReq)
    let m : PhMember := { member := 1, mode := 2, start := 0, nextS := 0 }
    let p : Phaser := { regs := [m] }
    (∀ i ∈ ([.phreg 1 2 2, .phdrop 2, .phsig 1 2, .phwait 1 2 3, .phnext 1 2] : List Instr), Ready i (f 7) ∧ (after i (f 7)).ctx.st = .stalled ∧
      causeOf i (f 8) = some 8) ∧ (f 7).me.krn.launch = some 5 ∧
    (let s : State := { f 7 with phq := [(3, [q .next])] }
     mapGetD s.phq 3 [] = q .next :: [] ∧ mapGet? s.launches 5 = some launch0 ∧ mapGetD (after (.phaserRequest 3) s).phq 3 [] = []) ∧
    (({} : Phaser).find 1 = none ∧ p.find 1 = some m ∧ m.mode ≠ 1 ∧ m.start = p.phase ∧ m.nextS = p.phase ∧ m.mode ≠ 0 ∧ p.queue = []) ∧
    token 0 p.phase = .wait ∧ token 0xFFFF p.phase = .stale ∧ token 2 p.phase = .future ∧ (p.serve (q .sig)).1.phase = 1 := by decide
theorem witness_FencesAndPersistence :
    let f := fun (g : Ctx → Ctx) => (group (fun x => { x with ballast := { x.ballast with last := 3 } }) id).modCtx g
    let held := f fun c => { c with posted := 1, unacked := [(1, 0)] }
    (∀ d ∈ ([0, 1, 2, 5] : List (Fin 32)), Ready (.fence d) (f id) ∧ Ready (.fence d) held ∧ (after (.fence d) (f id)).ctx.pc = 4) ∧
    (after (.fence 0) held).ctx.pc = 4 ∧ (after (.fence 1) held).ctx.st = .stalled ∧ Ready .pfenceT (f id) ∧ Ready .pfenceG (f id) ∧ (f id).ctx.persisted = none ∧
    (let s := f fun c => { c with persisted := some 3, owners := [] }
     let t := f fun c => { c with persisted := some 4, owners := [1] }
     s.ctx.persisted = some 3 ∧ 3 ≤ s.me.ballast.last ∧ t.me.ballast.last < 4 ∧ t.liveMember 1 = true ∧ Ready .pfenceG t ∧
       (after .pfenceG s).ctx.pc = 4 ∧ (after .pfenceT t).ctx.st = .stalled) ∧
    Ready (.pstat 1) (f id) ∧ (f id).me.ballast.dirty.length < 4096 ∧ (after (.pfenceT) (f id)).ctx.persisted = some 4 := by decide
theorem witness_FencesAndPersistence_requests :
    let f := fun (x : Word) => (group id id).modCtx fun c => (c.setS 2 x).setS 1 0x100
    let gone := (group id off).modCtx fun c => c.setS 2 1
    let named := fun (s : State) => (s.ctx.sreg 2).toNat < 64 ∧ (mapGet? s.tenants s.me.krn.tenant).map (fun te => te.cfg.counters.contains (s.ctx.sreg 2).toNat) = some true
    (∀ m ∈ ([0, 1] : List (Fin 32)), Ready (.pgate 2 m) (f 1) ∧ Ready (.pgate 2 m) (f 2) ∧ causeOf (.pgate 2 m) (f 2) = some 8 ∧
      causeOf (.pgate 2 m) gone = some 0xF) ∧ Legal (.pgate 2 2) (f 1) ∧ causeOf (.pgate 2 2) (f 1) = some 2 ∧ (f 1).memberTile 0 1 = some 1 ∧
    named (f 63) ∧ ¬named (f 62) ∧ Ready (.cntrd 1 2) (f 63) ∧ Ready (.cntset 2 3) (f 63) ∧ causeOf (.cntrd 1 2) (f 62) = some 8 ∧
    causeOf (.cntset 2 3) (f 62) = some 8 ∧ (after (.cntset 2 3) (f 63)).ctx.unacked = [(8404, 0)] ∧
    (let desc : Nat := 0x100 + 0x100000000 * 2 ^ 64 + 32 * 2 ^ 128
     let s := (f 63).modSite 0 fun x => { x with mem := memWrite [] 0x100 32 desc }
     (s.ctx.sreg 1).toNat % 32 = 0 ∧ s.descOk (memBytes s.me.mem 0x100 32) = true ∧ s.srcCheck (sendDesc (memBytes s.me.mem 0x100 32)) = none ∧
       s.armsHeld < 64 ∧ s.ctx.posted = 0 ∧ Ready (.tsend 1 2 3) s ∧ (after (.tsend 1 2 3) s).ctx.pc = 4 ∧
       (after (.tsend 1 2 3) (s.modCtx fun c => { c with posted := 1 })).ctx.st = .stalled) := by decide

/-! Link engines, ballast, gates, launches. -/

/-- The group with link engine 0, between tiles 0 and 1, changed by f. -/
def link0 (f : Engine → Engine) : State := (group id id).setEngine 0 (f {})
/-- Context 0 of tile 0 holds the left end. -/
def heldLeft (e : EngEnd) : Engine → Engine := fun x => { x with st := .halfOpen, left := { e with held := some (0, 0) } }

theorem witness_MatrixInstructions :
    let f := fun (e : EngEnd) => link0 (heldLeft e)
    let full : EngEnd := { fifo := List.replicate 8 (.data 0) }
    let fl := (link0 id).modCtx fun c => { c with floor := 1 }
    Ready (.mxopen 1) (link0 id) ∧ isTile (link0 id).cur.1 = true ∧ portTile 0 0 = none ∧ portTile 0 1 = some 1 ∧ portEngine 0 1 = 0 ∧ portLeft 1 = true ∧
    (after (.mxopen 1) (link0 id)).ctx.status[1].st = .halfOpen ∧ causeOf (.mxopen 0) (link0 id) = some 8 ∧ causeOf (.mxopen 1) (f {}) = some 0xD ∧
    portRank 0 1 < 1 ∧ causeOf (.mxopen 1) fl = some 0xD ∧ (link0 id).activeLaunch 0 = some 5 ∧ (link0 id).activeLaunch 1 = some 5 ∧
    (∀ i ∈ ([.mxcfg 1 1, .mxpush 1 1, .mxscl 1 1, .mxclose 1, .mxpushm 1 0 1] : List Instr), Ready i (f {}) ∧ Ready i (f full) ∧ Ready i (link0 id)) ∧
    ((f {}).ctx.status[1].st.broken = false ∧ ((f {}).engine 0).left.held = some (0, 0) ∧ (f full).ctx.pushed = 0) ∧
    (after (.mxpush 1 1) (f full)).ctx.st = .stalled ∧ ((after (.mxpush 1 1) (f { fifo := List.replicate 7 (.data 0) })).engine 0).left.fifo.length = 8 ∧
    ((after (.mxpushm 1 7 1) (f {})).engine 0).left.fifo.length = 1 ∧ causeOf (.mxpush 1 1) (link0 id) = some 8 ∧
    (after (.mxclose 1) (link0 id)).ctx.pc = 4 ∧ (after (.mxclose 1) (f {})).ctx.st = .stalled ∧
    (((after (.mxopen 1) (link0 id)).engine 0).left.claim = some (0, 0) ∧ ((after (.mxopen 1) (link0 id)).engine 0).left.cmds = [(2, .opens)]) ∧
    ((after (.mxcfg 1 1) (f {})).engine 0).left.cmds = [(2, .cfg 0 0)] ∧
    ((f {}).engine 0).left.cmds = [] ∧ ((after (.mxclose 1) (f {})).engine 0).left.cmds = [(2, .close)] ∧ ((f {}).engine 0).left.orphan = false ∧
    (after (.mxclose 1) (f { closed := true })).ctx.st = .stalled ∧
    (let part := after (.mxpushm 1 8 1) (f { fifo := [.data 0] })
     let last := after (.mxpushm 1 8 1) ((f {}).modCtx fun c => { c with pushed := 8 })
     ((part.engine 0).left.fifo.length = 2 ∧ part.ctx.pushed = 1 ∧ part.ctx.st = .stalled ∧ part.ctx.pc = 0) ∧
     (last.ctx.pc = 4 ∧ last.ctx.pushed = 0 ∧ last.ctx.sreg 1 = 288) ∧ (after (.mxpushm 1 0 1) (f full)).ctx.st = .stalled ∧
     (after (.mxpushm 1 0 1) ((f {}).modCtx fun c => { c with posted := 1 })).ctx.st = .stalled) ∧
    (let moved := (link0 id).modSite 1 fun x => { x with migrated := true }
     (moved.site 1).migrated = true ∧ moved.me.migrated = false ∧ causeOf (.mxopen 1) moved = some 8) := by decide
theorem witness_MatrixInstructions_broken :
    let s := (link0 id).modCtx fun c => { c with status := c.status.set 1 { st := .config } }
    let t := link0 fun x => { heldLeft { cfg := some 0 } x with st := .abort }
    s.ctx.status[1].st.broken = true ∧ (∀ i ∈ ([.mxcfg 1 1, .mxpush 1 1, .mxscl 1 1] : List Instr), Ready i s ∧ (after i s).ctx.pc = 4) ∧
      (after (.mxpush 1 1) s).ctx.status[1].dropped = 1 ∧ (t.engine 0).st.broken = true ∧ Ready (.mxclose 1) t ∧ (after (.mxclose 1) t).ctx.pc = 4 ∧
      (t.engine 0).left.cfg ≠ none ∧
      (let v := link0 fun x => { x with st := .abort, left := { claim := some (0, 0), cfg := some 0 } }
       Ready (.mxcfg 1 1) v ∧ (v.engine 0).left.claim ≠ none ∧ ((after (.mxcfg 1 1) v).engine 0).left.cmds.length = 1) ∧ Ready (.mxstat 1 3) s ∧ Ready (.msetm 1) s ∧ s.ctx.status[1].rank < 2 ^ 16 := by decide
theorem witness_MatrixInstructions_banks :
    let f := fun (a : Word) (n : Nat) => (ctx0 fun c => c.setS 2 a).modSite 0 fun x => { x with mem := memWrite [] 0x100 4 n }
    (∀ s ∈ [f 0x100 0, f 0x100 4095, f 0x100 4096, f 0x102 0], Ready (.skld 3 2) s) ∧ (0x100 + 4 + 2 * 4095 ≤ 0x60000) ∧
    (after (.skld 3 2) (f 0x100 4095)).ctx.k[3].count = 4095 ∧ causeOf (.skld 3 2) (f 0x100 4096) = some 4 ∧ causeOf (.skld 3 2) (f 0x102 0) = some 3 ∧
    (∀ i ∈ ([.accz 7, .accz 8] : List Instr), Ready i State.reset) ∧ causeOf (.accz 8) State.reset = some 0xE ∧
    (∀ i ∈ ([.accrd 1 7 15, .accwr 7 1 15, .acccvt 1 7 15 0, .accrd 1 8 0, .accwr 8 1 0, .acccvt 1 8 0 0] : List Instr), Legal i State.reset) ∧
    (∀ i ∈ ([.accrd 1 8 0, .accwr 8 1 0, .acccvt 1 8 0 0] : List Instr), causeOf i State.reset = some 0xE) ∧
    (after (.accrd 3 7 15) (after (.accwr 7 1 15) (ctx0 fun c => c.setV 2 9))).ctx.vreg 4 = 9 := by decide
/-- INT8 both sides, K = 2, P = 8, member 1, bank 3. -/
def cfg8 : Word := BitVec.ofNat 64 (1 * 2 ^ 36 + 2 * 2 ^ 20 + 4 * 2 ^ 16 + 3 * 2 ^ 12)
theorem witness_EngineEvents :
    let f := fun (w w' : Word) (st : StreamSt) => link0 fun x => { x with st := st, left := { cfg := some w, held := some (0, 0) }, right := { cfg := some w', held := some (1, 0) } }
    let z := List.replicate 256 (0 : Int)
    let o : EngEnd := { cfg := some cfg8, mask := 0xFFFF, fifo := [.data 0xFE] }
    let s := link0 fun x => { x with st := .streaming, left := o, right := o, inner := z, k := 0 }
    cfgValid cfg8 3 3 = true ∧ cfgValid 0 3 3 = false ∧ cfg8 ≠ 0 ∧ ((after (.kStepConsume 0) (f cfg8 cfg8 .halfOpen)).engine 0).st = .streaming ∧
    ((after (.kStepConsume 0) (f 0 0 .halfOpen)).engine 0).st.broken = true ∧ ((after (.kStepConsume 0) (f cfg8 0 .halfOpen)).engine 0).st.broken = true ∧
    (cfgTl cfg8 = 0 ∧ cfgTr cfg8 = 0 ∧ 0 < cfgP cfg8 ∧ (s.engine 0).k + 1 < cfgK cfg8 ∧ ((s.engine 0).k + 1) % cfgP cfg8 ≠ 0 ∧ z.length = 256 ∧ o.list.count = 0 ∧
      (s.engine 0).pending = none ∧ (s.engine 0).parting = none ∧ o.scales = [] ∧ o.nextk = 0 ∧ (o.fifo ++ []).any Beat.isScale = false) ∧
    ((after (.kStepConsume 0) s).engine 0).inner.getD 0 0 = 4 ∧ ((after (.kStepConsume 0) s).engine 0).left.fifo = [.upper 0xFE 1] ∧ (0 : Nat) < 15872 := by decide
/-- A command reaches its engine two cycles after its issue (R250). -/
theorem witness_EngineEvents_arrivals :
    let f := fun (q : EngCmd) (y : EngEnd) => ({ (link0 fun x => { x with left := { y with cmds := [(2, q)] }, st := if y.held.isSome then .halfOpen else .idle }) with cycle := 2 } : State)
    let opened := f .opens { claim := some (0, 0) }
    let once := f (.cfg cfg8 1) { held := some (0, 0) }
    let twice := f (.cfg cfg8 1) { held := some (0, 0), cfg := some cfg8 }
    let closing := f .close { held := some (0, 0) }
    (∀ s ∈ [opened, once, twice, closing], ((s.engine 0).fin true).due s.cycle ≠ [] ∧ ((s.engine 0).fin false).due s.cycle = [] ∧
      (s.engine 0).st.broken = false ∧ (s.engine 0).right.cfg = none) ∧
      (((after (.kStepConsume 0) opened).engine 0).left.held = some (0, 0) ∧ ((after (.kStepConsume 0) opened).engine 0).st = .halfOpen) ∧
      ((after (.kStepConsume 0) once).engine 0).left.cfg = some cfg8 ∧ ((after (.kStepConsume 0) twice).engine 0).st = .config ∧
      ((after (.kStepConsume 0) closing).engine 0).left.closed = true ∧
      ((opened.engineArrivals 1 0).engine 0).left.held = none := by decide
theorem witness_EngineEvents_delivery :
    let d : Delivery := { engine := 0, bank := 3, sem := 4, mode := 1, mrow := 1, mcol := 1, cells := List.replicate 256 7, parted := false, ovf := false, kdone := 2 }
    let f := fun (m : Nat) (x : Site → Site) => (group id x).setEngine 0 { st := .streaming, pending := some (m, d) }
    let p : Pkt := { src := 0, dst := 1, vc := 1, body := 32, load := .delivery d }
    let s := group id fun x => { x with rxDel := [p] }
    let last := group id fun x => { x with rxDel := [{ p with load := .delivery { d with beat := 31 } }] }
    let t := fun (n : Nat) (e : Engine) =>
      (group (fun x => { x with rxResp := [{ src := 1, dst := 0, vc := 1, body := 0, load := .delAck 0 n }] }) id).setEngine 0 e
    (f 1 id).memberTile (engLeft 0) 1 = some 1 ∧ (f 1 id).isOff 1 = false ∧ d.bank ≤ 7 ∧ (f 2 id).memberTile (engLeft 0) 2 = none ∧ (f 1 off).isOff 1 = true ∧
      ((after (.deliverySend 0) (f 1 id)).engine 0).sent = true ∧ nexts (.deliverySend 0) (f 2 id) = true ∧ nexts (.deliverySend 0) (f 1 off) = true ∧
      Live s 1 ∧ (s.site 1).rxDel = p :: [] ∧ d.cells.length = 256 ∧ (s.site 1).core.waiters = [] ∧
      (s.site 1).core.badAcc = [] ∧ ((after (.deliveryApply 1) s).site 1).rxDel = [{ p with load := .delivery { d with beat := 1 } }] ∧
      ((after (.deliveryApply 1) s).site 1).core.cell 768 = 7 ∧ ((after (.deliveryApply 1) s).site 1).core.cell 769 = 0 ∧
      ((after (.deliveryApply 1) s).site 1).core.sem[4] = 0 ∧ Live last 1 ∧ ((after (.deliveryApply 1) last).site 1).core.sem[4] = 1 ∧
      ((after (.deliveryApply 1) last).site 1).rxDel = [] ∧
      (after (.deliveryAck 0) (t 3 { st := .closed, sent := true, num := 3 })).engine 0 = {} ∧
      ((after (.deliveryAck 0) (t 2 { st := .closed, sent := true, num := 3 })).engine 0).sent = true ∧
      ((after (.deliveryAck 0) (t 3 { st := .streaming, num := 3, parting := some true })).engine 0).parting = none := by decide
theorem witness_EngineEvents_finish :
    let o : EngEnd := { cfg := some cfg8, mask := 1, closed := true }
    let s := link0 fun x => { x with st := .closing, left := { o with nextk := 2 }, right := { o with nextk := 2 }, k := 2, kdone := 2, inner := List.replicate 256 1,
                                     outer := List.replicate 256 0 }
    ((s.engine 0).st = .streaming ∨ (s.engine 0).st = .closing) ∧ (s.engine 0).pending = none ∧
      (s.engine 0).parting = none ∧ (match (s.engine 0).absorbed.look cfg8 [] [] with | .finish => true | _ => false) = true ∧
      (((after (.kStepConsume 0) s).engine 0).pending.map fun q => (q.1, q.2.bank, q.2.mrow)) = some (1, 3, 1) := by decide

def block0 (n : Nat) : Block := { seq := n, core := { ctxs := (Vector.replicate 4 ({} : Ctx)).set 0 ({ st := .running } : Ctx) }, ok := true }
def word0 (n : Nat) : CommitWord := { seq := n, epoch := 0, cycle := 5, tile := 0, lines := 0, ok := true }
/-- Tile 0 with commit 2 in its ballast, changed by f. -/
def saved (f : Site → Site) : State :=
  site0 fun x => f { x with ballast := { x.ballast with wordA := some (word0 2), blkA := some (block0 2), last := 2 } }
theorem witness_BallastEvents :
    let s := site0 fun x => { x with ballast := { x.ballast with dirty := [1535] } }
    let r := site0 fun x => { x with ballast := { x.ballast with dirty := [1535], st := .requested 0 } }
    let b := r.modCore 0 fun k => { k with caq := [req0 .xclr 0] }
    let w := site0 fun x => { x with ballast := { x.ballast with st := .writing 1 0 0 0, askers := [{ site := 1, ctx := 0, member := 0, num := 2, seq := 1 }] } }
    let p := site0 fun x => { x with rxPst := [{ src := 1, dst := 0, vc := 0, body := 0, load := .persist 1 0 0 2 }] }
    (∀ v ∈ [s, r, b, w, p], Live v 0 ∧ (v.site 0).rollback = false ∧ (v.site 0).bad = [] ∧ (v.site 0).core.badWords = []) ∧ (s.site 0).ballast.st = .idle ∧
      r.commitBlocked 0 = false ∧ r.commitEarly 0 = false ∧
      ((after (.powerLoss 0) s).haltBits = [0]) ∧
      ((after (.trickle 0) s).site 0).ballast.dirty = [] ∧ ((after (.commit 0) r).site 0).ballast.st = .writing 1 0 1 0 ∧
      ((after (.commitComplete 0) w).site 0).ballast.last = 1 ∧ ((after (.persistRequest 0) p).site 0).ballast.askers.length = 1 ∧
      ((after (.powerLoss 0) s).site 0).powered = false ∧ isTile 0 = true := by decide
theorem witness_BallastEvents_loss :
    let m := fun (e : Word) => (site0 fun x => { x with
      rxMsg := [{ src := 1, dst := 0, vc := 0, body := 1, load := .msg 0x2500 [3] }], core := { x.core with htab := x.core.htab.set 5 e } })
    let n := fun (e : Word) => ((after (.powerLoss 0) (m e)).site 0).ballast.journal.length
    Live (m 0) 0 ∧ hdrChan 0x2500 = 5 ∧ (((m 0).site 0).core.findRun 1).isSome = true ∧
      entPersist 0x20000000 = true ∧ entPersist 0 = false ∧ n 0x20000000 = 1 ∧ n 0 = 0 := by decide
theorem witness_BallastEvents_interval :
    let y := group id id
    let s : State := { y with cycle := 12800 * 64 }
    let t : State := { y with cycle := 12800 * 64 - 1 }
    let u : State := { y with commitIv := [(0, 0)] }
    mapGetD s.commitIv (tileDie 0) 64 = 64 ∧ (s.site 0).halted = false ∧ (s.site 0).krn.launch.isSome = true ∧ (s.site 0).ballast.lastAt + 12800 * 64 ≤ s.cycle ∧
      t.cycle < (t.site 0).ballast.lastAt + 12800 * 64 ∧ mapGetD u.commitIv 0 64 = 0 ∧ ((after (.autoCommitInterval 0) s).site 0).ballast.st = .requested s.cycle ∧
      ((after (.autoCommitInterval 0) t).site 0).ballast.st = .idle ∧
      (let w := s.modSite 0 fun x => { x with ballast := { x.ballast with st := .writing 1 0 0 0 } }
       (after (.autoCommitInterval 0) w).site 0 = w.site 0) := by decide
theorem witness_BallastEvents_resume :
    let dark := fun (x : Site) => { x with powered := false }
    let s := saved dark
    let waking := saved fun x => { x with gate := { x.gate with st := .waking } }
    let back := saved fun x => { x with rollback := true }
    let late : State := { saved dark with cycle := 1600000, tenants := [(0, tenant0)] }
    (∀ v ∈ [s, waking, back, late], ((v.site 0).ballast.newest 0) = some (word0 2) ∧ (v.site 0).ballast.blkA = some (block0 2)) ∧ (block0 2).ok = true ∧
      (s.site 0).powered = false ∧ (s.site 0).gate.st = .on ∧ (waking.site 0).gate.offReq = false ∧ (back.site 0).rollback = true ∧
      ((after (.resume 0) s).site 0).ballast.resumes = 1 ∧ ((after (.resume 0) waking).site 0).gate.st = .on ∧
      ((after (.eccRollback 0) back).site 0).rollbacks = [0] ∧ (late.site 0).lostAt + 1600000 ≤ late.cycle ∧ late.spareOf 0 = some 1 ∧
      (after (.powerReturnTimeout 0) late).placeOf 0 = 1 ∧
      (let held := late.modSite 0 fun x => { x with halted := true }
       (held.site 0).halted = true ∧ (after (.powerReturnTimeout 0) held).placeOf 0 = 0) ∧ s.cycle < (s.site 0).lostAt + 1600000 ∧ (State.reset.site 0).rollback = false := by decide
theorem witness_GateEvents :
    let f := fun (st : GateSt) (rs : List GateReq) => site0 fun x => { x with gate := { x.gate with st := st, reqs := rs } }
    let r0 : GateReq := { mode := 1, src := none }
    let r1 : GateReq := { mode := 0, src := some (1, 2, 4) }
    let asker := fun (s : State) => s.modCtxAt 1 2 fun c => { c with st := .stalled, wait := .resp 4 .none 4 none }
    (∀ st ∈ [GateSt.on, .quiescing, .committing, .sleep, .off, .waking], nexts (.gateRequestAccept 0) (f st [r0]) = true ∧ nexts (.gateOff 0) (f st []) = true ∧
      nexts (.gateOn 0) (f st []) = true) ∧ ((after (.gateRequestAccept 0) (f .on [r0])).site 0).gate.st = .quiescing ∧
    ((after (.gateRequestAccept 0) (f .sleep [r1])).site 0).gate.st = .waking ∧ ((asker (f .on [r1])).ctxAt 1 2).wait = .resp 4 .none 4 none ∧
    ((after (.gateRequestAccept 0) (asker (f .on [r1]))).ctxAt 1 2).st = .running ∧ ((after (.gateOff 0) (f .sleep [])).site 0).gate.st = .off ∧
    ((after (.gateOn 0) (f .off [])).site 0).gate.st = .waking := by decide
theorem witness_GateEvents_quiesced :
    let f := fun (q : Bool) => site0 fun x => { x with quiesce := true, gate := { x.gate with st := .quiescing },
                                                       core := { x.core with ctxs := Vector.replicate 4 { st := if q then .saved else .empty } } }
    (∀ q ∈ [true, false], Live (f q) 0 ∧ (f q).quiet 0 = q) ∧ ((after (.gateQuiesced 0) (f true)).site 0).gate.st = .committing ∧
      ((after (.gateQuiesced 0) (f false)).site 0).gate.st = .quiescing ∧ (f false).atRest 0 3 = true ∧ ((f false).ctxAt 0 3).st = .empty ∧
      ((after (.quiescePoint 0 3) (f false)).ctxAt 0 3).st = .migrating ∧
      ((after (.quiescePoint 0 3) ((f false).modCtxAt 0 3 fun c => { c with st := .migrating })).ctxAt 0 3).st = .saved ∧
      ((f false).modCtxAt 0 3 fun c => { c with unacked := [(1, 0)] }).atRest 0 3 = false ∧
      (let p := ((f false).modCtxAt 0 3 fun c => { c with st := .migrating }).setEngine 0 { left := { held := some (0, 3) }, parting := some true }
       p.partingAt 0 3 = true ∧ ((after (.quiescePoint 0 3) p).ctxAt 0 3).st = .migrating) := by decide
theorem witness_GateEvents_hold :
    let q : Pkt := toTile (.far { ni := true, op := .load 8, addr := 8, site := 1, ctx := 0, id := 4 })
    let o : Pkt := { q with dst := 1 }
    let f := fun (st : GateSt) => ({ (site0 fun x => { x with gate := { x.gate with st := st } }) with holdBuf := [(0, o), (0, q)], marks := [0] } : State)
    let full := (f .on).modSite 0 fun x => { x with svc := [q] }
    (f .sleep).holdBuf = [(0, o)] ++ (0, q) :: [] ∧ ((f .on).site 0).live = true ∧ (f .on).niTakes q = true ∧
      ((after (.haltHoldDelivery 0) (f .on)).site 0).svc.length = 1 ∧ full.niTakes q = false ∧ (full.site 0).live = true ∧
      (after (.haltHoldDelivery 0) full).holdBuf = full.holdBuf ∧
      ((after (.sleepWake 0) (f .sleep)).site 0).gate.st = .waking ∧ (after (.haltHoldDelivery 0) (f .off)).holdBuf = [(0, o)] ∧
      (State.reset.site 0).gate.st ≠ .sleep := by decide

/-! Launches, span ports, transfers, power, debug requests, boot. -/

/-- A kernel file of a group of rows × cols tiles: channel 0 enters at 256 with weight 1; its argument block has n bytes. -/
def file0 (rows cols n : Nat) : KernelFile :=
  { header := leBytes 4 0x314B4C5A ++ leBytes 1 3 ++ leBytes 3 0 ++ leBytes 4 258 ++ leBytes 4 1 ++ leBytes 12 0 ++ leBytes 2 rows ++ leBytes 2 cols ++
      leBytes 16 0 ++ leBytes 4 n ++ List.replicate 204 0,
    image := leBytes 8 0x100000100 ++ List.replicate 250 0, data := [] }
/-- One launch of tenant 0 for the kernel with handle 1, changed by f; a second kernel with handle 2. -/
def waiting (f : Launch → Launch) (k : KernelFile) : State :=
  { State.reset with tenants := [(0, tenant0)], nextL := 6, launches := [(5, f { launch0 with st := .queued, members := [], handle := 0 })],
                     kernels := [{ handle := 1, tenant := 0, file := k }, { handle := 2, tenant := 0, file := k }] }

theorem witness_LaunchEvents :
    let f := file0 1 2 0
    let many := fun (n : Nat) => ({ State.reset with tenants := [(0, tenant0)], launches := (List.range n).map fun i => (i, { launch0 with st := .queued }) } : State)
    let named := waiting (fun x => { x with nominee := some 2 }) f
    (∀ e ∈ (waiting id f).launches, e.2.nominee ≠ some 2) ∧ (∃ e ∈ named.launches, e.2.nominee = some 2) ∧
      (after (.kernelUnregister 2) (waiting id f)).kernels.map (·.gone) = [false, true] ∧ (after (.kernelUnregister 2) named).kernels.map (·.gone) = [false, false] ∧
      (after (.kernelRegister 15 f) State.reset).kernels.map (·.handle) = [0xF0000001] ∧
      (∀ s ∈ [many 255, many 256], mapGet? s.tenants 0 = some tenant0 ∧ 1 = tenant0.counts.getD 0 0 + ([[]] : List (List Byte)).length) ∧
      ((many 255).queueOf 0 0).length + 1 = 256 ∧ ((many 256).queueOf 0 0).length + 1 = 257 ∧ (after (.launchDoorbell 0 0 1 [[]]) (many 255)).launches.length = 256 := by
  decide
theorem witness_LaunchEvents_helm :
    let s : State := { State.reset with tenants := [(0, tenant0)] }
    let r : State := { State.reset with boot := { State.reset.boot with stoppedAt := some 5 } }
    mapGet? s.tenants (16 % 16) = some tenant0 ∧ 1 = tenant0.hcounts.getD 0 0 + ([[]] : List (List Byte)).length ∧
      ((after (.launchDoorbell 16 0 1 [[]]) s).tenants.map fun e => (e.2.counts.getD 0 0, e.2.hcounts.getD 0 0)) = [(0, 1)] ∧
      (after (.launchDoorbell 16 0 1 [[]]) s).launches.length = 1 ∧ r.boot.stoppedAt.isSome = true ∧ (after (.kernelRegister 15 (file0 1 2 0)) r).kernels = [] := by decide
theorem witness_LaunchEvents_place :
    let f := file0 1 2 0
    let first := fun (s : State) => (s.queueOf 0 0).find? fun e => e.2.st == .queued || e.2.st == .placing || e.2.st == .loading
    let la : Launch := { launch0 with st := .queued, members := [], handle := 0 }
    let dep : Launch := { la with desc := { desc0 with deps := [(4095, 1)] } }
    let bad : Launch := { la with desc := { desc0 with handle := 3 } }
    (∀ x ∈ [la, dep, bad], x.st = .queued ∧ first (waiting (fun _ => x) f) = some (5, x)) ∧ tenant0.meets dep.desc.deps = false ∧ tenant0.meets la.desc.deps = true ∧
      tenant0.meets bad.desc.deps = true ∧ (waiting id f).itsTurn 0 0 = true ∧ ((waiting id f).kernels.map (·.unreadable)) = [false, false] ∧
      (waiting id f).launchStatus bad 3 = 6 ∧ (waiting id f).launchStatus la 1 = 0 ∧ headerStatus f = 0 ∧
      ((waiting id f).kernel 1).map (·.file) = some f ∧ ((waiting id f).findGroup 0 (some 0) f fun _ => true).isSome = true ∧
      (waiting id f).findGroup 0 (some 0) f (waiting id f).isFree = some ([0, 1], 1, 2) ∧ (waiting id f).needsDown [0, 1] = false ∧ [0, 1].Nodup ∧
      ((mapGet? (after (.launchPlace 0 0) (waiting id f)).launches 5).map (·.st)) = some .loading := by decide
theorem witness_LaunchEvents_load :
    let s := fun (n : Nat) => waiting (fun x => { x with st := .loading, members := [0, 1], handle := 1 }) (file0 1 2 n)
    (∀ n ∈ [0, 1], ((mapGet? (s n).launches 5).map fun x => (x.st, x.members)) = some (.loading, [0, 1]) ∧ ((s n).kernel 1).map (·.file) = some (file0 1 2 n)) ∧
      (s 0).argBlock 0 0 0 = some [] ∧ (s 1).argBlock 0 0 1 = none ∧ (after (.launchLoadComplete 5) (s 1)).launches = [] ∧
      (after (.launchAbort 5) (s 0)).launches = [] ∧ ((mapGet? (after (.launchAbort 5) (group id id)).launches 5).map (·.st)) = some .failed ∧
      ((mapGet? (group id id).launches 5).map (·.st)) = some .running := by decide
/-- An argument block on a page that is being migrated holds the load back (R259). -/
theorem witness_LaunchEvents_held :
    let s := fun (leaf : Nat) => ({ (waiting (fun x => { x with st := .loading, members := [0, 1], handle := 1, desc := { x.desc with argva := 0x300000 } }) (file0 1 2 8))
      with phys := memWrite (memWrite (memWrite (memWrite [] 0 8 0x10001) 0x10000 8 0x20001) 0x20000 8 0x30001) 0x30180 8 leaf } : State)
    ((mapGet? (s 0x300059).launches 5).map (·.st)) = some .loading ∧ (s 0x300059).argHeld 0 0x300000 8 = true ∧ (s 0x300019).argHeld 0 0x300000 8 = false ∧
      (s 0x300019).argBlock 0 0x300000 8 = some (List.replicate 8 0) := by decide
theorem witness_LaunchEvents_completion :
    let ks := (waiting id (file0 1 2 0)).kernels
    let at' := fun (la : Launch) (s : State) => ({ s with cycle := 128, launches := [(5, la)], tenants := [(0, tenant0)], kernels := ks } : State)
    let seen : Launch := { launch0 with quietAt := some (0, 0) }
    let next : Launch := { seen with nominee := some 2 }
    let busy := at' launch0 (State.reset.modCtxAt 1 3 fun c => { c with st := .dormant })
    State.reset.cycle / 128 = State.reset.round ∧ (∀ la ∈ [launch0, seen, next], (at' la State.reset).cycle / 128 ≠ (at' la State.reset).round ∧ la.st = .running ∧
      ∀ t ∈ la.members, (at' la State.reset).memberQuiet t = true) ∧ busy.memberQuiet 1 = false ∧ (at' seen State.reset).sums 5 seen.members = (0, 0) ∧
      (∀ t ∈ next.members, ((at' next State.reset).site t).unready = false) ∧
      ((mapGet? (after .completionRound (at' next State.reset)).launches 5).map (·.handle)) = some 2 ∧
      (let asleep := at' next (State.reset.modSite 1 fun x => { x with gate := { x.gate with st := .sleep } })
       (∀ t ∈ next.members, asleep.memberQuiet t = true) ∧ (asleep.site 1).unready = true ∧ ((after .completionRound asleep).site 1).gate.st = .waking) ∧
      seen.nominee = none ∧ ((at' next State.reset).kernel 2).map (·.file) = some (file0 1 2 0) ∧ ((at' next State.reset).kernel 1).isSome = true ∧
      headerStatus (file0 1 2 0) = 0 ∧ otherShape next (file0 1 2 0) = false ∧ (at' next State.reset).argBlock 0 0 0 = some [] ∧
      ((mapGet? (after .completionRound busy).launches 5).map (·.quietAt)) = some none ∧
      ((mapGet? (after .completionRound (at' launch0 State.reset)).launches 5).map (·.quietAt)) = some (some (0, 0)) ∧
      (after .completionRound (at' seen State.reset)).launches.length = 0 := by decide
theorem witness_LaunchEvents_migration :
    let f := fun (q : Bool) (st : CtxSt) => group (fun x => { x with quiesce := q, selfFail := true, core := { x.core with ctxs := Vector.replicate 4 { st := st } } }) id
    (∀ s ∈ [f false .empty, f true .running, f true .saved], let x := s.site 0
      x.unwell s.cycle = true ∧ s.refuge 0 2 = true ∧
      (x.krn.launch).isSome = true ∧ x.halted = false ∧ x.gate.st = .on ∧ x.newTile = false ∧ s.isFree 2 = true ∧ x.up = true ∧ s.placeOf 0 ≠ 2) ∧
    (f true .running).quiet 0 = false ∧ (f true .saved).quiet 0 = true ∧ isTile 2 = true ∧
    ((after (.liveMigration 0 2) (f false .empty)).site 0).quiesce = true ∧ (after (.healthMigration 0 2) (f true .saved)).placeOf 0 = 2 ∧
    (after (.healthMigration 0 2) (f true .saved)).boot.excluded = [0] ∧ (after (.liveMigration 0 2) (f true .saved)).boot.excluded = [] ∧
    (State.reset.site 0).unwell 0 = false := by decide
theorem test_unwell :
    let x := fun (n m c : Nat) => ({ fixed := (List.range n).map fun i => (i % m, c) } : Site)
    (x 16 1 0).unwell 1599999999 = true ∧ (x 16 1 0).unwell 1600000000 = false ∧ (x 15 1 0).unwell 0 = false ∧ (x 32 2 0).unwell 0 = true ∧
      ({ rollbacks := [5, 6, 7] } : Site).unwell 8 = true ∧ ({ rollbacks := [6, 7] } : Site).unwell 8 = false := by decide

/-- Port 15 in a state. -/
def port0 (f : SpanPort → SpanPort) : State := { State.reset with spans := [(15, f {})] }
theorem witness_SpanAndBridges :
    let f := fun (st : SpanSt) => port0 fun x => { x with st := st, before := .degraded }
    (∀ st ∈ [SpanSt.down, .training, .up, .degraded, .haltHold], ((f st).port 15).st = st) ∧
      ([0xFF, 0x7F, 0x0F, 0x07, 0x03, 0x01].map fun x => lanesOf (x &&& ((f .training).port 15).lanes)) = [8, 7, 4, 3, 2, 1] ∧
      ((after (.spanEnable 15) (f .down)).port 15).st = .training ∧
      ([0xFF, 0x7F, 0x0F, 0x07, 0x03, 0x01].map fun x => ((after (.spanTrainingDone 15 x) (f .training)).port 15).used) = [8, 4, 4, 2, 2, 0] ∧
      ((after (.spanTrainingTimeout 15) (f .training)).port 15).st = .down ∧ ((after (.spanLaneFail 15 7) (f .up)).port 15).lanes = 0x7F ∧
      ((after (.spanLaneFail 15 7) (f .down)).port 15).lanes = 0xFF ∧ ((after (.spanPeerHalt 15) (f .degraded)).port 15).before = .degraded ∧
      ((after (.spanPeerResume 15) (f .haltHold)).port 15).st = .degraded ∧ ((after (.spanPeerLost 15) (f .up)).port 15).st = .down ∧
      (∀ st ∈ [SpanSt.up, .degraded, .haltHold], ((after .spanEngineDebugStop (f st)).port 15).wire.map (·.load) = [.halted] ∧
        ((after .spanEngineDebugResume (f st)).port 15).wire.map (·.load) = [.resumed]) ∧
      ((after .spanEngineDebugStop (f .down)).port 15).wire = [] ∧ (after .spanEngineDebugStop (f .up)).spanStop = true := by decide
theorem witness_SpanAndBridges_frames :
    let s := port0 fun x => { x with st := .up, rxSeq := 0xFFFF }
    let land : SpanLoad := .landing 7 0 3 0 1 0 0x300 63 [1]
    let t : State := { s with xfers := [{ num := 3, dev := 7, tenant := 0, pid := 0, cnt := 0, total := 1, landings := [], port := some 15 }] }
    s.spanStop = false ∧ (s.port 15).rxSeq = 0xFFFF ∧ (s.xrecs.find? fun r => r.src == 7 && r.num == 3) = none ∧ s.xrecs.length < 65536 ∧ s.device = 0 ∧
      (after (.spanFrameReceive 15 { seq := 0xFFFF, good := true, load := land }) s).incoming.length = 1 ∧
      ((after (.spanFrameReceive 15 { seq := 0xFFFF, good := true, load := land }) s).port 15).rxSeq = 0 ∧ loadIsLink land = false ∧
      (∀ g ∈ ([{ seq := 0xFFFF, good := false, load := land }, { seq := 0, good := true, load := land }, { seq := 0xFFFE, good := true, load := land }] :
          List SpanFrame),
        (g.good = false ∨ g.seq ≠ (s.port 15).rxSeq) ∧ (after (.spanFrameReceive 15 g) s).incoming = [] ∧
        ((after (.spanFrameReceive 15 g) s).port 15).wire.length = 1) ∧
      (after (.spanFrameReceive 15 { seq := 0xFFFF, good := true, load := .done 0 7 3 }) t).xfers.map (·.acked) = [true] ∧
      ((after (.spanFrameReceive 15 { seq := 0, good := true, load := .halted }) s).port 15).st = .haltHold ∧
      ((after (.spanFrameReceive 15 { seq := 0, good := true, load := .resumed }) (port0 fun x => { x with st := .haltHold, before := .up })).port 15).st = .up := by decide
theorem witness_SpanAndBridges_bridges :
    let s : State := { State.reset with bridges := State.reset.bridges.set 7 .degraded, launches := [(5, { launch0 with members := [6144] })] }
    State.reset.bridges[7] = .up ∧ s.bridges[7] = .degraded ∧ s.bridges[0] ≠ .degraded ∧ 7 ∈ bridgesOf [6144] ∧
      (after (.bridgeDegrade 7) State.reset).bridges[7] = .degraded ∧ (after (.bridgeDown 7) s).bridges[7] = .down ∧
      ((mapGet? (after (.bridgeDown 7) s).launches 5).map (·.st)) = some .failed ∧ (after (.bridgeDown 7) s).boot.health = .replace := by decide

theorem witness_TransfersAndCounters :
    let l : Landing := { idx := 0, target := 0x300, bytes := [1, 2] }
    let t : Transfer := { num := 0xFFFFFFFF, dev := 7, tenant := 0, pid := 0, cnt := 0, total := 1, landings := [l], port := none }
    let f := fun (t : Transfer) => ({ (port0 fun x => { x with st := .up }) with routes := [(7, 3, 15)], xfers := [t] } : State)
    (∀ x ∈ [t, { t with port := some 15 }, { t with acked := true }], (f x).xfers = [x] ∧ (f x).routeTo x.dev = some 15) ∧ t.port = none ∧ t.acked = false ∧
      t.noticed = false ∧ ((after (.transferResend 0xFFFFFFFF) (f t)).port 15).replay.length = 1 ∧
      (after (.transferAck 0xFFFFFFFF) (f { t with acked := true })).xfers.map (·.noticed) = [true] ∧
      (after (.transferAck 0xFFFFFFFF) (f t)).xfers = [t] ∧ ((after (.releaseNotice 7 (2 ^ 32 - 1)) (f t)).port 15).replay.length = 1 := by decide
theorem witness_TransfersAndCounters_landings :
    let i := fun (a : Nat) => ({ key := 8, src := 0, num := 3, idx := 0, total := 1, pid := 0, target := BitVec.ofNat 64 (2 ^ 32 + a), cnt := 63,
                                 bytes := [1, 2] } : Incoming)
    let f := fun (x : Incoming) => ({ group id id with incoming := [x] } : State)
    let s := f (i 0x5BFFE)
    let e := f { i 0x5BFFE with cnt := 62 }
    let back := fun (st : LandSt) => f { i 0x5BFFE with st := st }
    let p : Pkt := { src := helmDie, dst := 1, vc := 3, body := 1, load := .cpWrite helmDie 8 0 0x5BFFE [1, 2] }
    let there := s.modSite 1 fun x => { x with svc := [p] }
    let gone := State.reset.modSite 1 fun x => { x with svc := [p] }
    s.incoming[0]? = some (i 0x5BFFE) ∧ (i 0).src = s.device ∧ (i 0x5BFFE).target.extractLsb' 62 2 = 0 ∧ s.ownsCounter 0 63 = true ∧ s.activeOf 1 0 = true ∧
      0x5BFFE + 2 ≤ 0x5C000 ∧ s.isOff 1 = false ∧ e.ownsCounter 0 62 = false ∧ s.activeOf 2 0 = false ∧
      (after (.landingCount 0) s).incoming.map (·.st) = [.sent [0]] ∧ (after (.landingCount 0) e).incoming = [] ∧
      (after (.landingCount 0) (back (.answered 0))).incs = [(63, 2)] ∧ (after (.landingCount 0) (back (.sent [0]))).incs = [] ∧
      (after (.landingCount 0) (back (.answered 4))).incoming = [] ∧ (after (.landingCount 0) (f (i 0x5BFFF))).incoming = [] ∧
      Live there 1 ∧ (there.site 1).svc = p :: [] ∧ (after (.farRequestService 1) there).byteAt 1 0x5BFFF = 2 ∧
      (after (.farRequestService 1) gone).byteAt 1 0x5BFFF = 0 ∧ ((after (.farRequestService 1) gone).site 1).svc = [] ∧ cutRanges 0xFF 2 0 2 = [(0, 1), (1, 1)] ∧ (cutLandings 256 0x2FF [1, 2, 3] 3 0).map (·.bytes) = [[1], [2, 3]] := by decide
theorem witness_TransfersAndCounters_engine :
    let r : CntReq := { op := .set 5, cnt := 63, tenant := 0, pid := 0, home := some 0, site := 1, ctx := 2, id := 4 }
    let d : SendDesc := { src := 0x100, dst := 0x1000003FE, len := 32, dev := 7, dcnt := 1, sc := true, scnt := 2 }
    let a : Armed := { d := d, cnt := 63, thr := 5, tenant := 0, pid := 0, home := some 0, site := 0 }
    let f := fun (q : List CntReq) (m : List Armed) (i : List (Nat × Nat)) => ({ group id id with cntq := q, armed := m, incs := i, counters := [(63, 4)] } : State)
    (f [] [] [(63, 7)]).counter 63 = 4 ∧ (after .counterEngineCycle (f [] [] [(63, 7)])).counter 63 = 11 ∧
      (after .counterEngineCycle (f [{ r with op := .read }, r] [] [(63, 7)])).counter 63 = 12 ∧ ((f [{ r with op := .arm d 5 }] [] []).counter 63).toNat < (5 : Word).toNat ∧
      (after .counterEngineCycle (f [{ r with op := .arm d 5 }] [] [])).armed.length = 1 ∧ ¬a.thr.toNat ≤ ((f [] [a] []).counter 63).toNat ∧
      ({ a with thr := 4 } : Armed).thr.toNat ≤ ((f [] [{ a with thr := 4 }] []).counter 63).toNat ∧
      (f [] [] []).firing = [] ∧ (mapGet? (f [] [] []).tenants 0).isSome = true ∧ (after .counterEngineCycle (f [] [{ a with thr := 4 }] [])).armed = [] ∧
      ((after .counterEngineCycle (f [] [{ a with thr := 4 }] [])).firing.map fun x => (x.a.thr, x.parts)) = [(4, [none])] ∧
      copySpace d.src = .scratch 0x100 ∧ cutRanges 0x100 32 0 32 = [(0, 32)] := by decide
/-- A send that has fired: its source unread, unreadable, read; its destination another device, or its own (log 43). -/
theorem witness_TransfersAndCounters_firing :
    let d : SendDesc := { src := 0x100, dst := 0x1000003FE, len := 32, dev := 7, dcnt := 1, sc := true, scnt := 2 }
    let f := fun (dev : Nat) (p : Option (List Byte × BitVec 8)) =>
      ({ group id id with firing := [{ key := 9, a := { d := { d with dev := dev }, cnt := 63, thr := 4, tenant := 0, pid := 0, home := some 0, site := 0 },
                                       parts := [p] }] } : State)
    let read := some (List.replicate 32 (3 : Byte), (0 : BitVec 8))
    (f 7 none).device = 0 ∧ (f 7 none).cntq = [] ∧ (f 7 none).armed = [] ∧ (f 7 none).incs = [] ∧
    (after .counterEngineCycle (f 7 none)).firing.length = 1 ∧ (after .counterEngineCycle (f 7 (some ([], 0x07)))).firing.length = 0 ∧
    ((after .counterEngineCycle (f 7 read)).xfers.map fun t => t.landings.map (·.bytes.length)) = [[2, 30]] ∧
    (after .counterEngineCycle (f 7 read)).incs = [(2, 32)] ∧
    ((after .counterEngineCycle (f 0 read)).incoming.map fun x => (x.target, x.bytes.length)) = [(0x1000003FE, 2), (0x100000400, 30)] ∧
    (after .counterEngineCycle (f 0 read)).xfers = [] ∧
    (let beyond : Armed := { d := { d with src := 0x803FFFFFFFFFFFF0 }, cnt := 63, thr := 4, tenant := 0, pid := 0, home := none, site := 8192 }
     copySpace beyond.d.src = .global 0x3FFFFFFFFFFFF0 ∧
       ((after .counterEngineCycle ({ group id id with armed := [beyond], counters := [(63, 4)] } : State)).firing.map (·.parts)) = [[none, some ([], 0x07)]]) := by decide

/-! Power, routers, debug requests, boot, tenants. -/

theorem witness_PowerAndRouter :
    let s : State := { group id id with cycle := 12800, power := { State.reset.power with next := 2400, clusters := [(0, {})] } }
    State.reset.cycle / 12800 = State.reset.interval ∧ s.cycle / 12800 ≠ s.interval ∧ mapGet? s.power.clusters 0 = some {} ∧
      (after (.intervalBoundary 400 [(0, 20000)]) s).power.grant = 2400 ∧
      ((mapGet? (after (.intervalBoundary 400 [(0, 20000)]) s).power.clusters 0).map fun k => (k.budget, k.peak)) = some (16000000, 10000) ∧
      ((mapGet? (after (.intervalBoundary 400 [(0, 900)]) s).power.clusters 0).map fun k => k.peak) = some 900 ∧
      Live s 8191 ∧ (s.site 0).frameFrom + 16 * (s.site 0).divider ≤ s.cycle ∧
      ((after (.frameBoundary 0) ({ s with cycle := 15 } : State)).site 0).allow = (s.site 0).allow ∧ 15 < (s.site 0).frameFrom + 16 * (s.site 0).divider ∧ (s.ctxAt 0 1).holds = false ∧ ((s.modCtxAt 0 1 fun c => { c with st := .stalled }).ctxAt 0 1).holds = true ∧
      ((after (.frameBoundary 0) (s.modCtxAt 0 1 fun c => { c with st := .stalled })).ctxAt 0 1).quota = 16 := by decide
theorem witness_PowerAndRouter_throttle :
    let s := fun (l : Nat) => ({ State.reset with cycle := 128, power := { State.reset.power with clusters := [(511, { budget := 1000, level := l })] } } : State)
    let level := fun (e l : Nat) => (mapGet? (after (.throttleWindow 511 e) (s l)).power.clusters 511).map (·.level)
    level 11 15 = some 15 ∧ level 11 3 = some 4 ∧ level 10 3 = some 3 ∧ level 9 3 = some 3 ∧ level 8 3 = some 2 ∧ level 8 0 = some 0 ∧
      ({ s 0 with cycle := 127 } : State).cycle / 128 = ({ budget := 1000 } : Cluster).window := by decide
theorem witness_PowerAndRouter_tokens :
    let tok := fun (q w : Nat) => leBytes 4 q ++ leBytes 2 w ++ List.replicate 10 (0 : Byte)
    let s : State := { State.reset with power := { State.reset.power with seq := some 0xFFFFFFFF, expiry := some 10 }, sumac := { sessions :=
      [{ num := 0, who := .operator, lastAt := 0, answers := [] }, { num := 1, who := .tenant 0, lastAt := 0, answers := [] }] } }
    (∀ bs ∈ [tok 0 4000, tok 0x7FFFFFFE 2000, tok 0x80000000 2000, tok 0xFFFFFFFF 2000], bs.length = 16 ∧ ∀ b ∈ bs.drop 6, b = 0) ∧
      (let newer := fun (x : BitVec 32) => x ≠ 0xFFFFFFFF ∧ (0xFFFFFFFF - x).toNat ≥ 2 ^ 31
       newer 0 ∧ newer 0x7FFFFFFE ∧ ¬newer 0x80000000 ∧ ¬newer 0xFFFFFFFF) ∧
      (after (.powerToken (0, tok 0 4000)) s).power.next = 3000 ∧ (after (.powerToken (0, tok 0x80000000 2000)) s).power.next = 1800 ∧
      (after (.powerToken (1, tok 0 4000)) s).power.next = 1800 ∧ (after (.powerToken (2, tok 0 4000)) s).power.next = 1800 ∧
      State.reset.power.seq = none ∧ s.power.expiry = some 10 ∧ s.cycle < 10 ∧ 10 ≤ ({ s with cycle := 10 } : State).cycle ∧
      (after .tokenExpiry ({ s with cycle := 10 } : State)).power.expiry = none ∧ (after .tokenExpiry s).power.expiry = some 10 := by decide
theorem witness_PowerAndRouter_routers :
    let p : Pkt := { src := 1, dst := 5, vc := 3, body := 0, load := .ack 0 1 0 none }
    let q : Pkt := { p with load := .far { ni := true, op := .load 8, addr := 8, site := 1, ctx := 0, id := 4 } }
    let f := fun (p : Pkt) (o : Nat) => ({ pkt := some p, route := o, last := true, age := 31 } : Flit)
    let s := fun (t : Nat) (x : Flit) => State.reset.setRouter t (({} : Router).setBuf 5 3 [x])
    let full := (s 0 (f p 129)).setRouter 1 (({} : Router).setBuf 3 3 (List.replicate 8 (f p 129)))
    let taken := (s 5 (f q 0)).modSite 5 fun x => { x with svc := [q] }
    let helm := { p with dst := helmDie }
    (∀ x ∈ [s 5 (f p 0), s 0 (f p 129)], (x.router 5 = ({} : Router).setBuf 5 3 [f p 0] ∨ x.router 0 = ({} : Router).setBuf 5 3 [f p 129]) ∧
      x.diverts 5 p = false ∧ x.diverts 0 p = false) ∧ onHelmDie p.dst = false ∧ onHelmDie helm.dst = true ∧ (s 0 (f helm 0)).bridgeUp (4 + 0 / 2048) = true ∧
      (((after (.routerArbitration 0) (s 0 (f helm 0))).router 0).bout[3]).length = 1 ∧
      (routeStep 0).1 = 5 ∧ (routeStep 129).1 = 1 ∧ across 0 1 = 1 ∧ across 0 1 ≠ 0 ∧ (s 5 (f p 0)).niTakes p = true ∧ taken.niTakes q = false ∧
      (s 0 (f p 129)).credit 0 1 3 (f p 129) p = true ∧ full.credit 0 1 3 (f p 129) p = false := by decide
theorem witness_PowerAndRouter_moves :
    let p : Pkt := { src := 1, dst := 5, vc := 3, body := 0, load := .ack 0 1 0 none }
    let f := fun (o : Nat) => ({ pkt := some p, route := o, last := true, age := 31 } : Flit)
    let s := fun (t : Nat) (x : Flit) => State.reset.setRouter t (({} : Router).setBuf 5 3 [x])
    ((after (.routerArbitration 5) (s 5 (f 0))).site 5).rxResp = [p] ∧
      (((after (.routerArbitration 0) (s 0 (f 129))).router 1).buf 3 3).length = 1 := by decide

/-- Session 0 of a client; tile 0 halted or not. -/
def session (w : Client) (h : Bool) (f : Site → Site) : State :=
  { (group (fun x => f { x with halted := h }) id) with sumac := { sessions := [{ num := 0, who := w, lastAt := 0, answers := [] }] } }
/-- Status of the answer to q. -/
def answer (q : Instr) (s : State) : Option Nat := ((after q s).sumac.sessions[0]?).bind fun x => x.answers.getLast?.map fun a => a.2.1
theorem witness_SumacRequests :
    let s := session (.tenant 0) true id
    let r := session (.tenant 0) false id
    let o := session (.tenant 1) true id
    let eight : State := { State.reset with sumac := { sessions := List.replicate 8 { num := 0, who := .operator, lastAt := 0, answers := [] } } }
    let late : State := { s with cycle := 960000000000 }
    (after (.sumacSession (.tenant 3) false) State.reset).sumac.denied = [.tenant 3] ∧ State.reset.sumac.sessions.length < 8 ∧ 8 ≤ eight.sumac.sessions.length ∧ (after (.sumacSession .operator true) eight).sumac.sessions.length = 8 ∧
      (∀ x ∈ [s, r, o, late], x.sumac.sessions.length = 1) ∧ (∀ x ∈ late.sumac.sessions, x.lastAt + 960000000000 ≤ late.cycle) ∧
      (after (.sumacSessionTimeout 0) late).sumac.sessions = [] ∧ (after (.sumacSessionTimeout 0) s).sumac.sessions.length = 1 ∧
      may (.tenant 0) 0 = true ∧ may (.tenant 0) 15 = false ∧ may .operator 15 = true ∧ (∀ x ∈ [s, r], x.tileStatus (.tenant 0) 0 = 0) ∧
      o.tileStatus (.tenant 1) 0 = 1 ∧ s.tileStatus .operator 8192 = 3 ∧ (s.site 0).halted = true ∧ (r.site 0).halted = false ∧ (s.site 0).heldg = 0 ∧
      (s.site 0).krn.launch.isSome = true ∧ answer (.list 0) s = some 0 ∧ answer (.readrec 0) s = some 0 ∧ answer (.events 0) s = some 0 ∧
      answer (.stop 0 15 1) s = some 1 ∧ answer (.stop 0 16 1) s = some 3 ∧ answer (.stop 0 0 1) s = some 0 := by decide
theorem witness_SumacRequests_tiles :
    let s := session (.tenant 0) true id
    let r := session (.tenant 0) false id
    let o := session (.tenant 1) true id
    answer (.sumacResume 0 15 1 none) s = some 1 ∧ answer (.sumacResume 0 16 1 none) s = some 3 ∧ answer (.sumacResume 0 0 0x80 none) s = some 0 ∧
      ((after (.sumacResume 0 0 0 (some 0)) s).site 0).halted = false ∧ ((after (.setgrp 0 (5, [0]) 0x81 true) s).site 0).haltg = 0x81 ∧
      answer (.setgrp 0 (5, [0]) 1 true) o = some 1 ∧ answer (.setgrp 0 (6, [0]) 1 true) s = some 3 ∧ answer (.setgrp 0 (5, [2]) 1 true) s = some 3 ∧
      (let q : State := { s with launches := [(6, { launch0 with st := .queued, members := [] })] }
       (after (.setgrp 0 (6, [2]) 1 true) q).sumac.preset = [(6, 2, 1, true)] ∧ ((after (.setgrp 0 (6, [2]) 1 true) q).site 2).haltg = (q.site 2).haltg) ∧ answer (.readctx 0 0 3) o = some 1 ∧ answer (.readctx 0 0 3) r = some 2 ∧
      answer (.readmem 0 0 .scratchpad 0 8) r = some 2 ∧ answer (.readmem 0 0 .scratchpad 0x5FFF8 9) s = some 3 ∧ answer (.readmem 0 0 .scratchpad 0 4097) s = some 3 ∧
      answer (.readmem 0 0 .scratchpad 0x5FFF8 8) s = some 0 ∧ answer (.writemem 0 0 .scratchpad 0 [1]) r = some 2 ∧
      (after (.writemem 0 0 .scratchpad 0x5FFFF [1]) s).byteAt 0 0x5FFFF = 1 := by decide
theorem witness_SumacRequests_stop :
    let s := session (.tenant 0) false fun x => { x with haltg := 0x81 }
    let y := s.site 0
    mapGet? s.sites 0 = some y ∧ isTile 0 = true ∧ y.krn.launch.isSome = true ∧ y.krn.tenant = 0 ∧ y.haltg &&& 0x80 ≠ 0 ∧ y.halted = false ∧
      ((after (.stop 0 0 0x80) s).site 0).heldg = 0x80 ∧ ((after (.stop 0 0 0x80) s).site 0).haltReq = true := by decide
theorem witness_SumacRequests_global :
    let s := session (.tenant 0) false id
    may (.tenant 0) ((0x0FFF : BitVec 16).toNat / 4096) = true ∧ may (.tenant 0) ((0x1000 : BitVec 16).toNat / 4096) = false ∧ 2 ^ 54 - 1 + 1 ≤ 2 ^ 54 ∧
      s.argBlock 0xFFF (BitVec.ofNat 64 (2 ^ 54 - 1)) 1 = none ∧ s.argBlock 0xFFF 0 0 = some [] ∧ answer (.readglobal 0 0x1000 0 1) s = some 1 ∧
      answer (.readglobal 0 0xFFF 0 1) s = some 3 ∧ answer (.readglobal 0 0xFFF 0 0) s = some 0 := by decide

theorem witness_BootAndTenants :
    let s := group id id
    let full : TenantCfg := { cfg0 with parts := [{ die := 7, row := 31, col := 31, rows := 1, cols := 1 }], counters := [0], power := 0 }
    let small : TenantCfg := { cfg0 with parts := [{ die := 0, row := 0, col := 0, rows := 1, cols := 2 }] }
    let less : TenantCfg := { cfg0 with parts := [{ die := 0, row := 0, col := 0, rows := 1, cols := 1 }] }
    let kept := fun (c : TenantCfg) => ∀ t ∈ cfgTiles tenant0.cfg, t ∉ cfgTiles c → s.heldActive t = false
    State.reset.boot = {} ∧ mapGet? s.tenants 0 = some tenant0 ∧ mapGet? s.tenants 15 = none ∧ s.cfgOk 15 full = true ∧ s.cfgOk 15 cfg0 = false ∧
      s.cfgOk 15 { full with power := 1 } = false ∧ s.cfgOk 15 { full with counters := [64] } = false ∧
      ((mapGet? (after (.tenantCreate 15 full) s).tenants 15).map (·.pids.getD 15 0)) = some 0xF00F ∧
      ((mapGet? (after (.pidBindWrite 0 15 0xFFFF) s).tenants 0).map (·.pids.getD 15 0)) = some 0xFFF ∧ (after (.tenantCreate 15 cfg0) s).tenants.length = 1 ∧
      s.cfgOk 0 small = true ∧ kept small ∧ s.cfgOk 0 less = true ∧ ¬kept less ∧ s.cfgOk 0 { cfg0 with power := 65537 } = false ∧
      ((mapGet? (after (.tenantChange 0 small) s).tenants 0).map (·.cfg)) = some small ∧
      ((mapGet? (after (.tenantChange 0 less) s).tenants 0).map (·.cfg)) = some cfg0 ∧
      ((mapGet? (after (.pidBindWrite 0 15 0xFFF) s).tenants 0).map (·.pids.getD 15 0)) = some 0xFFF ∧
      ((mapGet? (after (.hostRegisterWrite 0 0x2010 5) s).tenants 0).map (·.errHead)) = some 5 ∧
      ((State.reset.worsen .replace).boot.asked = [0]) ∧ (State.reset.helmWrite (.stackDegraded 11)).boot.health = .degraded ∧
      (State.reset.helmWrite (.stackDegraded 12)).boot.health = .ok ∧ ({ State.reset with tenants := [(0, tenant0)] } : State).launches = [] := by decide
theorem witness_BootAndTenants_boot :
    let t := after (.moduleReset []) State.reset
    t.boot.health = .ok ∧ t.spans.length = 16 ∧ t.boot.count = 1 ∧ (after (.imageInstall 1 0 2 true) State.reset).boot.images.length = 1 := by decide

/-- A write covers a bad register, and an uncorrectable word found by a read halts nothing by itself (R332 to R334). -/
theorem test_bad_register_repaired :
    let s := State.reset.modCtx fun c => { c with badS := [1, 2] }
    (after (.addi 1 0 7) s).ctx.badS = [2] ∧ (after (.addi 3 0 7) s).ctx.badS = [1, 2] ∧
      ((s.eccRead (.addi 3 1 7)).ctx.trap.map fun r => (r.headD 0).toNat % 256) = some 9 ∧ (s.eccRead (.addi 3 1 7)).errors.length = 1 := by decide

/-- Settings of the helm, and those outside their range (R255, R297, R343). -/
theorem test_helm_settings :
    (State.reset.helmWrite (.ageLimit 3 8)).ageLimit = [(3, 8)] ∧ (State.reset.helmWrite (.ageLimit 3 7)).ageLimit = [] ∧
      (State.reset.helmWrite (.root 65536)).root = 65536 ∧ (State.reset.helmWrite (.root 65544)).root = 0 ∧
      (State.reset.setRail (.voltage 0 550)).power.clusters = [] ∧ ((State.reset.helmWrite (.divider 0 2)).site 0).divider = 1 ∧
      ((State.reset.helmWrite (.divider 0 2)).setRails.site 0).divider = 2 ∧
      (mapGetD (State.reset.helmWrite (.voltage 0 850)).setRails.power.clusters 0 {}).mv = 850 := by decide
/-- At most A instructions issue in a frame of 16 slots, whose other slots idle, and a slot comes every k cycles (R344, R346). -/
theorem test_slots :
    ({} : Site).slotOpen 0 = true ∧ ({ issued := 12, allow := 12 } : Site).slotOpen 15 = false ∧ ({ issued := 12, allow := 12 } : Site).frameOver 15 = false ∧
      ({ issued := 12, allow := 12 } : Site).frameOver 16 = true ∧ ({ slotFrom := 5 } : Site).slotOpen 4 = false ∧ ({ divider := 2 } : Site).frameOver 31 = false ∧
      ((({ State.reset with cycle := 7 } : State).modSite 0 fun x => { x with divider := 3 }).takeSlot 0 0).me.slotFrom = 10 := by decide

theorem witness_PowerAndRouter_rails :
    let s := fun (l : List HelmWrite) => ({ State.reset with cycle := 12800, power := { State.reset.power with rails := l } } : State)
    (s []).cycle / 12800 ≠ (s []).interval ∧ lowestMv 16 ≤ ((s []).cluster 8191).mv ∧ (s []).suits 511 850 = true ∧
      ((after (.intervalBoundary 0 []) (s [.divider 8191 16])).site 8191).divider = 16 ∧
      (mapGetD (after (.intervalBoundary 0 []) (s [.voltage 511 850])).power.clusters 511 {}).mv = 850 ∧
      (after (.intervalBoundary 0 []) (s [.voltage 511 850])).power.rails = [] := by decide
theorem witness_recovery :
    let s : State := { State.reset with boot := { State.reset.boot with recovery := true, stoppedAt := some 5 } }
    s.sumac.sessions.length < 8 ∧ (after (.sumacSession (.tenant 1) true) s).sumac.sessions = [] ∧
      (after (.sumacSession .operator true) s).sumac.sessions.length = 1 ∧ s.boot.stoppedAt ≠ none ∧
      (after (.tenantCreate 0 cfg0) s).tenants = [] := by decide
/-- A record of the boot journal whose CRC fails reads as OUTCOME 0 (R351). -/
theorem test_bad_record :
    let r : BootRec := { boot := 3, step := 9, unit := 0, outcome := 1, path := 0 }
    ({ journal := [r] } : Boot).plan 3 9 0 = .run 0 ∧ ({ journal := [{ r with ok := false }] } : Boot).plan 3 9 0 = .run 1 := by decide

/-! zilas and zilld (R360 to R367). -/

theorem test_lex : lex ['l','i',' ','s','5',',','0','x','1','_','0',';','x'] = some [.name ['l','i'], .name ['s','5'], .op ',', .num 16] := by decide
theorem test_expression :
    (expression [.num 2, .op '+', .num 3, .op '*', .op '-', .num 4, .shl, .num 1]).bind (fun e => e.1.eval (fun _ => none) 0) = some (-20) ∧
      (expression [.num 7, .op '/', .num 0]).bind (fun e => e.1.eval (fun _ => none) 0) = none ∧
      (expression [.op '(', .op '-', .num 7, .op ')', .op '/', .num 2]).bind (fun e => e.1.eval (fun _ => none) 0) = some (-3) := by decide
theorem test_operand :
    operand [.op '[', .name ['S','P'], .op '+', .op '-', .num 8, .op ']'] = some (.mem 30 (.neg (.num 8)), []) ∧
      operand [.name ['E','a','s','t']] = some (.port 1, []) ∧ condition [.op '(', .op '~', .name ['p','3'], .op ')'] = some ((3, 1), []) ∧
      condition [.op '(', .name ['p','0'], .op ')'] = none ∧ branch13 0x100 0x103 = none ∧ branch13 0xFE 0x100 = some (-1) := by decide

/-- Register kinds and numbers of the calling convention (R367). -/
theorem test_kept_across_call :
    keptAcrossCall .s 30 = true ∧ keptAcrossCall .s 31 = false ∧ keptAcrossCall .s 20 = true ∧ keptAcrossCall .s 19 = false ∧ keptAcrossCall .v 16 = true := by decide

/-- A mnemonic, in either case, is no free name; an immediate outside its field and a load's mnemonic of other operands encode nothing
(R360, R363). -/
theorem test_written :
    freeName "Add".toList = false ∧ freeName "count".toList = true ∧ written "ADDI".toList [.reg .s 5, .reg .s 6, .val 4095] 0 = some (.addi 5 6 4095) ∧
      written "addi".toList [.reg .s 5, .reg .s 6, .val 4096] 0 = none ∧ written "b".toList [.val 0x104] 0x100 = some (.beq 0 0 2) := by decide +kernel

/-- The kernel `tick` of the manual's chapter on the assembler. -/
def tickText : List String :=
  ["        .kernel tick, wdog=8", "        .ver    3", "        .shape  1, 2", "        .wid    1", "        .channel 0, start",
   "        .channel 4, bump, prio=2, vc=2, serial", "        .energy 4, 120, 300, 6", "        .data   0x800", "count:  .dword  0", "        .text",
   "start:  retire                  ; 0x0000", "bump:   li      s5, count", "        ld.i64  s6, [s5+0]", "        addi    s6, s6, 1",
   "        st.64   [s5+0], s6", "        retire", "        .kend"]
def tick : Option KernelFile := ((tickText.mapM fun l => srcLine l.toList).bind (kernelsOf none)).bind link
/-- Its code, its handler entries and its header fields as the manual prints them. -/
theorem test_tick :
    (tick.any fun f => f.image.take 24 == ([0x18, 0x00, 0x37, 0x0A, 0x00, 0x40, 0xB7, 0x4C, 0x01, 0x00, 0x32, 0x01, 0xD7, 0x4C, 0x01, 0x00, 0x18, 0x00, 0, 0, 0,
        0, 0, 0] : List Byte) && f.entry 0 == 0x0000000800000000 && f.entry 4 == 0x12C0078692000002 && f.imgSize == 280 && f.chTab == 0x18 && f.ver == 3 &&
      f.argBase == 0x5BF00 && f.stkBase == 0x57F00 && f.dataBase == 0x800 && f.dataSize == 8 && headerStatus f == 0) = true := by decide +kernel

/-- Directives that name labels of instructions take their values once the lengths are settled; a kernel's name is no mnemonic and no
register (R360, R361, R364). -/
def late (n : String) : Option KernelFile :=
  (([".kernel " ++ n, ".ver 3", ".shape 1, 1", ".wid 1", ".channel 0, xa", ".text", "xa: j xa", "xb: .fill (xb-xa)-4, 0", ".equ kq, 8/(xb-xa-2)",
     "li s5, kq", "retire", ".kend"].mapM fun l => srcLine l.toList).bind (kernelsOf none)).bind link
theorem test_late_values :
    ((late "kk").any fun f => f.image.take 8 == ([0x37, 0x01, 0x00, 0x00, 0x2B, 0x04, 0x18, 0x00] : List Byte)) = true ∧ late "add" = none ∧ late "s5" = none := by
  decide +kernel

/-! Witnesses of the clauses on edges, soft errors, beats, late answers and the other events. -/

/-- Edges and soft errors of the post-increment, compact, strided, gather and scatter forms (R75, R333). -/
theorem witness_ScalarLoads_forms :
    (∀ i ∈ ([.ldPostinc 1 2 0 1, .ldPostinc 1 2 3 1, .ldPostinc 1 2 7 1, .stPostinc 1 2 0 1, .stPostinc 1 2 4 1, .lvs 1 2 3 0, .lvg 1 2 3 3,
      .svx 1 2 3 1] : List Instr), Legal i (base 0x60000) ∧ causeOf i (base 0x60000) = some 4) ∧
    (∀ i ∈ ([.ldPostinc 1 2 2 1, .ldPostinc 1 2 7 1, .stPostinc 1 2 3 1, .stPostinc 1 2 4 1, .lvs 1 2 3 1, .lvg 1 2 3 2, .svx 1 2 3 3] : List Instr),
      Legal i (base 0x5FFFF) ∧ causeOf i (base 0x5FFFF) = some 5) ∧
    (let s := fun (a : Word) => ctx0 fun c => c.setS (cReg 7) a
     ∀ k ∈ ([0, 1, 2, 3] : List (Fin 4)), Ready (.cLd 0 7 k 0) (s 0x60000) ∧ causeOf (.cLd 0 7 k 0) (s 0x60000) = some 4 ∧
       causeOf (.cLd 0 7 k 0) (s 0x5FFFF) = some 5) ∧
    (let s := (base 9).modSite 0 fun x => { x with bad := [16] }
     (s.ctx.sreg 2).toNat = 9 ∧ ∀ i ∈ ([.ldN16 1 2 6, .ldPostinc 1 2 6 0, .ldPostinc 1 2 7 0, .lv 1 2 0, .lvs 1 2 3 3, .lvg 1 2 3 3] : List Instr),
       Legal i s ∧ causeOf i s = some 9) := by decide

/-- A copy moves one beat a step: from and to its own scratchpad, at a far home, and out of a reply (R301 to R303). -/
theorem witness_CopiesAndFolds_beats :
    let q : Piece := { src := 0x100, dst := 0x200, len := 40 }
    let r : Piece := { src := 0x4000000000080000, dst := 0x200, len := 40, st := .ready, data := List.replicate 40 7 }
    let f := fun (p : Piece) => core0 fun k => { k with copies := [{ len := 40, src := p.src, dst := p.dst, vc := 0, ctx := 0, tag := 0, pieces := [p] }] }
    let c := fun (p : Piece) => ((f p).site 0).core.copies.getD 0 { len := 0, src := 0, dst := 0, vc := 0, ctx := 0, tag := 0 }
    let got := fun (p : Piece) => (((after (.copyCommandStart 0) (f p)).site 0).core.copies.map fun y => y.pieces.map fun p => (p.data.length, p.good))
    Live (f q) 0 ∧ ((f q).copyNext 0 (c q)).isSome = true ∧ (c q).sent = false ∧ (f q).me.bad = [] ∧ got q = [[(32, 0)]] ∧
      r.data ≠ [] ∧ r.good + r.data.length = r.len ∧ got r = [[(8, 32)]] ∧ (after (.copyCommandStart 0) (f r)).byteAt 0 0x21F = 7 ∧
      (after (.copyCommandStart 0) (f r)).byteAt 0 0x220 = 0 ∧
      (let p : Pkt := toTile (.cpRead 1 2 0 0 40 [])
       let s := site0 fun x => { x with svc := [p] }
       Live s 0 ∧ ((after (.farRequestService 0) s).site 0).svc = [toTile (.cpRead 1 2 0 0 40 (List.replicate 32 0))] ∧
         ((after (.farRequestService 0) (after (.farRequestService 0) s)).site 0).svc = []) ∧
      (let a := (f { r with st := .reading, data := [] }).modSite 0 fun x => { x with rxResp := [toTile (.cpReply 0 0 (List.replicate 40 9) 0)] }
       let b := after (.farResponseArrival 0) a
       (b.site 0).rxResp = [toTile (.cpReply 0 0 (List.replicate 8 9) 0)] ∧ (b.site 0).core.copies.length = 1) := by decide
theorem witness_TransfersAndCounters_beat :
    let p : Pkt := toTile (.cpWrite 1 2 0 0x100 (List.replicate 40 5))
    let s := site0 fun x => { x with svc := [p] }
    let v := after (.farRequestService 0) s
    Live s 0 ∧ (v.site 0).svc = [toTile (.cpWrite 1 2 0 0x120 (List.replicate 8 5))] ∧ v.byteAt 0 0x11F = 5 ∧ v.byteAt 0 0x120 = 0 ∧
      ((after (.farRequestService 0) v).site 0).svc = [] ∧ (after (.farRequestService 0) v).byteAt 0 0x127 = 5 := by decide

/-- MIGRATING pages, a full station, the roots of a helm core, and table words without a value (R258 to R260, R334, R354, R355). -/
theorem witness_GlobalService_walks :
    let f := fun (st : Station) => ({ State.reset with phys := pages, stations := [(0, st)] } : State)
    let mig : Tlb := { pid := 0, base := 0x300000, bits := 16, leaf := 0x300059 }
    let moving := f { rxq := [{ read0 with inVc := 1 }], cache := [mig] }
    let full : State := { f { rxq := [{ read0 with inVc := 1 }], cache := [mig], held := List.replicate 64 read0 } with phys := memWrite pages 0x30180 8 0x300059 }
    let bad : State := { f { walk := some read0 } with badPhys := [0x10000], tenants := [(0, tenant0)] }
    let helm : State := { f { walk := some { read0 with site := 8384 } } with helmRoots := [(8384, 0x40000)] }
    mig.serves read0 = true ∧ eMig mig.leaf.toNat = true ∧ ((after (.stationRequest 0) moving).station 0).held.length = 1 ∧ ((full.walkOf read0).map fun p => eMig p.leaf) = some true ∧
      (full.station 0).held.length = 64 ∧ ((after (.stationRequest 0) full).station 0).held.length = 64 ∧ ((after (.stationRequest 0) full).station 0).rxq.length = 1 ∧
      bad.walkBadFrom (bad.rootOf read0) 0x300000 = some 0x10000 ∧
      ((after (.tableWalkComplete 0) bad).tenants.map fun e => e.2.errs.length) = [1] ∧
      isHelm 8384 = true ∧ helm.walkOf { read0 with site := 8384 } = none ∧ (helm.walkOf read0).isSome = true ∧
      (match ((after (.tableWalkComplete 0) helm).station 0).svc with | [(_, .fault t)] => t.cause == 7 | _ => false) = true ∧
      (let w : State := { State.reset with badPhys := [0x40] }
       (0x40 : Nat) < 0x58 + 8 ∧ 0x58 < 0x40 + 32 ∧ w.absentAt 0x58 = false ∧ (after (.pageTableWrite 0x58 1) w).errors.length = 1 ∧ (after (.pageTableWrite 0x58 1) w).phys = []) ∧
      (let w : State := { State.reset with boot := { State.reset.boot with hbmOut := [1] } }
       w.absentAt 0x8000 = true ∧ w.absentAt 0 = false ∧ (after (.pageTableWrite 0x8000 1) w).phys = []) := by decide
theorem witness_GlobalService_sealAck :
    let o : SealOp := { num := 3, lifts := false, pid := 0, base := 0x300000, len := 0x10000, site := 0, ctx := 1, id := 2, left := [] }
    let f := fun (n : Nat) (b : Option Nat) => ({ ((site0 fun x => { x with rxResp := [toTile (.sealAck 3)] }).modCtxAt 0 1 fun c =>
      { c with st := .stalled, wait := .resp 2 .none 4 none }) with seals := [{ o with acks := n, bad := b }] } : State)
    (∀ s ∈ [f 2 none, f 1 none, f 1 (some 0)], Live s 0 ∧ (s.site 0).halted = false ∧ (s.site 0).rxResp.length = 1) ∧
      ((after (.farResponseArrival 0) (f 2 none)).seals.map (·.acks)) = [1] ∧ ((after (.farResponseArrival 0) (f 2 none)).ctxAt 0 1).st = .stalled ∧
      (after (.farResponseArrival 0) (f 1 none)).seals = [] ∧ ((after (.farResponseArrival 0) (f 1 none)).ctxAt 0 1).st = .running ∧
      ((after (.farResponseArrival 0) (f 1 (some 0))).ctxAt 0 1).st = .trapped := by decide

theorem witness_MatrixInstructions_lists :
    let f := fun (n k : Nat) => (link0 (heldLeft { list := { addr := 0, count := n } })).modCtx fun c => { c with posted := k }
    (∀ s ∈ [f 0 1, f 2 0, f 2 1], Ready (.mxpush 1 1) s) ∧ (after (.mxpush 1 1) (f 2 1)).ctx.st = .stalled ∧ (after (.mxpush 1 1) (f 2 0)).ctx.pc = 4 ∧
      (after (.mxpush 1 1) (f 0 1)).ctx.pc = 4 ∧ ((f 2 1).engine 0).left.list.count ≠ 0 := by decide
/-- ACCCVT to BF16, INT16 and DPT8 (R106, R246): 1.0, a saturated 2^15, the nearest of 5 and of 200. -/
theorem test_acccvt_types :
    let f := fun (n : BitVec 32) => core0 fun k => { k with acc := [(0, n)] }
    ((after (.acccvt 1 0 0 tBF) (f 0x3F800000)).ctx.vreg 1).toNat % 65536 = 0x3F80 ∧ ((after (.acccvt 1 0 0 tI16) (f 0x8000)).ctx.vreg 1).toNat % 65536 = 0x7FFF ∧
      dpt8val (((after (.acccvt 1 0 0 tDP) (f 5)).ctx.vreg 1).toNat % 256) = 5 ∧ dpt8val (((after (.acccvt 1 0 0 tDP) (f 200)).ctx.vreg 1).toNat % 256) = 128 := by decide

/-- K-steps of other formats and of a promotion point, an engine that parts, and a delivery to a bank above 7 (R220, R224, R226 to R229). -/
theorem witness_EngineEvents_formats :
    let w := fun (t p k : Nat) => (BitVec.ofNat 64 (k * 2 ^ 20 + p * 2 ^ 8 + t * 17) : Word)
    let o := fun (w : Word) (b : VWord) (k : Nat) (sc : List VWord) => ({ cfg := some w, mask := 0xFFFF, fifo := [.data b], nextk := k, scales := sc } : EngEnd)
    let f := fun (w : Word) (b : VWord) (k : Nat) (sc : List VWord) (x : Int) => link0 fun e =>
      { e with st := .streaming, left := o w b k sc, right := o w b k sc, k := k, inner := List.replicate 256 x, outer := List.replicate 256 0 }
    let bf := f (w 8 0 2) 0x4000 0 [] 0
    let int := f (w 0 0 9) 3 7 [] 10
    let bs := f (w 11 2 33) 0 31 [127] 6
    cfgBf (w 8 0 2) = true ∧ cfgInt (w 0 0 9) = true ∧ cfgP (w 0 0 9) = 8 ∧ cfgBs (w 11 2 33) = true ∧ cfgP (w 11 2 33) = 32 ∧ (31 : Nat) / 32 + 1 = 1 ∧
      ((after (.kStepConsume 0) bf).engine 0).outer.getD 0 0 = 0x40800000 ∧ ((after (.kStepConsume 0) bf).engine 0).left.fifo.length = 0 ∧
      ((after (.kStepConsume 0) int).engine 0).outer.getD 0 0 = 19 ∧ ((after (.kStepConsume 0) int).engine 0).inner.getD 0 1 = 0 ∧
      ((after (.kStepConsume 0) bs).engine 0).outer.getD 0 0 = 0x40C00000 := by decide
theorem witness_EngineEvents_parting :
    let d : Delivery := { engine := 0, bank := 8, sem := 0, mode := 0, mrow := 1, mcol := 1, cells := [], parted := true, ovf := false, kdone := 0 }
    let s : State := { (link0 fun x => { x with st := .preempt, parting := some true, left := { held := some (0, 0), cfg := some cfg8, cmds := [(2, .cfg cfg8 1)] } })
      with cycle := 2 }
    let v := (group id id).setEngine 0 { st := .streaming, pending := some (1, d), left := { held := some (0, 0) } }
    ((s.engine 0).fin true).due 2 = [.cfg cfg8 1] ∧ ((s.engine 0).fin false).due 2 = [] ∧ ((s.engineArrivals 2 0).engine 0).st = .preempt ∧
      ((s.engineArrivals 2 0).engine 0).left.cmds = [] ∧ v.memberTile (engLeft 0) 1 = some 1 ∧ v.isOff 1 = false ∧ 7 < d.bank ∧
      nexts (.deliverySend 0) v = true ∧ ((after (.deliverySend 0) v).engine 0).pending = none := by decide

/-- A gate waits for a commit after a halt, and a rollback takes an own-cause halt since the commit with it (R335, R338, R330). -/
theorem witness_BallastEvents_halts :
    let gate := fun (x : Site) => { x with gate := { x.gate with st := .committing } }
    let w := site0 fun x => gate { x with halted := true, ballast := { x.ballast with st := .writing 1 0 0 0 } }
    let i := fun (h : Bool) => site0 fun x => gate { x with halted := h }
    let back := saved fun x => { x with rollback := true, halted := true, ownHalt := true, ownAt := 6 }
    Live w 0 ∧ ((after (.commitComplete 0) w).site 0).gate.st = .committing ∧ (after (.commitComplete 0) (i true)).site 0 = (i true).site 0 ∧
      ((after (.commitComplete 0) (i false)).site 0).ballast.st = .requested 0 ∧ (word0 2).cycle < 6 ∧ (back.site 0).heldg = 0 ∧
      ((after (.eccRollback 0) back).site 0).halted = false ∧
      (let k := site0 fun x => { x with gate := { x.gate with st := .waking } }
       k.resumeTile 0 = none ∧ (k.site 0).krn.launch = none ∧ ((after (.resume 0) k).site 0).gate.st = .on) ∧
      (let m := site0 fun x => { x with vland := [5] }
       ((after (.powerLoss 0) m).site 0).vland = []) := by decide
theorem witness_LaunchEvents_unfit :
    let f := fun (g : GateSt) => group (fun x => { x with unfit := true, gate := { x.gate with st := g } }) id
    (∀ g ∈ [GateSt.sleep, .off], ((f g).site 0).powered = true ∧ ((f g).site 0).unwell 0 = false ∧ (f g).refuge 0 2 = true ∧ (f g).isFree 2 = true ∧
      (after (.healthMigration 0 2) (f g)).placeOf 0 = 2 ∧ ((after (.healthMigration 0 2) (f g)).site 0).gate.st = g ∧
      (after (.liveMigration 0 2) (f g)).placeOf 0 = 2) ∧
      ((after (.healthMigration 0 2) (f .on)).site 0).quiesce = true ∧
      (let h := (f .on).modSite 0 fun x => { x with halted := true }
       (h.site 0).halted = true ∧ ((after (.healthMigration 0 2) h).site 0).unfit = true ∧ (after (.healthMigration 0 2) h).placeOf 0 = 0) := by decide
/-- An argument block in an uncorrectable word ends the launch with status 8 and an error record (R333, R354). -/
theorem witness_LaunchEvents_badArgs :
    let s : State := { (waiting (fun x => { x with st := .loading, members := [0, 1], handle := 1, desc := { x.desc with argva := 0x300000 } }) (file0 1 2 8))
      with phys := pages, badPhys := [0x300000] }
    s.argHeld 0 0x300000 8 = false ∧ s.argBlock 0 0x300000 8 = none ∧ ((after (.launchLoadComplete 5) s).tenants.map fun e => e.2.errs.length) = [1] ∧
      (after (.launchLoadComplete 5) s).launches = [] := by decide

/-- A divider change keeps the slots that the frame has had; a token that is not newer still uses its session (R341, R346). -/
theorem witness_PowerAndRouter_slots :
    let x : Site := { divider := 1 }
    let y := x.setDivider 8 16
    let s : State := { State.reset with cycle := 9, power := { State.reset.power with seq := some 5 },
                                        sumac := { sessions := [{ num := 0, who := .operator, lastAt := 0, answers := [] }] } }
    0 < x.divider ∧ y.slots = 8 ∧ y.divider = 16 ∧ y.frameOver 135 = false ∧ y.frameOver 136 = true ∧
      (after (.powerToken (0, leBytes 4 5 ++ leBytes 2 4000 ++ List.replicate 10 0)) s).sumac.sessions.map (·.lastAt) = [9] ∧
      (after (.powerToken (0, leBytes 4 5 ++ leBytes 2 4000 ++ List.replicate 10 0)) s).power.seq = some 5 := by decide
/-- Images, absent stacks, and a deletion that waits for what is on its way (R257, R305, R352, R356). -/
theorem witness_BootAndTenants_images :
    let b : Boot := { rollback := [(9, 3)], images := [{ kind := 9, slot := 0, ver := 2, good := true }, { kind := 9, slot := 1, ver := 3, good := true }] }
    b.imageOk 9 0 = false ∧ b.imageOk 9 1 = true ∧ b.imageOk 5 0 = true ∧ ({ rollback := [(1, 1)] } : Boot).imageOk 1 0 = false ∧ ({} : Boot).imageOk 1 0 = true ∧
    (let s : State := { State.reset with boot := { State.reset.boot with hbmOut := [4] } }
     s.absentAt 0x3000008000 = true ∧ s.absentAt 0x3000007FFF = false ∧ s.absentAt 0x8000 = false ∧ s.absentAt 0xC000000000 = false) ∧
    (let s : State := { State.reset with tenants := [(0, tenant0)], stations := [(0, { rxq := [read0] })] }
     s.pagesBusy 0 = true ∧ (after (.tenantDelete 0) s).tenants.length = 1 ∧ ({ s with stations := [] } : State).pagesBusy 0 = false ∧
       (after (.tenantDelete 0) { s with stations := [] }).tenants = []) ∧
    (after .getMeasurements State.reset).boot.reports.length = 1 := by decide

/-! Witnesses of the clauses on exact-sum words, rings, parked loads, folds, tables, phasers and what else the fourth review asked for. -/

/-- Exact-sum words at ca (R113, R114): a sum, a clear, a status read, the value of a BF16 pattern. -/
theorem witness_OwnerService_sums :
    let at0 := fun (x : Nat) (s : Site) => { s with mem := memWrite [] 0 64 x }
    let add := fun (bf : Bool) (v : BitVec 32) (x : Nat) => asking (req0 (.xadd bf v) 0) .none (at0 x)
    let word := fun (s : State) => memRead ((after (.caOperation 0) s).site 0).mem 0 64
    let read := fun (x : Nat) => asking (req0 (.xrd false) 0) (.xrd 1) (at0 x)
    (∀ s ∈ [add false 0x3F800000 0, read (2 ^ 160)], Live s 0 ∧ (s.site 0).core.caq.length = 1 ∧ (s.site 0).bad = [] ∧ (s.ctxAt 0 0).st = .stalled ∧
      4 ∉ (s.ctxAt 0 0).lost) ∧ word (add false 0x3F800000 0) = 2 ^ 160 ∧ word (add true 0x3F80 (2 ^ 160)) = 2 ^ 161 ∧
      word (add false 0xBF800000 0) + 2 ^ 160 = 2 ^ 252 * 2 ^ 252 ∧ word (add false 0xFF800000 5) = 4 * 2 ^ 252 * 2 ^ 252 + 5 ∧ word (add false 0x80000000 5) = 5 ∧
      word (asking (req0 .xclr 0) .none (at0 (2 ^ 252 * 2 ^ 252))) = 0 ∧ ((after (.caOperation 0) (read (2 ^ 160))).ctxAt 0 0).sreg 1 = 0x3F800000 ∧
      ((after (.caOperation 0) (read (6 * 2 ^ 252 * 2 ^ 252))).ctxAt 0 0).sreg 1 = 0x7FC00000 := by decide
/-- The ring of R166's example: the wrapped entry, a full and an empty ring, a bad size, a misaligned block. -/
theorem witness_OwnerService_rings :
    let f := fun (op : FarOp) (pop : Bool) (b size head tail : Nat) => asking (req0 op b) (.ring 1 2 pop) fun s =>
      { s with mem := memWrite (memWrite (memWrite (memWrite [] 0xF00 4 0x1000) 0xF04 4 size) 0xF08 4 head) 0xF0C 4 tail }
    let push := f (.rpush 9) false 0xF00 2 0xFFFFFFFE 0xFFFFFFFE
    let u := after (.caOperation 0) push
    memRead (u.site 0).mem 0x1010 8 = 9 ∧ memRead (u.site 0).mem 0xF0C 4 = 0xFFFFFFFF ∧ (u.ctxAt 0 0).preg 2 = 0xFFFFFFFF ∧
      ((after (.caOperation 0) (f (.rpush 9) false 0xF00 2 0xFFFFFFFE 2)).ctxAt 0 0).preg 2 = 0 ∧
      ((after (.caOperation 0) (f .rpop true 0xF00 2 5 5)).ctxAt 0 0).preg 2 = 0 ∧
      memRead ((after (.caOperation 0) (f .rpop true 0xF00 2 5 6)).site 0).mem 0xF08 4 = 6 ∧
      (∀ e ∈ ([(f .rpop true 0xF00 14 0 0, 4), (f .rpop true 0xF00 0 0 0, 4), (f .rpop true 0xF08 2 0 0, 3), (f .rpop true 0x60000 2 0 0, 4)] :
        List (State × Nat)), Live e.1 0 ∧ ((after (.caOperation 0) e.1).ctxAt 0 0).trap.map (fun r => (r.headD 0).toNat % 256) = some e.2) := by decide
/-- A versioned store answers the load that is parked for it, and a reclaim ends those of no newer version (R212). -/
theorem witness_OwnerService_parked :
    let q := fun (n : BitVec 16) => ({ ni := true, op := .vld n 2, addr := 0, site := 1, ctx := 2, id := 9 } : FarReq)
    let f := fun (op : FarOp) (x : Nat) => asking (req0 op 0) .none fun s => { slot0 x s with core := { s.core with parked := [q 3, q 5] } }
    let parks := fun (op : FarOp) (x : Nat) => ((after (.caOperation 0) (f op x)).site 0).core.parked
    let w := 2 ^ 56 + 1 * 2 ^ 32 + 7
    Live (f (.vst 3 77 2) 0) 0 ∧ parks (.vst 3 77 2) 0 = [q 5] ∧ parks (.vrecl 3 2) w = [q 5] ∧ parks (.vrecl 2 2) w = [q 3, q 5] ∧
      slotOf (memRead ((after (.caOperation 0) (f (.vrecl 3 2) w)).site 0).mem 8 8) = (true, false, 1, 7) ∧
      slotOf (memRead ((after (.caOperation 0) (f (.vrecl 0 2) w)).site 0).mem 8 8) = (false, true, 1, 7) ∧
      newer 5 3 = true ∧ newer 3 3 = false := by decide
/-- An atomic that came through the NI frees the service unit, and an answer that nothing waits for is discarded (R43, R188). -/
theorem witness_OwnerService_far :
    let r : FarReq := { ni := true, op := .atomic 0 32 1 0, addr := 8, site := 1, ctx := 2, id := 9 }
    let p : Pkt := { src := 1, dst := 0, vc := 0, body := 0, load := .far r }
    let s := site0 fun x => { x with svc := [p], core := { x.core with caq := [r] } }
    let t := (site0 fun x => { x with rxResp := [toTile (.resp 0 4 { val := 6 })] }).modCtx fun c => { c with lost := [4, 5] }
    Live s 0 ∧ ((after (.caOperation 0) s).site 0).svc = [] ∧ ((after (.caOperation 0) s).site 0).core.caq = [] ∧
      memRead ((after (.caOperation 0) s).site 0).mem 8 4 = 1 ∧ (t.site 0).halted = false ∧ ((after (.farResponseArrival 0) t).ctxAt 0 0).lost = [5] := by decide
/-- The record of a refused posted store names that store (R142). -/
theorem witness_OwnerService_refused :
    let s := (site0 fun x => { x with rxResp := [toTile (.ack 0 1 5 (some { cause := 7 }))] }).modCtx fun c =>
      { c with st := .running, unacked := [(1, 5)], posts := [(5, 0x40, 3)], pc := 0x80 }
    ((after (.farResponseArrival 0) s).ctxAt 0 0).trap.bind (·[1]?) = some 0x40 ∧ ((after (.farResponseArrival 0) s).ctxAt 0 0).flags = 3 := by decide

/-- FOLD with OPEN, NOARR and CLOSE, and R117's table (R115, R117, R194). -/
theorem witness_CopiesAndFolds_arrivals :
    let f := fun (d : Nat) (m : Word) (e : BitVec 16) (n : Nat) => (core0 fun k => { k with foldq := [{ desc := BitVec.ofNat 64 d, m := m, e := e, ctx := 2 }], q7 := { items := List.replicate n 0 } })
    let fr := fun (s : State) => ((after (.foldPerform 0) s).ctxAt 0 2).fr
    Live (f 0x300001 1 0 0) 0 ∧ fr (f 0x300001 3 0 0) = 1 ∧ fr (f 0x300001 3 2 0) = 6 ∧ fr (f 0x740000 3 2 0) = 0 ∧ fr (f 0x780000 3 2 0) = BitVec.ofInt 128 (-32768) ∧
      fr (f 0x380000 3 2 0) = 2 ∧ ((after (.foldPerform 0) (f 0x300001 3 0 16)).site 0).core.foldq.length = 1 ∧
      (let g : FoldSlot := { mode := 1, exp := 0, acc := 0, sat := false, had := false }
       (((g.add 1 0).add 1 0).add 1 1).acc = 2 ∧ (((g.add 1 1).add 1 0).add 1 0).acc = 1 ∧ (((g.add 1 0).add 1 0).add 1 1).exp = 1) ∧
      (let g : FoldSlot := { mode := 0, exp := 0, acc := 0, sat := false, had := false }
       (g.add (2 ^ 62) 100).sat = true ∧ (g.add (-(2 ^ 62)) 100).acc = BitVec.ofInt 128 (-(2 ^ 127)) ∧ (g.add 1 0).sat = false) := by decide

/-- PUSHT and SEAL trap where R264 and R261 say, and TLBI.H ends a move and waits for what it has marked (R259, R265). -/
theorem witness_GlobalRequests_traps :
    let f := fun (x : Nat) (a : Word) => ({ (group id off) with cur := (8192, 0), phys := pages } : State).modCtx fun c => (c.setS 1 (BitVec.ofNat 64 x)).setS 2 a
    (∀ e ∈ ([(f 0 0x300010, 3), (f (2 ^ 56) 0x300000, 8), (f 2 0x300000, 8), (f (16 * 2 ^ 32 + 0x10000) 0x300000, 4), (f (0x5C000 * 2 ^ 32 + 0x10000) 0x300000, 4),
      (f (0x5BFE0 * 2 ^ 32 + 0x10000) 0x300000, 5), (f 1 0x300000, 0xF)] : List (State × Nat)), Ready (.pusht 1 2 1) e.1 ∧ causeOf (.pusht 1 2 1) e.1 = some e.2) ∧
    (let g := fun (a n : Word) => globe fun c => (c.setS 2 a).setS 3 n
     ∀ e ∈ ([(g 0x300000 0, 4), (g 0x300000 0x1000010000, 4), (g 0x3FFFFFFFFF0000 0x20000, 4), (g 0x300000 0x20000, 7)] : List (State × Nat)),
      Ready (.seal 2 3) e.1 ∧ causeOf (.seal 2 3) e.1 = some e.2) := by decide
theorem witness_GlobalRequests_again :
    let s := (({ State.reset with cur := (8384, 0) } : State).modSite 8384 fun x => { x with super := true }).modCtx fun c =>
      { c.setS 3 0x10005 with wait := .retry 0 }
    let busy : State := { s with stations := [(7, { svc := [({ read0 with pid := 5, tlbi := [(8384, 0)] }, .place 0x300000 16)] })] }
    Ready (.tlbiH 2 3) s ∧ s.ctx.wait = .retry 0 ∧ (after (.tlbiH 2 3) s).ctx.pc = 4 ∧ (after (.tlbiH 2 3) busy).ctx.st = .stalled := by decide
theorem witness_GlobalRequests_moves :
    let s := (({ State.reset with cur := (8384, 0), phys := pages, settling := [0x30180] } : State).modSite 8384 fun x => { x with super := true }).modCtx fun c =>
      c.setS 2 0x300000
    ((s.walk 0 0x300000).map fun p => (p.bits, p.tbl, eMig p.leaf)) = some (16, 0x30180, false) ∧ (after (.tlbiH 2 3) s).settling = [] := by decide
/-- A walk to a page whose move TLBI.H has not ended holds the request, and the last station of a page seals it (R259, R261). -/
theorem witness_GlobalService_moves :
    let s : State := { State.reset with phys := pages, settling := [0x30180], stations := [(0, { walk := some read0 })] }
    let o : SealOp := { num := 3, lifts := false, pid := 0, base := 0x300000, len := 0x10000, site := 0, ctx := 1, id := 2, pages := [(0x300000, 16)], left := [0] }
    let r : GReq := { op := .seal 3, va := 0x300000, pid := 0, site := 0, ctx := 1, id := 0 }
    let t := fun (l : List Nat) => ({ State.reset with phys := pages, stations := [(0, { rxq := [r] })], seals := [{ o with left := l }] } : State)
    let leaf := fun (l : List Nat) => memRead (after (.sealRequestArrival 0) (t l)).phys 0x30180 8
    ((s.walk 0 0x300000).map (·.read)) = some 0x30180 ∧ ((after (.tableWalkComplete 0) s).station 0).held = [read0] ∧
      0 ∈ ownersOf 0x300000 65536 ∧ 1 ∈ ownersOf 0x300000 65536 ∧ leaf [0] = 0x300099 ∧ leaf [0, 1] = 0x300019 := by decide

/-- BAR that has arrived and is not released waits on, and the edges of R200's table. -/
theorem witness_SemaphoresAndBarriers_pend :
    let s := fun (b : BitVec 16) => (core0 fun k => { k with barA := k.barA.set 1 1, barC := k.barC.set 1 b }).modCtx fun c => { c with b := c.b.set 1 { pend := true, token := 0 } }
    Ready (.bar 1) (s 0) ∧ (s 0).ctx.b[(1 : Fin 4)].pend = true ∧ (after (.bar 1) (s 0)).ctx.st = .stalled ∧ (after (.bar 1) (s 1)).ctx.pc = 4 ∧
      token 0x7FFF 0 = .future ∧ token 0x8000 0 = .stale := by decide
/-- The answers of a sync engine: member, value, predicate, cause. -/
def phCodes (r : Phaser × List (PhReq × Resp)) : List (List Nat) :=
  r.2.map fun x => [x.1.member, x.2.val.toNat, b2n x.2.pred, (x.2.trap.map (·.cause.toNat)).getD 0]
def phQ (op : PhOp) (m : Nat) : PhReq := { op := op, launch := 5, phaser := 1, member := m, site := m, ctx := 0, id := 0 }
/-- Members 0 and 1 are registered SIGWAIT and member 2 WAIT; phase 4 is open. -/
def phRun (l : List PhReq) : Phaser :=
  let m := fun (i mode : Nat) => ({ member := i, mode := mode, start := 4, nextS := 4 } : PhMember)
  l.foldl (fun p q => (p.serve q).1) { phase := 4, regs := [m 0 2, m 1 2, m 2 1] }
/-- The run of R209 on one phaser, and the refusals. -/
theorem witness_Phasers_run :
    let l := [phQ .sig 0, phQ (.reg 0) 3, phQ .sig 0, phQ (.wait 4) 2, phQ .sig 1]
    ((List.range 5).map fun i => phCodes ((phRun (l.take i)).serve (l.getD i (phQ .next 0)))) =
      [[[0, 4, 1, 0]], [[3, 5, 1, 0]], [[0, 5, 1, 0]], [], [[1, 4, 1, 0], [2, 0, 1, 0]]] ∧
      ((List.range 6).map fun i => (phRun (l.take i)).phase) = [4, 4, 4, 4, 4, 5] ∧ phCodes ((phRun l).serve (phQ (.wait 4) 2)) = [[2, 0, 0, 0]] ∧
      phCodes ((phRun l).serve (phQ (.wait 7) 2)) = [[2, 0, 1, 16]] := by decide
theorem witness_Phasers_refusals :
    (phRun [phQ .sig 0, phQ .sig 0, phQ .sig 0]).queue.length = 1 ∧ phCodes ((phRun []).serve (phQ .sig 2)) = [[2, 0, 1, 8]] ∧
      phCodes ((phRun []).serve (phQ (.reg 0) 1)) = [[1, 0, 1, 8]] ∧ (phRun [phQ .sig 0, phQ .drop 1]).phase = 5 ∧
      (phRun [phQ .sig 0, phQ .sig 0, phQ .drop 1]).phase = 6 := by decide

/-- The payload of SEND and SENDM is read where check() and the bank allow (R160). -/
theorem witness_Sends_payload :
    let f := fun (a : Word) (bad : List Nat) => (groupCtx fun c => (((c.setS 1 0).setS 2 1).setS 3 a)).modSite 0 fun x => { x with bad := bad }
    ∀ e ∈ ([(f 0x60000 [], 4), (f 0x5FFF0 [], 5), (f 0x100 [0x118], 9)] : List (State × Nat)), Ready (.send 1 2 3 0) e.1 ∧ causeOf (.send 1 2 3 0) e.1 = some e.2 := by decide
/-- Channel 31 first, then the effective priority, the older head, the lower channel (R35, R142); R46's admission. -/
theorem witness_MessagesAndActivations_order :
    let d := fun (n : Nat) => ({ hdr := 0, addr := 0, beats := 1, entry := n } : Desc)
    let s := core0 fun k => { k with htab := (((k.htab.set 1 (BitVec.ofNat 64 (2 ^ 24))).set 2 0).set 3 0).set 31 0, chq := ((((k.chq.set 1 [d 9]).set 2 [d 7]).set 3 [d 5]).set 4 [d 7]).set 31 [d 9] }
    let s := s.modCore 0 fun k => { k with htab := k.htab.set 4 0 }
    ((s.site 0).order.map (·.1)) = [31, 1, 3, 2, 4] ∧
      (let e := BitVec.ofNat 64 (50 * 2 ^ 36 + 10 * 2 ^ 52)
       let t := fun (left budget peak : Nat) => ({ State.reset with power := { State.reset.power with clusters := [(0, { left := left, budget := budget, peak := peak })] } } : State)
       (t 50 50 10).admits 0 e (d 0) = true ∧ (t 49 50 10).admits 0 e (d 0) = false ∧ (t 49 49 10).admits 0 e { d 0 with atStart := true } = true ∧
         (t 50 50 9).admits 0 e (d 0) = true ∧ ((t 50 50 9).charge 0 e).cluster 0 = { left := 0, budget := 50, peak := 9, any := true }) := by decide
/-- On a PERSIST channel the overflows are counted before the wait, and a trap takes them back (R180; log 99). -/
theorem witness_Retirement_overflows :
    let s := (groupCtx fun c => { c with heldOvf := 3 }).modCore 0 fun k => { k with htab := k.htab.set 0 (BitVec.ofNat 64 (2 ^ 29)), mxovf := 0xFFFFFFFE }
    Ready .retire s ∧ (after .retire s).me.core.mxovf = 0xFFFFFFFF ∧ (after .retire s).ctx.heldOvf = 0 ∧
      ((after .retire s).raise { cause := 1 }).me.core.mxovf = 0xFFFFFFFE := by decide
/-- The window faults, PAGE and the waits of R319. -/
theorem witness_AtomicRequests_windows :
    let f := fun (a : Word) (g : Site → Site) => (group id g).modCtx fun c => c.setS 2 a
    (∀ e ∈ ([(f 0x100000 id, 8), (f 0xE0000 id, 4), (f 0x80000 off, 0xF)] : List (State × Nat)), Ready (.aadd 1 2 3 0 1) e.1 ∧ causeOf (.aadd 1 2 3 0 1) e.1 = some e.2) ∧
      Ready (.aadd 1 2 3 0 2) (f 0x40000000000000 id) ∧ causeOf (.aadd 1 2 3 0 2) (f 0x40000000000000 id) = some 7 ∧
      (∀ e ∈ ([(f 0x100000 id, 8), (f 0xE0000 id, 4), (f 0x80000 off, 0xF)] : List (State × Nat)), Ready (.xaddf 2 3 0) e.1 ∧ causeOf (.xaddf 2 3 0) e.1 = some e.2) ∧
      (∀ e ∈ ([(f 0x60000 id, 4)] : List (State × Nat)), causeOf (.xrd 1 2 0) e.1 = some e.2 ∧ causeOf (.xclr 2) e.1 = some e.2) := by decide
theorem witness_AtomicRequests_commit :
    let f := fun (a : Word) => ((group id id).modCtx fun c => c.setS 2 a).modSite 0 fun x => { x with ballast := x.ballast.ask 0 }
    (f 0x80000).commitHolds = true ∧ (∀ i ∈ ([.aadd 1 2 3 0 1, .xaddf 2 3 0, .rpush 1 2 2, .rpop 1 2 2] : List Instr), Ready i (f 0x80000) ∧ (after i (f 0x80000)).ctx.st = .stalled) ∧
      (after (.aadd 1 2 3 0 0) (f 0)).ctx.pc = 0 ∧ (after (.xclr 2) (f 0)).ctx.pc = 0 ∧ (after (.vst 1 2 3) (f 0x1000000000000000)).ctx.pc = 0 := by decide

/-- SY.TILE and an unassigned number (R147, R148). -/
theorem witness_SystemRegisters_tile :
    let s := ({ State.reset with cur := (1056, 0) } : State)
    (s.physRow 1056 = 1) ∧ (after (.sysr 1 0 1) s).ctx.sreg 1 = BitVec.ofNat 64 (1056 + 2 ^ 16) ∧
      ({ s with boot := { s.boot with spare := [(32, 0)] } } : State).physRow 1056 = 2 ∧
      (∀ n ∈ ([0x14, 0x0C] : List (Fin 32)), sysNumber 0 n = n.val ∧ causeOf (.sysr 1 0 n) s = some 1 ∧ causeOf (.sysw 1 0 n) s = some 1) := by decide
/-- The watchdog traps in the cycle that brings it to the limit (R144). -/
theorem witness_StepRunsDecoded_watchdog :
    let s := (site0 fun x => { x with krn := { x.krn with limit := 2 } }).modCtx fun c => { c with st := .running, wdog := 2048 }
    (s.site 0).expired 0 = true ∧ (s.site 0).late = [] ∧ (s.watchdogs.ctxAt 0 0).st = .trapped ∧ (s.site 0).expired 1 = false := by decide
/-- SHA-256 of "abc" (FIPS 180-4; R352). -/
theorem test_sha256_abc :
    (sha256 [0x61, 0x62, 0x63]).toNat = 0xBA7816BF8F01CFEA414140DE5DAE2223B00361A396177A9CB410FF61F20015AD := by decide +kernel

end Sys2Proof.Tests
end

section
/-! What an abort (R141) leaves in the state: the running context stays selected, and the aborted context is TRAPPED with
its record, whatever the aborts of its streams, of its wait and the semaphore pass do. -/

namespace Sys2Proof.Machine

/-! The running context stays selected while streams and waits end. -/

@[simp] theorem State.tellEnd_cur (s : State) (e : Nat) (left : Bool) (f : StreamStat → StreamStat) :
    (s.tellEnd e left f).cur = s.cur := by
  unfold State.tellEnd
  dsimp only
  split <;> rfl

@[simp] theorem State.tellEnds_cur (s : State) (e : Nat) (f : StreamStat → StreamStat) : (s.tellEnds e f).cur = s.cur := by
  simp [State.tellEnds]

@[simp] theorem State.settleEngine_cur (s : State) (e : Nat) : (s.settleEngine e).cur = s.cur := by
  unfold State.settleEngine
  dsimp only
  split <;> simp

@[simp] theorem State.breakStream_cur (s : State) (e : Nat) (st : StreamSt) : (s.breakStream e st).cur = s.cur := by
  simp [State.breakStream]

@[simp] theorem State.releaseEnd_cur (s : State) (e : Nat) (left : Bool) : (s.releaseEnd e left).cur = s.cur := by
  simp [State.releaseEnd]

@[simp] theorem State.openNow_cur (s : State) (e : Nat) (left : Bool) : (s.openNow e left).cur = s.cur := by
  unfold State.openNow
  dsimp only
  split <;> simp

@[simp] theorem State.settleClaim_cur (s : State) (e : Nat) (left : Bool) : (s.settleClaim e left).cur = s.cur := by
  unfold State.settleClaim
  dsimp only
  split <;> simp

@[simp] theorem State.dropPort_cur (s : State) (t : Nat) (c : Fin 4) (p : Nat) : (s.dropPort t c p).cur = s.cur := by
  unfold State.dropPort
  cases portTile t p with
  | none => rfl
  | some _ => simp [apply_ite State.cur]

@[simp] theorem State.dropStreams_cur (s : State) (t : Nat) (c : Fin 4) : (s.dropStreams t c).cur = s.cur := by
  simp [State.dropStreams]

@[simp] theorem State.endWait_cur (s : State) (t : Nat) (c : Fin 4) (id : Nat) (far : Bool) :
    (s.endWait t c id far).cur = s.cur := by
  simp [State.endWait, apply_ite State.cur]

@[simp] theorem State.dropWait_cur (s : State) (t : Nat) (c : Fin 4) : (s.dropWait t c).cur = s.cur := by
  unfold State.dropWait
  split <;> simp

@[simp] theorem State.errRecord_cur (s : State) (t what addr : Nat) : (s.errRecord t what addr).cur = s.cur := rfl

@[simp] theorem State.trapAt_cur (s : State) (t : Nat) (c : Fin 4) (tr : Trap) : (s.trapAt t c tr).cur = s.cur := by
  simp only [State.trapAt, State.modCore_cur, State.modCtxAt_cur, State.dropStreams_cur, State.dropWait_cur]
  cases tr.own <;> rfl

@[simp] theorem State.raise_cur (s : State) (tr : Trap) : (s.raise tr).cur = s.cur := s.trapAt_cur _ _ tr

/-! A pass over the semaphore waiters wakes stalled contexts only. -/

theorem semPass_ctx (k : Core) (l : List (Nat × Nat × Nat)) (stuck : List Nat) (kept : List (Nat × Nat × Nat)) (c : Fin 4)
    (h : k.ctxs[c].st ≠ .stalled) : (semPass k l stuck kept).ctxs[c] = k.ctxs[c] := by
  induction l generalizing k stuck kept with
  | nil => rfl
  | cons w r ih =>
    unfold semPass
    dsimp only
    split
    next wakes =>
      have other : w.2.1 % 4 ≠ c.val := by
        intro e
        have same : (⟨w.2.1 % 4, by omega⟩ : Fin 4) = c := Fin.ext e
        simp only [same, Bool.and_eq_true, decide_eq_true_eq] at wakes
        exact h wakes.2
      have keeps : (k.ctxs.set (w.2.1 % 4) (k.ctxs[w.2.1 % 4].advance 4))[c] = k.ctxs[c] := by
        simp [other]
      exact (ih _ _ _ (by simpa [keeps] using h)).trans keeps
    next => exact ih k _ _ h

theorem Core.semServe_ctx (k : Core) (c : Fin 4) (h : k.ctxs[c].st ≠ .stalled) : k.semServe.ctxs[c] = k.ctxs[c] :=
  semPass_ctx k _ _ _ c h

/-! The aborted context. -/

theorem State.site_errRecord (s : State) (t what addr : Nat) :
    (s.errRecord t what addr).site t =
      { s.site t with rollback := (s.site t).rollback || (isTile t && s.rollsBack (s.site t).krn.tenant) } :=
  State.site_modSite ..

@[simp] theorem State.ctxAt_errRecord (s : State) (t what addr : Nat) (c : Fin 4) :
    (s.errRecord t what addr).ctxAt t c = s.ctxAt t c := by
  simp only [State.ctxAt, State.site_errRecord]

/-- An error record changes nothing of its site that a trap record shows. -/
theorem trapRec_errRecord (s : State) (t what addr : Nat) (y : Ctx) (c : Fin 4) (n : Nat) (tr : Trap) :
    trapRec ((s.errRecord t what addr).site t) y c n tr = trapRec (s.site t) y c n tr := by
  rw [State.site_errRecord]
  rfl

/-- A trap over an error of the site's own is the error record and then the abort (R335). -/
theorem State.trapAt_own (s : State) (t : Nat) (c : Fin 4) (tr : Trap) (o : Nat × Nat) (h : tr.own = some o) :
    s.trapAt t c tr = (s.errRecord t o.1 o.2).trapAt t c { tr with own := none } := by
  obtain ⟨cause, w3, w4, w5, code, own⟩ := tr
  subst h
  rfl

/-- A context that does not wait is as it was after the semaphore pass that ends a change of its core. -/
theorem State.ctxAt_modCore_semServe (s : State) (t : Nat) (c : Fin 4) (f : Core → Core)
    (h : (f (s.site t).core).ctxs[c].st ≠ .stalled) :
    (s.modCore t fun k => (f k).semServe).ctxAt t c = (f (s.site t).core).ctxs[c] := by
  simpa [State.ctxAt] using Core.semServe_ctx _ c h

theorem State.ctxAt_trapAt_of_own_none (s : State) (t : Nat) (c : Fin 4) (tr : Trap) (h : tr.own = none) :
    ((s.trapAt t c tr).ctxAt t c).st = .trapped ∧
      ((s.trapAt t c tr).ctxAt t c).trap = some (trapRec (s.site t) (s.ctxAt t c) c s.cycle tr) := by
  obtain ⟨cause, w3, w4, w5, code, own⟩ := tr
  subst h
  unfold State.trapAt
  dsimp only
  rw [State.ctxAt_modCore_semServe]
  · simp [State.modCtxAt]
  · simp [State.modCtxAt]

/-- The aborted context is TRAPPED, and its record is that of the context and the site as the fault found them (R141, R142). -/
theorem State.ctxAt_trapAt (s : State) (t : Nat) (c : Fin 4) (tr : Trap) :
    ((s.trapAt t c tr).ctxAt t c).st = .trapped ∧
      ((s.trapAt t c tr).ctxAt t c).trap = some (trapRec (s.site t) (s.ctxAt t c) c s.cycle tr) := by
  cases h : tr.own with
  | none => exact s.ctxAt_trapAt_of_own_none t c tr h
  | some o =>
    obtain ⟨hst, htrap⟩ := (s.errRecord t o.1 o.2).ctxAt_trapAt_of_own_none t c { tr with own := none } rfl
    rw [s.trapAt_own t c tr o h]
    refine ⟨hst, htrap.trans ?_⟩
    rw [trapRec_errRecord, State.ctxAt_errRecord]
    rfl

/-! The words of a trap record (R142). -/

theorem trapRec_pc (x : Site) (y : Ctx) (c : Fin 4) (n : Nat) (tr : Trap) : (trapRec x y c n tr)[1]? = some y.pc := rfl

/-- The byte at the bottom of a packed word. -/
theorem extractLsb'_low_ofNat (n : Nat) (b : BitVec 8) : (BitVec.ofNat 64 (n * 256 + b.toNat)).extractLsb' 0 8 = b := by
  have hlt := b.isLt
  apply BitVec.eq_of_toNat_eq
  simp only [BitVec.extractLsb'_toNat, BitVec.toNat_ofNat, Nat.shiftRight_zero]
  omega

theorem trapRec_cause (x : Site) (y : Ctx) (c : Fin 4) (n : Nat) (tr : Trap) :
    ((trapRec x y c n tr)[0]?.map fun w => w.extractLsb' 0 8) = some tr.cause := by
  have hpack (f k r h m : Nat) : f * 2 ^ 48 + k * 2 ^ 32 + r * 2 ^ 24 + h * 2 ^ 16 + m * 2 ^ 8 =
      (f * 2 ^ 40 + k * 2 ^ 24 + r * 2 ^ 16 + h * 2 ^ 8 + m) * 256 := by omega
  rw [trapRec, List.getElem?_cons_zero, Option.map_some, hpack, extractLsb'_low_ofNat]

/-- A trap of the running context: it is TRAPPED, with a record of its pc and the cause (R141, R142). -/
theorem State.ctx_raise (s : State) (tr : Trap) :
    (s.raise tr).ctx.st = .trapped ∧
      ∃ r : Rec, (s.raise tr).ctx.trap = some r ∧ r[1]? = some s.ctx.pc ∧
        (r[0]?.map fun w => w.extractLsb' 0 8) = some tr.cause := by
  have hctx : (s.raise tr).ctx = (s.trapAt s.cur.1 s.cur.2 tr).ctxAt s.cur.1 s.cur.2 := by
    rw [State.ctx, State.raise_cur, State.raise]
  obtain ⟨hst, htrap⟩ := s.ctxAt_trapAt s.cur.1 s.cur.2 tr
  rw [hctx]
  exact ⟨hst, _, htrap, trapRec_pc .., trapRec_cause ..⟩

end Sys2Proof.Machine
end

section
/-! ILL and ILL.W (R54). -/

namespace Sys2Proof.Machine

theorem decodeTableWord_ill : decodeTableWord 16 0x0000 = some .ill := by decide

theorem decodeTableWord_illW : decodeTableWord 32 0xFFFFFFFF = some .illW := by decide

/-- Settles O15: both words decode, and raising ILLEGAL leaves the context TRAPPED with a record of its pc. -/
theorem illegalWords : Obligations.IllegalWords := by
  unfold Obligations.IllegalWords
  refine ⟨decodeTableWord_ill, decodeTableWord_illW, fun s i hi => ?_⟩
  have hexec : Traps i s { cause := cILLEGAL } := by
    rcases hi with rfl | rfl
    · exact exec_ill s
    · exact exec_illW s
  exact ⟨_, hexec, s.ctx_raise _⟩

end Sys2Proof.Machine
end

section
/-! Instructions that write one scalar register (R79). -/

namespace Sys2Proof.Machine

/-- An instruction whose meaning is a register result writes the value that its function gives for the running context. -/
theorem setsS_of_exec_eq_wrS {i : Instr} {s : State} {d : Fin 32} {f : Ctx → Word} {x : Word} (h : exec i s = wrS i s d f)
    (value : f s.ctx = x) : SetsS i s d x := by
  intro ⟨legal, cond⟩
  rw [h, wrS, simple_ready i s _ legal cond, value]

/-- A register result of an instruction that its site does not admit is ILLEGAL. -/
theorem traps_of_exec_eq_wrS {i : Instr} {s : State} {d : Fin 32} {f : Ctx → Word} (h : exec i s = wrS i s d f)
    (illegal : s.legal i = false) : Traps i s { cause := cILLEGAL } := by
  rw [Traps, h, wrS, simple, issue_illegal i s _ illegal]

/-- Fields that R51 and R52 refuse are admitted at no site. -/
theorem State.legal_of_not_wf (s : State) {i : Instr} (h : i.wf = false) : s.legal i = false := by
  simp [State.legal, h]

end Sys2Proof.Machine
end

section
/-! Division (R80). -/

namespace Sys2Proof.Machine

/-! The model's quotients and remainders are those of bit vectors, but for a zero divisor. -/

theorem divS_eq_sdiv (x y : Word) : divS x y = if y = 0 then 0xFFFFFFFFFFFFFFFF else x.sdiv y := by
  have quotient : BitVec.ofInt 64 (x.toInt.tdiv y.toInt) = x.sdiv y := by
    apply BitVec.eq_of_toInt_eq
    rw [BitVec.toInt_ofInt, BitVec.toInt_sdiv]
  rw [divS, quotient]
  rfl

theorem remS_eq_srem (x y : Word) : remS x y = if y = 0 then x else x.srem y := by
  have remainder : BitVec.ofInt 64 (x.toInt.tmod y.toInt) = x.srem y := by
    rw [← BitVec.toInt_srem, BitVec.ofInt_toInt]
  rw [remS, remainder]

theorem divU_eq_udiv (x y : Word) : divU x y = if y = 0 then 0xFFFFFFFFFFFFFFFF else x / y := by
  rw [divU, BitVec.udiv_def]
  rfl

theorem remU_eq_umod (x y : Word) : remU x y = if y = 0 then x else x % y := by
  rw [remU, BitVec.umod_def]

/-! The one quotient that 64 bits do not hold, −2^63 by −1. -/

theorem divS_mostNegative_negOne : divS 0x8000000000000000 0xFFFFFFFFFFFFFFFF = 0x8000000000000000 := by decide

theorem remS_mostNegative_negOne : remS 0x8000000000000000 0xFFFFFFFFFFFFFFFF = 0 := by decide

/-! What the four instructions write. -/

theorem setsS_div (s : State) (d a b : Fin 32) :
    SetsS (.div d a b) s d (if s.ctx.sreg b = 0 then 0xFFFFFFFFFFFFFFFF else (s.ctx.sreg a).sdiv (s.ctx.sreg b)) :=
  setsS_of_exec_eq_wrS (exec_div d a b s) (divS_eq_sdiv ..)

theorem setsS_rem (s : State) (d a b : Fin 32) :
    SetsS (.rem d a b) s d (if s.ctx.sreg b = 0 then s.ctx.sreg a else (s.ctx.sreg a).srem (s.ctx.sreg b)) :=
  setsS_of_exec_eq_wrS (exec_rem d a b s) (remS_eq_srem ..)

theorem setsS_divu (s : State) (d a b : Fin 32) :
    SetsS (.divu d a b) s d (if s.ctx.sreg b = 0 then 0xFFFFFFFFFFFFFFFF else s.ctx.sreg a / s.ctx.sreg b) :=
  setsS_of_exec_eq_wrS (exec_divu d a b s) (divU_eq_udiv ..)

theorem setsS_remu (s : State) (d a b : Fin 32) :
    SetsS (.remu d a b) s d (if s.ctx.sreg b = 0 then s.ctx.sreg a else s.ctx.sreg a % s.ctx.sreg b) :=
  setsS_of_exec_eq_wrS (exec_remu d a b s) (remU_eq_umod ..)

/-! Rounding and sign (R80), where 64 bits hold the quotient. -/

theorem toInt_eq_sdiv_mul_add_srem (x y : Word) (h : ¬(x = 0x8000000000000000 ∧ y = 0xFFFFFFFFFFFFFFFF)) :
    x.toInt = (x.sdiv y).toInt * y.toInt + (x.srem y).toInt := by
  rw [BitVec.toInt_sdiv_of_ne_or_ne x y (not_and_or.mp h), BitVec.toInt_srem, Int.tdiv_mul_add_tmod]

theorem natAbs_srem_lt (x y : Word) (h : y ≠ 0) : (x.srem y).toInt.natAbs < y.toInt.natAbs := by
  have nonzero : y.toInt ≠ 0 := fun e => h (BitVec.eq_of_toInt_eq e)
  rw [BitVec.toInt_srem, Int.natAbs_tmod]
  exact Nat.mod_lt _ (Int.natAbs_pos.mpr nonzero)

theorem srem_neg_iff (x y : Word) (h : x.srem y ≠ 0) : (x.srem y).toInt < 0 ↔ x.toInt < 0 := by
  have nonzero : x.toInt.tmod y.toInt ≠ 0 := fun e => h (BitVec.eq_of_toInt_eq ((BitVec.toInt_srem x y).trans e))
  have sign : (x.toInt.tmod y.toInt).sign = x.toInt.sign := by
    rw [Int.sign_tmod, if_neg (mt Int.tmod_eq_zero_of_dvd nonzero)]
  rw [BitVec.toInt_srem, ← Int.sign_eq_neg_one_iff_neg, sign, Int.sign_eq_neg_one_iff_neg]

/-- Settles O11: a nonzero divisor gives the signed quotient and remainder of bit vectors, whose integer values divide toward
zero wherever 64 bits hold the quotient. -/
theorem divisionEdges : Obligations.DivisionEdges := by
  unfold Obligations.DivisionEdges
  intro s d a b x y
  have hdiv := setsS_div s d a b
  have hrem := setsS_rem s d a b
  refine ⟨hdiv, hrem, setsS_divu s d a b, setsS_remu s d a b, fun hx hy => ?_, fun hy edge => ?_⟩
  · exact ⟨setsS_of_exec_eq_wrS (exec_div d a b s) ((congrArg₂ divS hx hy).trans divS_mostNegative_negOne),
      setsS_of_exec_eq_wrS (exec_rem d a b s) ((congrArg₂ remS hx hy).trans remS_mostNegative_negOne)⟩
  · rw [if_neg hy] at hdiv hrem
    exact ⟨_, _, hdiv, hrem, toInt_eq_sdiv_mul_add_srem x y edge, natAbs_srem_lt x y hy, srem_neg_iff x y⟩

end Sys2Proof.Machine
end

section
/-! The window address (R85). -/

namespace Sys2Proof.Machine

theorem winAddr_eq_ofNat (m off : Word) : winAddr m off = BitVec.ofNat 64 (m.toNat * 2 ^ 19 + off.toNat) := by
  rw [winAddr, BitVec.ofNat_add, BitVec.ofNat_mul, BitVec.ofNat_toNat, BitVec.ofNat_toNat, BitVec.setWidth_eq, BitVec.setWidth_eq]

/-- A 32-bit word whose low bits are 111 is decoded by its major opcode (R47). -/
theorem decodeTableWord_wide (w : Nat) (lt : w < 2 ^ 32) (wide : w % 8 = 7) : decodeTableWord 32 w = decodeWide w := by
  have lo : (w % 256 + w / 256 % 256 * 256) % 8 = 7 := by omega
  have whole : w % 256 + w / 256 % 256 * 256 + (w / 65536 % 256 + w / 16777216 % 256 * 256) * 65536 = w := by omega
  rw [decodeTableWord, Nat.mod_eq_of_lt lt]
  simp [leBytes, decode, decodeHalves, Nat.div_div_eq_div_mul, lo, whole, Function.comp_def]

theorem decodeWide_alu (w : Nat) (major : w / 8 % 64 = 0) : decodeWide w = decAlu w := by
  simp only [decodeWide, major]

theorem decAlu_gaddr (w : Nat) (f8 : fld w 24 8 = 0x41) : decAlu w = some (.gaddr (fin5 w 9) (fin5 w 14) (fin5 w 19)) := by
  have wide19 (k : Nat) (hk : k / 32 ≠ 0x41) : fld w 19 13 ≠ k := by simp only [fld] at *; omega
  have wide14 (k : Nat) (hk : k / 1024 ≠ 0x41) : fld w 14 18 ≠ k := by simp only [fld] at *; omega
  have high27 : fld w 27 5 = 8 := by simp only [fld] at *; omega
  simp [decAlu, f8, wide19, wide14, high27]

/-- The word of GADDR (R57, R58). -/
theorem decodeTableWord_gaddr (d a b : Fin 32) :
    decodeTableWord 32 (0x41 * 2 ^ 24 + b.val * 2 ^ 19 + a.val * 2 ^ 14 + d.val * 2 ^ 9 + 0x007) = some (.gaddr d a b) := by
  generalize hw : 0x41 * 2 ^ 24 + b.val * 2 ^ 19 + a.val * 2 ^ 14 + d.val * 2 ^ 9 + 0x007 = w
  have hd : fin5 w 9 = d := Fin.ext (by simp only [fin5]; omega)
  have ha : fin5 w 14 = a := Fin.ext (by simp only [fin5]; omega)
  have hb : fin5 w 19 = b := Fin.ext (by simp only [fin5]; omega)
  have f8 : fld w 24 8 = 0x41 := by simp only [fld]; omega
  rw [decodeTableWord_wide w (by omega) (by omega), decodeWide_alu w (by omega), decAlu_gaddr w f8, hd, ha, hb]

/-- Settles O13: the sum of R85 truncated to 64 bits, ILLEGAL for s0 by the fields alone, and the word by its fields. -/
theorem windowAddress : Obligations.WindowAddress := by
  unfold Obligations.WindowAddress
  intro s d a b
  refine ⟨?_, ?_, fun _ => decodeTableWord_gaddr d a b⟩
  · exact setsS_of_exec_eq_wrS (exec_gaddr d a b s) (winAddr_eq_ofNat ..)
  · exact traps_of_exec_eq_wrS (exec_gaddr 0 a b s) (s.legal_of_not_wf rfl)

end Sys2Proof.Machine
end
